-- ==== Sys2Proof/Word.lean ====
section
/-!
DEFINITION. Words of the Yalioka controllers and the sparse table type that memories and large register files use.
-/
namespace Sys2Proof

/-- A 32-bit word: an instruction, a general register, an MMIO register (04 R92, 01 R18). -/
abbrev Word := BitVec 32

/-- One byte of memory. -/
abbrev Byte := BitVec 8

/-- A 16-bit half-word. -/
abbrev Half := BitVec 16

/-- A 48-bit value: the system timebase STB or a position in pu (01 R27, 02 "Position-triggered lines"). -/
abbrev Pos := BitVec 48

/-- The eight octets of a 66-bit block's payload, octet 0 in the low bits (10 R223). -/
abbrev Block := BitVec 64

/-- A sparse table: the entries that differ from what an unlisted key holds, keys rising. -/
abbrev Tab (α : Type) := List (Nat × α)

end Sys2Proof
end

