-- ==== Sys2Proof/Syntax.lean ====
section
/-!
DEFINITION. The commands of the controllers: one constructor of Instr for each row of spec/opcode_table.json, with the row's operands.
-/
namespace Sys2Proof

/-- A hardware context, 0-63 (03 R64). -/
abbrev CtxId := Fin 64

/-- A general register g0-g15 of a context (03 R64). -/
abbrev Reg := Fin 16

/-- A DMA channel D0-D15 (09 R205). -/
abbrev DmaId := Fin 16

/-- A sensor port P0-P3 (06 R135). -/
abbrev PortId := Fin 4

/-- A motion axis M0 or M1 (08 R177). -/
abbrev AxisId := Fin 2

/-- A Kentas link 0-2 (10 R221). -/
abbrev LinkId := Fin 3

/-- A physical lane 0-3 (10 R221). -/
abbrev LaneId := Fin 4

/-- An entry of the HK sequence table (11 R255). -/
abbrev HkEnt := Fin 16

/-- The imm14 field of an instruction word (04 R92). -/
abbrev Imm14 := BitVec 14

/-- The imm18 field of an instruction word (04 R92). -/
abbrev Imm18 := BitVec 18

/-- The imm26 field of an instruction word (04 R92). -/
abbrev Imm26 := BitVec 26

/-- The bus masters of 01 R16: contexts 0-63, DMA channels 64-79 and the fixed masters 80-86. -/
inductive Master where
  /-- Context n, master n. -/
  | ctx (n : CtxId)
  /-- DMA channel n, master 64 + n. -/
  | dma (n : DmaId)
  /-- Link ingress, master 80. -/
  | linkIn
  /-- Cascade ingress, master 81. -/
  | cascIn
  /-- Mirror ingress, master 82. -/
  | mirrorIn
  /-- Debug and trace, master 83. -/
  | debug
  /-- Hinge correlator, master 84. -/
  | corr
  /-- Pixel-pipeline writer, master 85. -/
  | writer
  /-- Management, master 86. -/
  | mgmt
  deriving DecidableEq, Repr

/-- A target port that arbitrates requests by age (01 R17). -/
inductive Port where
  /-- The PD port. -/
  | pd
  /-- The SH port. -/
  | sh
  /-- The shared line-store port. -/
  | ls
  /-- The pixel writer's line-store port. -/
  | lsw
  /-- The AON port. -/
  | aon
  /-- The NVM port. -/
  | nvm
  /-- The MMIO port. -/
  | mmio
  deriving DecidableEq, Repr

/-- The two video inputs of a port's sampling bank for one CP period, in microvolts: reset (reference) and data levels of tap A and of tap B (06 R136). -/
structure Vid where
  ra : Int
  da : Int
  rb : Int
  db : Int
  deriving DecidableEq, Repr

/-- A Kentas frame as it arrives, already aligned to blocks (10 R236): the START block's VC octet, its four header words, its payload bytes, the number of blocks between START and END, the CRC-32 received and whether a stray END or START was met. -/
structure RxFrame where
  sofVc : Byte
  w0 : Word
  w1 : Word
  w2 : Word
  w3 : Word
  payload : List Byte
  blocks : Nat
  crc : Word
  stray : Bool
  deriving DecidableEq, Repr

/-- What the HK converter meets over one integration (11 R252, R253, R264, R267): differential input and reference in nanovolts, delivered currents of IEX0 and IEX1 in nanoamperes, delivered VEXC and SENSE+ minus SENSE- in units of 10 microvolts, whether VEXC sits in its current limit, the monitored value of channels 8-11, and the photocurrent into HKn_P in picoamperes (R266). -/
structure HkMeas where
  vin : Int
  vref : Int
  i0 : Int
  i1 : Int
  vexc : Int
  sense : Int
  climit : Bool
  mon : Int
  photo : Int
  deriving DecidableEq, Repr

/-- The wake sources of PWR_WAKEEN (14 R326). -/
inductive WakeSrc where
  /-- An edge of the WAKE pin. -/
  | pin (rising : Bool)
  /-- Squelch opening on a link. -/
  | link (k : LinkId)
  /-- A limit crossing of the HK front end. -/
  | hkLimit
  /-- A GPI pin. -/
  | gpi (n : Fin 8)
  /-- WDTA_EARLY. -/
  | wdtaEarly
  deriving DecidableEq, Repr

/-- A command: one row of the table of steps, with its operands. -/
inductive Instr where
  /-- ADD (R98). Adds ga and b into gd and sets Z, N, C and V. -/
  | add (c : CtxId) (gd ga gb : Reg) (imm : Imm14)
  /-- SUB (R98). Subtracts b from ga into gd and sets Z, N, C and V. -/
  | sub (c : CtxId) (gd ga gb : Reg) (imm : Imm14)
  /-- AND (R98). Bitwise AND of ga and b into gd; sets Z and N, clears C and V. -/
  | and (c : CtxId) (gd ga gb : Reg) (imm : Imm14)
  /-- OR (R98). Bitwise OR of ga and b into gd; sets Z and N, clears C and V. -/
  | or (c : CtxId) (gd ga gb : Reg) (imm : Imm14)
  /-- XOR (R98). Bitwise XOR of ga and b into gd; sets Z and N, clears C and V. -/
  | xor (c : CtxId) (gd ga gb : Reg) (imm : Imm14)
  /-- SHL (R98). Shifts ga left by b[4:0] into gd; C takes the last bit shifted out. -/
  | shl (c : CtxId) (gd ga gb : Reg) (imm : Imm14)
  /-- SHR (R98). Shifts ga right logically by b[4:0] into gd, with flags as SHL. -/
  | shr (c : CtxId) (gd ga gb : Reg) (imm : Imm14)
  /-- SRA (R98). Shifts ga right arithmetically by b[4:0] into gd, with flags as SHL. -/
  | sra (c : CtxId) (gd ga gb : Reg) (imm : Imm14)
  /-- MUL (R98). Writes the low 32 bits of ga times b to gd; V shows signed overflow. -/
  | mul (c : CtxId) (gd ga gb : Reg) (imm : Imm14)
  /-- MULH (R98). Writes the high 32 bits of the signed product of ga and b to gd. -/
  | mulh (c : CtxId) (gd ga gb : Reg) (imm : Imm14)
  /-- MIN (R98). Writes the signed minimum of ga and b to gd. -/
  | min (c : CtxId) (gd ga gb : Reg) (imm : Imm14)
  /-- MAX (R98). Writes the signed maximum of ga and b to gd. -/
  | max (c : CtxId) (gd ga gb : Reg) (imm : Imm14)
  /-- CMP (R98). Computes ga minus b for the flags only, writing no register. -/
  | cmp (c : CtxId) (ga gb : Reg) (imm : Imm14)
  /-- ADDI (R98). Adds the sign-extended imm18 to ga into gd and sets Z, N, C and V. -/
  | addi (c : CtxId) (gd ga : Reg) (imm : Imm18)
  /-- LUI (R98). Writes imm18 shifted left by 14 into gd. -/
  | lui (c : CtxId) (gd : Reg) (imm : Imm18)
  /-- LDW (R99). Loads an aligned word from ga plus imm18 into gd, subject to windows and decode. -/
  | ldw (c : CtxId) (gd ga : Reg) (imm : Imm18)
  /-- LDH (R99). Loads a zero-extended aligned half-word into gd. -/
  | ldh (c : CtxId) (gd ga : Reg) (imm : Imm18)
  /-- LDB (R99). Loads a zero-extended byte into gd. -/
  | ldb (c : CtxId) (gd ga : Reg) (imm : Imm18)
  /-- STW (R99). Places a word store of the gd register into the store buffer. -/
  | stw (c : CtxId) (gd ga : Reg) (imm : Imm18)
  /-- STH (R99). Places a half-word store into the store buffer. -/
  | sth (c : CtxId) (gd ga : Reg) (imm : Imm18)
  /-- STB (R99). Places a byte store into the store buffer. -/
  | stb (c : CtxId) (gd ga : Reg) (imm : Imm18)
  /-- SWAP (R100). Indivisibly reads a word, writes the old gb and returns the old word in gd, fenced on both sides. -/
  | swap (c : CtxId) (gd ga gb : Reg) (imm : Imm14)
  /-- CAS (R100). Indivisibly compares a word with gd and writes gb on equality, setting Z, with gd taking the old word. -/
  | cas (c : CtxId) (gd ga gb : Reg) (imm : Imm14)
  /-- FENCE_SL (R87). Holds the next load until every earlier store of the context is visible. -/
  | fenceSl (c : CtxId)
  /-- FENCE_ALL (R87). Holds every later access until all earlier accesses have completed and all stores are visible. -/
  | fenceAll (c : CtxId)
  /-- BEQ (R102). Register-form branch taken when ga equals gb. -/
  | beq (c : CtxId) (ga gb : Reg) (imm : Imm14)
  /-- BNE (R102). Register-form branch taken when ga differs from gb. -/
  | bne (c : CtxId) (ga gb : Reg) (imm : Imm14)
  /-- BLT (R102). Register-form branch taken when ga is signed less than gb. -/
  | blt (c : CtxId) (ga gb : Reg) (imm : Imm14)
  /-- BGE (R102). Register-form branch taken when ga is signed greater than or equal to gb. -/
  | bge (c : CtxId) (ga gb : Reg) (imm : Imm14)
  /-- BLTU (R102). Register-form branch taken when ga is unsigned less than gb. -/
  | bltu (c : CtxId) (ga gb : Reg) (imm : Imm14)
  /-- BEQ_F (R102). Flag-form branch taken when Z = 1. -/
  | beqF (c : CtxId) (imm : Imm14)
  /-- BNE_F (R102). Flag-form branch taken when Z = 0. -/
  | bneF (c : CtxId) (imm : Imm14)
  /-- BLT_F (R102). Flag-form branch taken when N differs from V. -/
  | bltF (c : CtxId) (imm : Imm14)
  /-- BGE_F (R102). Flag-form branch taken when N equals V. -/
  | bgeF (c : CtxId) (imm : Imm14)
  /-- BLTU_F (R102). Flag-form branch taken when C = 1. -/
  | bltuF (c : CtxId) (imm : Imm14)
  /-- BEQ_A (R102). Absence-form branch taken when ST.ABS = 1. -/
  | beqA (c : CtxId) (imm : Imm14)
  /-- BNE_A (R102). Absence-form branch taken when ST.ABS = 0. -/
  | bneA (c : CtxId) (imm : Imm14)
  /-- JAL (R103). Writes the return address to g13 and jumps by the scaled imm26. -/
  | jal (c : CtxId) (imm : Imm26)
  /-- JR (R104). Writes the return address to gd and jumps to ga plus imm14, freezing on a misaligned target. -/
  | jr (c : CtxId) (gd ga : Reg) (imm : Imm14)
  /-- ILLEGAL_OP (R93). A reserved opcode, unlisted function code or non-zero unused field freezes the context with cause ILLEGAL_OP. -/
  | illegalOp (c : CtxId) (w : Word)
  /-- WAIT (R105). Loads the event mask and takes a matching queued record or suspends the context in WAITING. -/
  | wait (c : CtxId) (ga gb : Reg)
  /-- EMIT (R108). Raises software event SW0-SW3 with detail ga after earlier stores are visible. -/
  | emit (c : CtxId) (n : Fin 4) (ga : Reg)
  /-- YIELD (R109). Ends the context's urgency and leaves it READY with a fresh last-issue time. -/
  | yield (c : CtxId)
  /-- HALT (R65). Moves the issuing context to STOPPED with PC on the next instruction. -/
  | halt (c : CtxId)
  /-- TS (R109). Writes the STB of its issue cycle to two registers. -/
  | ts (c : CtxId) (gd ga : Reg)
  /-- LINE_START (R112). From OFF starts a document run with grid origin P0 and first line number, handing M0 to the Hinge. -/
  | lineStart (c : CtxId) (gd ga gb : Reg)
  /-- LINE_STOP (R112). Ends the document run, stops the axis and frees pinned and overlap slots. -/
  | lineStop (c : CtxId)
  /-- ARM (R142). Arms an edge-table bank of a port for its next line boundary. -/
  | arm (c : CtxId) (p : PortId) (b : Fin 2)
  /-- MOVE_TO (R190). MOVE mode 0 sets an absolute position target for an axis. -/
  | moveTo (c : CtxId) (m : AxisId) (gd ga : Reg)
  /-- MOVE_BY (R190). MOVE mode 1 adds a signed displacement to the current target or position. -/
  | moveBy (c : CtxId) (m : AxisId) (gd ga : Reg)
  /-- MOVE_RUN (R190). MOVE mode 2 runs the axis at a signed speed until MSTOP or another MOVE. -/
  | moveRun (c : CtxId) (m : AxisId) (gd ga : Reg)
  /-- MSTOP (R190). Commands a controlled stop of an axis and cancels its target. -/
  | mstop (c : CtxId) (m : AxisId)
  /-- SEAM_FREEZE (R49). Freezes the Hinge with REASON = SOFT when running with EN = 1. -/
  | seamFreeze (c : CtxId)
  /-- SEAM_RESUME (R55). Records the resume that a STALL or SOFT freeze needs before restart. -/
  | seamResume (c : CtxId)
  /-- SEAM_RESET (R170). Loads zero seam offsets from the next line without a seam. -/
  | seamReset (c : CtxId)
  /-- CAPS (R2). Returns SYS_CAPS to gd and clears ST.ABS. -/
  | caps (c : CtxId) (gd : Reg)
  /-- CRED_GRANT (R41). Grants pacing credits to a stream in its completion cycle, clipped at the limit. -/
  | credGrant (c : CtxId) (ga gb : Reg)
  /-- CRED_CLOSE (R43). Closes a stream, removing its available credits and taking it out of the pacing set. -/
  | credClose (c : CtxId) (ga : Reg)
  /-- CRED_OPEN (R43). Opens a stream with a zeroed book and gap count. -/
  | credOpen (c : CtxId) (ga : Reg)
  /-- CRED_READ (R112). Returns a stream's available credit count. -/
  | credRead (c : CtxId) (gd ga : Reg)
  /-- XFER (R205). Starts a DMA channel in chain mode at a descriptor or in register mode. -/
  | xfer (c : CtxId) (ch : DmaId) (ga : Reg)
  /-- DRING (R216). Rings a DMA channel's doorbell as a DMA_CHn_DRING write does. -/
  | dring (c : CtxId) (ch : DmaId)
  /-- HKREQ_SEQ (R256). Starts the HK sequence from IDLE. -/
  | hkreqSeq (c : CtxId)
  /-- HKREQ_URGENT (R261). Places an urgent conversion request for an entry in slot U0 or U1. -/
  | hkreqUrgent (c : CtxId) (u : Fin 2) (e : HkEnt)
  /-- HKREQ_STOP (R256). Stops the HK sequence at the end of the running entry. -/
  | hkreqStop (c : CtxId)
  /-- HKRD (R260). Reads an HK result word, clearing FRESH unless PEEK is set. -/
  | hkrd (c : CtxId) (gd : Reg) (e : HkEnt) (peek : Bool)
  /-- KEY (R283). Sends a Tumbler check-in for a slot after the binding check. -/
  | key (c : CtxId) (k : Fin 8)
  /-- CTX_START (R84). Moves a STOPPED context to READY. -/
  | ctxStart (c : CtxId) (ga : Reg)
  /-- CTX_STOP (R84). Moves a READY or WAITING context to STOPPED at its next instruction boundary. -/
  | ctxStop (c : CtxId) (ga : Reg)
  /-- CTX_RESET (R83). Stops a context, drains its store buffer and clears its registers, flags, mask, queue and latch. -/
  | ctxReset (c : CtxId) (ga : Reg)
  /-- CTX_SET_U (R71). Sets a context to U privilege from its next instruction boundary. -/
  | ctxSetU (c : CtxId) (ga : Reg)
  /-- CTX_SET_S (R71). Sets a context to S privilege from its next instruction boundary. -/
  | ctxSetS (c : CtxId) (ga : Reg)
  /-- WIN (R74). Writes a window's base and limit of a context as one change. -/
  | win (c : CtxId) (k : Fin 4) (gd ga gb : Reg)
  /-- THAW (R82). Clears FROZEN on a named master. -/
  | thaw (c : CtxId) (ga : Reg)
  /-- SYS_RESET (R400). After draining, resets the device with cause SOFTWARE in its completion cycle. -/
  | sysReset (c : CtxId)
  /-- SYS_STANDBY (R323). Requests STANDBY entry, accepted or refused with a REFUSE code. -/
  | sysStandby (c : CtxId)
  /-- SYS_FUSE (R366). Returns a fuse-view word to gd. -/
  | sysFuse (c : CtxId) (gd ga : Reg)
  /-- STORE_BUFFER_DRAIN (R85). A buffered store is accepted by its target port and becomes visible to every master. -/
  | storeBufferDrain (c : CtxId)
  /-- LOAD_COMPLETE (R86). Read data of a granted load returns and is written to its register. -/
  | loadComplete (c : CtxId)
  /-- FROZEN_INFLIGHT_ECC (R80). An in-flight access of a frozen master meets an uncorrectable error and a further record is written. -/
  | frozenInflightEcc (m : Master) (addr : Word)
  /-- BURST_GRANT (R17). A target port grants a waiting burst to the oldest request. -/
  | burstGrant (p : Port)
  /-- ECC_WRITE_BACK (R22). A corrected single-bit error is written back in a repair cycle. -/
  | eccWriteBack (addr : Word)
  /-- SEQUENCER_GATE (R322). After 8 cycles with nothing issuable a sequencer gates its issue clock. -/
  | sequencerGate (q : Fin 2)
  /-- SYS_STB_LO_READ (R28). A read of SYS_STB_LO latches STB bits 47:32 for the reading master. -/
  | sysStbLoRead (m : Master)
  /-- HNG_NEXT_LO_READ (R63). A read of HNG_NEXT_LO latches HNG_NEXT_HI for the master. -/
  | hngNextLoRead (m : Master)
  /-- HNG_LAST_LO_READ (R63). A read of HNG_LAST_LO latches HNG_LAST_HI for the master. -/
  | hngLastLoRead (m : Master)
  /-- MOT_CMD_LO_READ (R196). A read of MOT_Mm_CMD_LO latches its HI register for the master. -/
  | motCmdLoRead (m : Master) (a : AxisId)
  /-- MOT_ENC_LO_READ (R196). A read of MOT_Mm_ENC_LO latches its HI register for the master. -/
  | motEncLoRead (m : Master) (a : AxisId)
  /-- MOT_SETPOS_LO_READ (R196). A read of MOT_Mm_SETPOS_LO latches its HI register for the master. -/
  | motSetposLoRead (m : Master) (a : AxisId)
  /-- LS_CNT0_READ (R199). A read of LS_CNT0 latches LS_CNT1 and LS_CNT2 for the master. -/
  | lsCnt0Read (m : Master)
  /-- EVENT_RECORD_ISSUE (R118). The fabric issues pending records oldest first and delivers them to every routed destination. -/
  | eventRecordIssue
  /-- WAKE_PORT_SERVE (R128). A sequencer's wake port loads g14, g15 and the wake latch of the next waking context. -/
  | wakePortServe (q : Fin 2)
  /-- EVENT_MESSAGE_SEND (R123). Host-queue records leave in an EVENT message when VC 64 has link credit. -/
  | eventMessageSend
  /-- EVT_INTPEND_CLEAR (R124). A W1C write of EVT_INTPEND clears pending bits and releases INT_N when none remains. -/
  | evtIntpendClear (m : Master) (hi : Bool) (v : Word)
  /-- EVT_SWRAISE (R132). A write of EVT_SWRAISEn raises software event 60 + n with the written detail. -/
  | evtSwraise (m : Master) (n : Fin 4) (v : Word)
  /-- EVT_CTL_WRITE (R123). A write of EVT_CTL sets HQEN; HQEN = 0 discards the host queue, counting the loss. -/
  | evtCtlWrite (m : Master) (v : Word)
  /-- EVT_TMR_ENABLE (R131). Setting a timer's EN loads its count from PERIOD and zeroes its expiry count. -/
  | evtTmrEnable (m : Master) (k : Fin 4) (v : Word)
  /-- TIMER_EXPIRY (R131). A timer count reaches 0, raises its event and reloads or clears EN. -/
  | timerExpiry (k : Fin 4)
  /-- LINE_FIRE (R33). The trigger comparator fires a numbered line, consuming credits and a FREE slot. -/
  | lineFire
  /-- OVERLAP_CAPTURE_FIRE (R57). In OVERLAP the comparator fires an unnumbered capture at a pinned line's grid position. -/
  | overlapCaptureFire
  /-- GUARD_CAPTURE_FIRE (R57). In GUARD the comparator fires an unnumbered guard capture at one of the last three grid positions. -/
  | guardCaptureFire
  /-- STORE_FULL (R200). A grid position is reached with no FREE slot; event 10 is raised and the line becomes late. -/
  | storeFull
  /-- PLANNER_INTERVAL (R185). Every 1 us the planners update p, v and a and the Hinge evaluates its state. -/
  | plannerInterval
  /-- STEP_EMIT (R179). The motor position crosses a microstep boundary and a STEP pulse or phase-current update is emitted. -/
  | stepEmit (a : AxisId)
  /-- HOLD_CURRENT (R180). After HOLDT ms at rest the axis current switches to IHOLD. -/
  | holdCurrent (a : AxisId)
  /-- ENCODER_COUNT (R182). A quadrature state change of ENCm_A or ENCm_B updates the encoder count. -/
  | encoderCount (a : AxisId) (la lb : Bool)
  /-- ENCODER_INDEX (R184). A rising edge of ENCm_Z copies the count and raises event 21 + m. -/
  | encoderIndex (a : AxisId)
  /-- AXIS_DISABLE (R192). A write of MOT_Mm_CTL.EN = 0 stops the axis at once and discards pending steps. -/
  | axisDisable (m : Master) (a : AxisId) (v : Word)
  /-- STALL_CLEAR (R195). A W1C write of MOT_Mm_STATUS.STALL clears STALLED. -/
  | stallClear (m : Master) (a : AxisId)
  /-- SYNC (R195). MOT_Mm_OP SYNC sets p to the counted encoder position when permitted. -/
  | sync (m : Master) (a : AxisId)
  /-- SETPOS (R195). MOT_Mm_OP SETPOS sets p and the encoder origin to MOT_Mm_SETPOS when permitted. -/
  | setpos (m : Master) (a : AxisId)
  /-- PERIOD_START (R139). A trigger reaching CK_PIXn starts a port period and its edge-table walk. -/
  | periodStart (p : PortId)
  /-- PERIOD_END (R140). A port period ends at LEND and the line-complete status crosses to CK_CORE. -/
  | periodEnd (p : PortId)
  /-- PERIOD_TIMEOUT (R150). LEND has not arrived LTMO us after the trigger and the period ends short with zero fill. -/
  | periodTimeout (p : PortId)
  /-- PERIOD_TRIGGER (R146). Once every enabled port has ended period k and 25 us have passed, period k + 1 is triggered. -/
  | periodTrigger
  /-- PORT_ENABLE (R147). A write of PORTn_CTL.EN = 1 enables the port after clock and width checks, or withdraws a pending disable. -/
  | portEnable (m : Master) (p : PortId) (v : Word)
  /-- PORT_DISABLE (R148). A write of EN = 0 disables the port at its next line boundary. -/
  | portDisable (m : Master) (p : PortId) (v : Word)
  /-- PLLP_LOCK (R138). PLL-P locks after port enable and CKLOCK is set. -/
  | pllpLock (p : PortId)
  /-- PORT_EDGE_WRITE (R141). A write to an edge-table entry applies, or is ignored with WACT for the active bank. -/
  | portEdgeWrite (m : Master) (p : PortId) (b : Fin 2) (i : Fin 64) (v : Word)
  /-- LED_PULSE_START (R151). LEDk_START after a period trigger a channel starts its pulse. -/
  | ledPulseStart (k : Fin 4)
  /-- LED_SAMPLE (R152). At mid-pulse the channel samples ISNS and DSNS. -/
  | ledSample (k : Fin 4) (isns : BitVec 10) (dsns : Nat)
  /-- LED_PULSE_END (R152). The pulse ends after LEDk_WIDTH and the current loop updates GCODE. -/
  | ledPulseEnd (k : Fin 4)
  /-- PIPELINE_PIXELS (R156). The pipeline takes pixels from the port FIFOs and processes them through its stages. -/
  | pipelinePixels (p : PortId) (vids : List Vid) (take : Nat)
  /-- LINE_STORE_COMPLETE (R201). The last byte of a line is accepted and its slot leaves FILL. -/
  | lineStoreComplete (n : Fin 256)
  /-- CORRELATION_DONE (R173). The correlator finishes and the Hinge loads the accepted offsets or zero. -/
  | correlationDone
  /-- DIE_TEMP_SAMPLE (R332). Every 1 ms die temperature is sampled, feeding TEMP_WARN and the shading filter. -/
  | dieTempSample (t : Half)
  /-- SUPPLY_WARN (R332). A supply leaves its warning window and event 55 is raised. -/
  | supplyWarn (mon : Fin 4) (outside : Bool)
  /-- GEOMETRY_APPLY (R401). A deferred slot geometry takes effect once every slot of the previous one is FREE. -/
  | geometryApply
  /-- LS_RELEASE (R203). A write of LS_RELEASE clears named hold bits of a slot, setting RELERR for unheld ones. -/
  | lsRelease (m : Master) (v : Word)
  /-- LS_LOWTH_WRITE (R204). A write of LS_LOWTH re-arms event 9 according to the FREE count. -/
  | lsLowthWrite (m : Master) (v : Word)
  /-- DMA_GO (R205). A write of DMA_CHn_CTL.GO = 1 starts an IDLE channel in register mode. -/
  | dmaGo (m : Master) (ch : DmaId) (v : Word)
  /-- GO_CLEAR (R213). A write of GO = 0 takes a PACED register-mode channel to IDLE at its next LINEWAIT. -/
  | goClear (m : Master) (ch : DmaId) (v : Word)
  /-- DMA_HEAD_WRITE (R205). A non-zero write of DMA_CHn_HEAD starts an IDLE channel in chain mode. -/
  | dmaHeadWrite (m : Master) (ch : DmaId) (v : Word)
  /-- DMA_DRING_WRITE (R216). A write of DMA_CHn_DRING rings the channel by its state. -/
  | dmaDringWrite (m : Master) (ch : DmaId) (v : Word)
  /-- DMA_ABORT (R217). DMA_CHn_CMD.ABORT stops the channel at a beat boundary and abandons its lines. -/
  | dmaAbort (m : Master) (ch : DmaId)
  /-- DMA_LINE_BIND (R212). A PACED channel in LINEWAIT binds the oldest received line and begins its transfer. -/
  | dmaLineBind (ch : DmaId)
  /-- DESCRIPTOR_FETCH (R207). A descriptor read completes and the channel checks every byte it will touch. -/
  | descriptorFetch (ch : DmaId)
  /-- DESCRIPTOR_COMPLETE (R207). All beats of a descriptor are committed and its w7 is written. -/
  | descriptorComplete (ch : DmaId)
  /-- TAIL_WAIT_EXPIRY (R215). The TAILWAIT count ends and the tail descriptor's w0 is re-read. -/
  | tailWaitExpiry (ch : DmaId)
  /-- TAIL_REREAD (R215). The re-read of the tail w0 returns; the chain follows NEXT or goes IDLE with event 38. -/
  | tailReread (ch : DmaId)
  /-- EGRESS_BEAT_ACCEPT (R240). An egress-window beat is accepted into staging when its stream has room. -/
  | egressBeatAccept (ch : DmaId)
  /-- FRAME_SEND (R241). The framer sends the longest-waiting complete frame of a VC holding enough units. -/
  | frameSend (k : LinkId)
  /-- FRAME_RECEIVE (R236). A frame arrives whole and is checked, then handed on or discarded. -/
  | frameReceive (k : LinkId) (f : RxFrame)
  /-- CREDIT_BLOCK_SEND (R239). A CREDIT block reporting the two oldest unreported VCs is sent on a lane. -/
  | creditBlockSend (n : LaneId)
  /-- CREDIT_BLOCK_RECEIVE (R238). A CREDIT block adds the reported units to the sender's available counts. -/
  | creditBlockReceive (n : LaneId) (b : Block)
  /-- ALIGN_SEND (R226). ALIGN blocks are sent on every lane at their block interval. -/
  | alignSend (k : LinkId)
  /-- ALIGN_RECEIVE (R226). Received ALIGN counts are matched and lane skew removed. -/
  | alignReceive (n : LaneId) (b : Block)
  /-- BLOCK_LOCK_GAIN (R224). A receiver gains block lock after 64 consecutive valid headers. -/
  | blockLockGain (n : LaneId)
  /-- BLOCK_LOCK_LOSS (R224). A locked receiver loses lock when a window reaches 16 invalid headers. -/
  | blockLockLoss (n : LaneId)
  /-- PLLL_LOCK (R229). PLL-L locks and an enabled link enters DETECT. -/
  | plllLock
  /-- DETECT_STEP (R229). Every 1 ms in DETECT a common-mode step tests for a partner. -/
  | detectStep (k : LinkId)
  /-- PARTNER_DETECTED (R229). A partner is detected on the first lane and the link enters TRAIN. -/
  | partnerDetected (k : LinkId)
  /-- TRAIN_BLOCK_RECEIVE (R227). A TRAIN block is taken, giving the partner's READY, rate and FFE request. -/
  | trainBlockReceive (n : LaneId) (b : Block)
  /-- LANE_ADAPTED (R227). 100 us pass without a PRBS31 error and the lane sets ADAPTED. -/
  | laneAdapted (n : LaneId)
  /-- TRAIN_TIMEOUT (R228). TRAIN does not end within 16 ms; the rate steps down or the link enters FAULT. -/
  | trainTimeout (k : LinkId)
  /-- LOCK_TIMEOUT (R229). No block lock within 1 ms of LOCK returns the link to DETECT. -/
  | lockTimeout (k : LinkId)
  /-- CAP_SEQUENCE_RECEIVE (R231). A valid partner CAP sequence is taken and, with RXOK, the link enters ACTIVE. -/
  | capSequenceReceive (k : LinkId) (ws : List Word) (crc : Word) (last : Byte)
  /-- EXCHANGE_TIMEOUT (R229). EXCHANGE without completion for 1 ms returns the link to DETECT. -/
  | exchangeTimeout (k : LinkId)
  /-- SQUELCH_CLOSE (R229). Squelch closes on a used lane in ACTIVE and the link goes down. -/
  | squelchClose (n : LaneId)
  /-- SQUELCH_OPEN (R247). Squelch opens on a DEEP link and the side wakes the link. -/
  | squelchOpen (n : LaneId)
  /-- DEEP_REQ (R246). A received DEEP REQ is answered with ACK or NAK. -/
  | deepReq (n : LaneId) (b : Block)
  /-- DEEP_ACK (R246). A received DEEP ACK makes the requester send 16 IDLE blocks and enter DEEP. -/
  | deepAck (n : LaneId) (b : Block)
  /-- DEEP_NAK (R246). A received DEEP NAK keeps the link ACTIVE and raises event 42. -/
  | deepNak (n : LaneId) (b : Block)
  /-- WAKE_BLOCK_RECEIVE (R247). WAKE or IDLE from the partner in resuming LOCK returns the link to ACTIVE. -/
  | wakeBlockReceive (n : LaneId) (b : Block)
  /-- DEEP_EXIT_TIMEOUT (R229). No lock within 100 us of a wake sends the link to DETECT. -/
  | deepExitTimeout (k : LinkId)
  /-- MEASURE_REQUEST_RECEIVE (R245). A TRAIN block with MEASURE = 1 starts MEASURE after the current frame. -/
  | measureRequestReceive (n : LaneId) (b : Block)
  /-- MEASURE_END (R245). N × 65,536 MEASURE blocks end and the link returns to ACTIVE. -/
  | measureEnd (k : LinkId)
  /-- KL_LINK_EN_WRITE (R229). A write of KL_LKk_CFG.EN enables or disables a link. -/
  | klLinkEnWrite (m : Master) (k : LinkId) (v : Word)
  /-- RESTART (R229). KL_LKk_CMD.RESTART returns the link to DETECT with LADDER = 0. -/
  | restart (m : Master) (k : LinkId)
  /-- DEEP (R246). KL_LKk_CMD.DEEP sends DEEP REQ after the current frame. -/
  | deep (m : Master) (k : LinkId)
  /-- WAKE (R247). KL_LKk_CMD.WAKE restarts PLL-L and sends WAKE on a DEEP link. -/
  | wake (m : Master) (k : LinkId)
  /-- DISABLE (R229). KL_LKk_CMD.DISABLE takes the link to DISABLED. -/
  | disable (m : Master) (k : LinkId)
  /-- CLRCNT (R244). KL_LKk_CMD.CLRCNT clears the link's error counters. -/
  | clrcnt (m : Master) (k : LinkId)
  /-- MEASURE_START (R245). A write of KL_LKk_MEAS with N starts MEASURE on an ACTIVE link. -/
  | measureStart (m : Master) (k : LinkId) (n : Byte)
  /-- MREAD (R370). A management read of COUNT words is executed and answered with MRESP. -/
  | mread (k : LinkId) (tag : Word) (body : List Word)
  /-- MWRITE (R370). A management write of COUNT words is executed and answered unless NORESP. -/
  | mwrite (k : LinkId) (tag : Word) (body : List Word)
  /-- CREDIT (R370). A host CREDIT message applies its grants in body order. -/
  | credit (k : LinkId) (body : List Word)
  /-- CAPS_MESSAGE (R370). A CAPS request is answered with identity, capabilities and boot data. -/
  | capsMessage (k : LinkId) (tag : Word)
  /-- PING (R370). A PING body is echoed back in a PING. -/
  | ping (k : LinkId) (tag : Word) (body : List Word)
  /-- ASSIGN (R298). An ASSIGN is answered, forwarded with a timer, or accepted as a new chain address. -/
  | assign (a : BitVec 4)
  /-- ASSIGNED (R298). An ASSIGNED reply is forwarded up or makes the master send the next ASSIGN. -/
  | assigned (a : BitVec 4)
  /-- CHAIN_END (R298). A CHAIN_END sets the chain length at the master and raises event 44. -/
  | chainEnd (a : BitVec 4)
  /-- ENUM_TIMEOUT (R298). A forwarding device's 10 ms timer expires and it sends CHAIN_END upstream. -/
  | enumTimeout
  /-- ENUM (R298). A write of CAS_CHAIN_CTL.ENUM starts enumeration from the master. -/
  | enum (m : Master)
  /-- CHAIN_START (R305). A member takes the first line number and master PSTR and releases LHOLD_N. -/
  | chainStart (n0 : Word) (pstr : BitVec 18)
  /-- CHAIN_STOP (R305). A member ends its participation and holds LHOLD_N low. -/
  | chainStop
  /-- SEAMSET (R304). A member loads seam offsets for its next numbered pulse. -/
  | seamset (voff hoff : Byte)
  /-- TBSYNC (R309). A member or standby sets its timebase offset from the master's STB for a pulse. -/
  | tbsync (cnt : Half) (stb : Pos)
  /-- PAIR_HELLO (R310). A received PAIR_HELLO moves an ACTIVE_SOLO device to ACTIVE. -/
  | pairHello (st : BitVec 3)
  /-- PAIR_HELLO_SEND (R310). Every 50 us a standby sends PAIR_HELLO. -/
  | pairHelloSend
  /-- LSYNC_PULSE (R297). An LSYNC pulse is decoded by width and fires a line or capture or latches the STB. -/
  | lsyncPulse (width : Nat)
  /-- TIMEBASE_PULSE (R303). The master sends a timebase LSYNC pulse every 65,536 STB ticks. -/
  | timebasePulse
  /-- SLOTWRITE (R308). A CASCADE SLOTWRITE is written by cascade ingress into the master's slot in FILL. -/
  | slotwrite (src : BitVec 4) (off line : Word) (data : List Byte)
  /-- SEGEND (R308). A CASCADE SEGEND marks a member's segment of a line complete. -/
  | segend (src : BitVec 4) (line : Word)
  /-- SEGMENT_TIMEOUT (R308). CAS_SEGTMO passes without all SEGENDs and the slot leaves FILL with SEGTMO and event 45. -/
  | segmentTimeout (n : Fin 256)
  /-- CHECKPOINT_SEND (R312). The active device sends a full checkpoint for a secured line or at CPIVL. -/
  | checkpointSend
  /-- HEARTBEAT_SEND (R312). After 50 us since the last CHECKPOINT frame a heartbeat is sent. -/
  | heartbeatSend
  /-- CHECKPOINT_RECEIVE (R313). A complete checkpoint is stored in PD and the encoder origin aligned. -/
  | checkpointReceive (data : List Byte)
  /-- PAIR_PEER_LOST (R315). The peer timer expires; the standby forces takeover or the active goes ACTIVE_SOLO, with event 47. -/
  | pairPeerLost
  /-- TAKEOVER_LOAD (R316). 2 us after forcing, mirror ingress loads the last complete checkpoint. -/
  | takeoverLoad
  /-- PAIR_TAKEOVER (R318). Loading completes, outputs are driven and event 46 is raised. -/
  | pairTakeover
  /-- PAIR_FORCE_IN (R320). PAIR_FORCE_I going high deposes the active device and releases its outputs. -/
  | pairForceIn (high : Bool)
  /-- PAIR_ENABLE (R310). A write of CAS_PAIR_CTL.EN = 1 enters ACTIVE_SOLO or STANDBY by strap. -/
  | pairEnable (m : Master) (v : Word)
  /-- REPAIR (R315). CAS_PAIR_CMD.REPAIR drives PAIR_FORCE_O low. -/
  | repair (m : Master)
  /-- REJOIN (R310). CAS_PAIR_CMD.REJOIN returns a DEPOSED device to STANDBY. -/
  | rejoin (m : Master)
  /-- HK_CMD_START (R256). HK_CMD.START starts the HK sequence from IDLE. -/
  | hkCmdStart (m : Master)
  /-- HK_CMD_STOP (R256). HK_CMD.STOP stops the sequence. -/
  | hkCmdStop (m : Master)
  /-- CLRDROP (R275). HK_CMD.CLRDROP zeroes HK_DROPCNT. -/
  | clrdrop (m : Master)
  /-- URGENT_REQUEST_ARRIVAL (R262). An urgent request reaches CK_HK and starts, abandons a sequence conversion, waits or is dropped. -/
  | urgentRequestArrival
  /-- REF_SETTLED (R254). The reference buffer settles and REF_SETTLED is set. -/
  | refSettled
  /-- INTEGRATION_START (R254). The settle time ends with the reference settled and integration begins. -/
  | integrationStart
  /-- REF_UNSETTLED (R254). 1 ms after settle the reference is unsettled and the conversion ends faulted. -/
  | refUnsettled
  /-- INTEGRATION_END (R251). The integration time ends, and a 3-wire phase A exchanges the sources. -/
  | integrationEnd (x : HkMeas)
  /-- RESULT_PUBLISH (R259). T_comp ends and the result pair is published, evaluating faults, limits, AOUT and the sequence. -/
  | resultPublish
  /-- HK_PERIOD_EXPIRY (R257). HK_PERIOD elapses in WAIT and the next pass starts. -/
  | hkPeriodExpiry
  /-- HK_RES_READ (R260). A read of HK_RESe clears FRESH and latches HK_AUXe for the master. -/
  | hkResRead (m : Master) (e : HkEnt)
  /-- HK_PEEK_READ (R260). A read of HK_PEEKe latches HK_AUXe without clearing FRESH. -/
  | hkPeekRead (m : Master) (e : HkEnt)
  /-- HK_ENT_CFG_WRITE (R272). A write of HK_ENTe_CFG applies from the entry's next conversion and resets the limit zone. -/
  | hkEntCfgWrite (m : Master) (e : HkEnt) (v : Word)
  /-- WDT_A_START (R276). A write of WDT_A_CTL.EN = 1 starts WDT-A. -/
  | wdtAStart (m : Master)
  /-- WDTA_WINDOW_OPEN (R277). The WDT-A count reaches the window point and the window opens. -/
  | wdtaWindowOpen
  /-- WDTA_EARLY (R278). The WDT-A count reaches 7/8 of the period and event 48 is raised. -/
  | wdtaEarly
  /-- WDTA_EXPIRY (R278). The WDT-A count reaches the period; evidence is written and the device resets. -/
  | wdtaExpiry
  /-- WDT_A_SVC_WRITE (R279). A write of WDT_A_SVC is checked for ownership at the MMIO port and sent to CK_AON. -/
  | wdtASvcWrite (m : Master) (v : Word)
  /-- WDTA_SERVICE_ARRIVAL (R281). A service write reaches CK_AON and arms, services, disarms or violates. -/
  | wdtaServiceArrival
  /-- KEY_CHECKIN (R283). A KEY reaches the WDT-B clock and sets its slot's SEEN bit. -/
  | keyCheckin
  /-- WDTB_PERIOD_END (R284). A WDT-B period ends; missed slots are recorded and a capture request is sent. -/
  | wdtbPeriodEnd
  /-- WDTB_EVIDENCE_CAPTURE (R284). The capture request enters CK_CORE; evidence is written and the ACTION applied. -/
  | wdtbEvidenceCapture
  /-- WDTB_ENABLE (R282). A write of WDT_B_CTL.EN = 1 starts WDT-B when it reaches its clock. -/
  | wdtbEnable (m : Master) (v : Word)
  /-- WDTB_DISABLE (R287). A write of EN = 0 stops WDT-B only after the key sequence, else sets KEYFAIL. -/
  | wdtbDisable (m : Master) (v : Word)
  /-- WDTB_LOCK (R287). Writing WDT_B_CTL.LOCK sets the lock until reset. -/
  | wdtbLock (m : Master) (v : Word)
  /-- WDT_B_KEY_WRITE (R287). A write of WDT_B_KEY advances or breaks the disable key sequence. -/
  | wdtBKeyWrite (m : Master) (v : Word)
  /-- DBG_WDT_HOLD (R293). Master 83 sets or clears the WDT-B count hold during a debug session. -/
  | dbgWdtHold (hold : Bool)
  /-- LFXO_START (R288). After 4,096 stable LFXO cycles CK_AON switches from the LFRC to the LFXO. -/
  | lfxoStart
  /-- LFXO_FAIL (R288). 1,000 CK_HK cycles without an LFXO edge switch CK_AON to the LFRC with event 50. -/
  | lfxoFail
  /-- LFRC_FAIL (R289). 1,000 CK_HK cycles without an LFRC edge write evidence and reset the device. -/
  | lfrcFail
  /-- STANDBY_DEEP_TIMEOUT (R324). A link fails to reach DEEP within 1 ms and STANDBY entry is abandoned. -/
  | standbyDeepTimeout
  /-- STANDBY_ENTRY (R324). At the next CK_AON edge S_entry is recorded and the fast clocks stop. -/
  | standbyEntry
  /-- WAKE_SOURCE (R326). An enabled wake source asserts, abandoning entry or starting the wake. -/
  | wakeSource (src : WakeSrc)
  /-- PLLC_LOCK (R327). PLL-C locks after a wake or reset. -/
  | pllcLock
  /-- STB_RELOAD (R30). At the next CK_AON edge STB is reloaded, links woken and issue resumed. -/
  | stbReload (n : Nat)
  /-- POWER_ON (R330). Supplies rise or VDDAON falls below threshold and a power-on reset occurs. -/
  | powerOn
  /-- PIN (R330). RESET_N low resets the device with cause PIN. -/
  | pin
  /-- BROWNOUT (R330). VDD below its threshold resets the device with cause BROWNOUT. -/
  | brownout
  /-- PWR_CMD_RESET (R330). PWR_CMD.RESET resets the device with cause SOFTWARE or MANAGEMENT. -/
  | pwrCmdReset (m : Master)
  /-- RESET_RELEASE (R339). Reset ends; straps are sampled, fuses read and the boot begins. -/
  | resetRelease
  /-- BOOT_OUTCOME (R335). Image verification completes and the boot outcome FULL, RESTRICTED or RECOVERY is decided. -/
  | bootOutcome
  /-- PROGRAM (R340). NVM_CMD PROGRAM writes NVM_DATA0-3 to an erased unit. -/
  | program (m : Master)
  /-- ERASE (R340). NVM_CMD ERASE erases the sector holding NVM_ADDR. -/
  | erase (m : Master)
  /-- NVM_OPERATION_DONE (R340). An NVM program or erase completes and BUSY clears. -/
  | nvmOperationDone
  /-- NVM_WPROT_WRITE (R342). Writing NVM_WPROT protects the image or record sectors until reset. -/
  | nvmWprotWrite (m : Master) (v : Word)
  /-- TRC_ENABLE (R349). A write of TRC_CTL.EN = 1 starts tracing with a SYNC group. -/
  | trcEnable (m : Master) (v : Word)
  /-- SPI_READ (R374). An SPI READ with passing CRC is executed and answered with status and data. -/
  | spiRead (addr : Word) (crc : Byte)
  /-- SPI_WRITE (R374). An SPI WRITE with passing CRC is executed and answered with status. -/
  | spiWrite (addr data : Word) (crc : Byte)
  /-- SPI_CS_RISE (R375). CS_N rises, discarding an incomplete request or dropping the rest of a response. -/
  | spiCsRise
  /-- SYS_FR_RIDX_WRITE (R364). A write of SYS_FR_RIDX sets the read index and recomputes PENDING. -/
  | sysFrRidxWrite (m : Master) (v : Word)
  /-- SYS_SEM_ACQ_READ (R365). A read of SYS_SEMi_ACQ returns the value and writes master + 1 when it was 0. -/
  | sysSemAcqRead (m : Master) (i : Fin 16)
  /-- CTX_THAW_WRITE (R82). A write of a master number to CTX_THAW clears that master's FROZEN. -/
  | ctxThawWrite (m : Master) (v : Word)
  /-- CTX_CMD_START (R84). CTX_CMD operation START moves a STOPPED context to READY. -/
  | ctxCmdStart (m : Master) (n : Byte)
  /-- CTX_CMD_STOP (R84). CTX_CMD operation STOP stops a context at its next instruction boundary. -/
  | ctxCmdStop (m : Master) (n : Byte)
  /-- CTX_CMD_RESET (R83). CTX_CMD operation RESET resets a context. -/
  | ctxCmdReset (m : Master) (n : Byte)
  /-- CTX_CMD_SET_U (R71). CTX_CMD operation 4 sets a context to U privilege. -/
  | ctxCmdSetU (m : Master) (n : Byte)
  /-- CTX_CMD_SET_S (R71). CTX_CMD operation 5 sets a context to S privilege. -/
  | ctxCmdSetS (m : Master) (n : Byte)
  /-- HNG_STR_CFG_WRITE (R43). A write of HNG_STRs_CFG.OPEN = 0 closes the stream as CRED CLOSE does. -/
  | hngStrCfgWrite (m : Master) (n : Fin 64) (v : Word)
  /-- MMIO_WRITE (R18). A write to a register without behaviour of its own, subject to privilege, windows, lock and absence checks. -/
  | mmioWrite (m : Master) (addr v : Word)
  /-- GPI_EDGE (R116). An edge on a GPI pin, of the kind EVT_SRCn_CFG.EDGE selects, raises event 23-30 with the pin level as its detail. -/
  | gpiEdge (n : Fin 8) (level : Bool)
  /-- TRAIN_1MS_REACHED (R229). 1 ms in TRAIN is reached with own READY sent and partner READY received on the first lane, and the link enters LOCK. -/
  | train1msReached (k : LinkId)
  /-- VALID_IDLE_BLOCKS (R229). After block lock, 64 valid IDLE blocks have arrived on the first lane, HL1 joins if it qualifies, and the link enters EXCHANGE. -/
  | validIdleBlocks (k : LinkId) (hl1 : Bool)
  /-- SENSOR_CLOCK_LANE (R138). With CKSRC = 1, the sensor's clock lane starts or stops, setting or withdrawing CKLOCK and CK_PIXn. -/
  | sensorClockLane (p : PortId) (present : Bool)
  /-- DEBUG_SESSION (R293). A debugger opens or ends a session on the TAP, setting WDT_DBG.ATTACHED, and at the end clearing DBG_WDT_HOLD. -/
  | debugSession (opened : Bool)
  /-- DEBUG_ACCESS_REQUEST (R25). A debug access request crosses from TCK and master 83 makes it at PD or MMIO, or the TAP returns busy. -/
  | debugAccessRequest (write : Bool) (addr data : Word)
  /-- TAP_INSTRUCTION (R393). A new TAP instruction (EXTEST, SAMPLE/PRELOAD, IDCODE, CLAMP, HIGHZ, BYPASS) is loaded and takes control of the boundary register and balls. -/
  | tapInstruction (code : BitVec 4)
  /-- SPI_UNKNOWN_COMMAND (R374). An SPI request whose command byte is neither READ nor WRITE is answered with status FORMAT after its CRC byte, and no access is made. -/
  | spiUnknownCommand (cmd : Byte) (body : List Byte) (crc : Byte)
  deriving DecidableEq, Repr

end Sys2Proof
end

