-- ==== Sys2Proof/Config.lean ====
section
/-!
DEFINITION. Values that spec/ leaves open, as constants without a body: nothing can evaluate one or prove a value of it. A function of Nat takes the model's own counter of free values.
-/
namespace Sys2Proof.Config

/-- Whether a misaligned access that is a decode violation too reports MISALIGNED (true) or DECODE (false): 03 R76 and 01 R19 give no order between the two for loads, stores and fetches (log 17). -/
opaque misalignFirst : Bool

/-- The SIZE, as a number of bytes, in the fault record of a violation that carries no access: 03 R81 gives the field no value there (log 25). -/
opaque noAccessSize : Nat → Nat

/-- The ADDR in such a record when the cause is not ILLEGAL_OP, for which 03 R81 gives 0 (log 25). -/
opaque noAccessAddr : Nat → Word

/-- Cycles that an entry stands in a crossing FIFO before the other domain reads it out, before they are brought into the bounds of the crossing table: 01 R24 leaves the phase between two clocks open (log 80). -/
opaque crossTime : Nat → Nat

/-- The next RRATE of a stream from the present one, RRTC and the lines granted in the interval: 02 R45 fixes the time constant and not the step (log 10). -/
opaque rrate : Word → Nat → Nat → Word

/-- Where the gain of a port's input at a gain code lies within the error that 17 R384 allows (log 11). -/
opaque pgaError : Nat → Nat → Nat → Nat

/-- The error of a converter's threshold at a code, by port and input, before it is brought into the limits of 17 R384 (log 11). -/
opaque adcError : Nat → Nat → Nat → Nat

/-- Where the level of an LED gate for a GCODE lies within the 2 % that 17 R389 allows (log 11). -/
opaque gateError : Nat → Nat → Nat

/-- A bit shifted into the boundary register at SAMPLE/PRELOAD, which no command names (17 R393; log 37). -/
opaque preloaded : Nat → Nat → Bool

/-- What a video input or lane that is at high impedance gives (06 R154; log 84). -/
opaque floating : Nat → BitVec 14

/-- The residual of a resistance curve's linearisation, in 0.001 degrees, which 11 R269 bounds and does not fix (log 12). -/
opaque curveResidual : Nat → Int → Int

/-- The one raw code of a 3-wire conversion, from the codes of its two phases: 11 R267 and R269 name a raw code and R265 makes two (log 20). -/
opaque code3 : Int → Int → BitVec 24

/-- Which of several failed checks SYS_BOOT.REASON names: 14 R335 gives no order (log 16). -/
opaque bootReason : List Nat → Nat

/-- Equaliser settings a lane holds after adaptation (10 R227; log 14). -/
opaque equaliser : Nat → BitVec 18

/-- Line errors a receiver meets over an interval: 10 R224, R227 and R245 count what the channel brings (log 14). -/
opaque lineErrors : Nat → Nat

/-- PRBS bits that a receiver checks in TRAIN, divided by 65,536 (10 R244): the moment at which it begins to check them is open (log 14). -/
opaque bitsChecked : Nat → Nat

/-- Scrambler state of a lane where an output begins, from the model's count of outputs and the lane: 10 R223 gives no first state, and the IDLE blocks between two outputs are not counted (log 86). -/
opaque fill : Nat → Nat → BitVec 58

/-- Whether the first block of an output goes on HL1 of a two-lane host link: the count of the stream's blocks before it is open (10 R226; log 86). -/
opaque parity : Nat → Bool

/-- The FFE request a lane sends in a TRAIN group (10 R225, R227; log 14). -/
opaque ffeRequest : Nat → Nat

/-- The PRBS31 state where a run of groups begins: 10 R227 gives no first state (log 14). -/
opaque prbsState : Nat → BitVec 31

/-- The delay of an LSYNC receiver, 3 cycles or, where true, 4 (13 R297; log 22). -/
opaque lsyncLate : Nat → Bool

/-- The line number a chain member's acquisition carries for an overlap or guard capture, which 13 R304 does not name (log 22). -/
opaque memberLine : Nat → Word

/-- A word of a checkpoint's line fields sent before any line is secured, which 13 R312 does not fill (log 23). -/
opaque noLine : Nat → Nat → Word

/-- A count of records in NVM_RECSTAT that its 8 bits do not hold (14 R346; log 16). -/
opaque recOver : Nat → Byte

/-- A byte of PD, SH or LS that a reset or an entry to STANDBY left undefined, by the count of such losses and its address (14 R325, R331; log 6). -/
opaque lostByte : Nat → Nat → Byte

/-- A byte of a program unit or sector whose operation a power loss cut short (14 R343; log 15). -/
opaque tornByte : Nat → Nat → Byte

/-- Whether a unit of a torn operation holds an uncorrectable ECC error (14 R343; log 15). -/
opaque tornEcc : Nat → Nat → Bool

/-- The level at a CMOS ball that no state of the model tells, when the boundary register takes it (17 R393; log 37). -/
opaque ballLevel : Nat → Nat → Bool

end Sys2Proof.Config
end

