-- ==== Sys2Proof/Machine/Bits.lean ====
section
/-!
DEFINITION. Bit fields, signed arithmetic and sparse tables: the helpers every later file reads and writes registers and memory with.
-/
namespace Sys2Proof.Machine

/-- Bits [lo + n - 1 : lo] of a word, as a number. -/
def fld (w : Word) (lo n : Nat) : Nat := (w.extractLsb' lo n).toNat

/-- Bit i of a word. -/
def bit (w : Word) (i : Nat) : Bool := w.getLsbD i

/-- The word holding ones in bits [lo + n - 1 : lo]. -/
def mask (lo n : Nat) : Word := BitVec.ofNat 32 (2 ^ n - 1) <<< lo

/-- A number placed at bit lo of a word. -/
def place (v lo : Nat) : Word := BitVec.ofNat 32 v <<< lo

/-- A truth value placed at bit lo of a word. -/
def flag (b : Bool) (lo : Nat) : Word := if b then place 1 lo else 0

/-- A word with bits [lo + n - 1 : lo] replaced. -/
def putFld (w : Word) (lo n v : Nat) : Word := (w &&& ~~~mask lo n) ||| place (v % 2 ^ n) lo

/-- A word with one bit replaced. -/
def putBit (w : Word) (i : Nat) (b : Bool) : Word := (w &&& ~~~mask i 1) ||| flag b i

/-- Field n of a word read as a signed number. -/
def sfld (w : Word) (lo n : Nat) : Int := (w.extractLsb' lo n).toInt

/-- Sign extension to a word, sext(imm) of 04 R92. -/
def sext {n : Nat} (x : BitVec n) : Word := x.signExtend 32

/-- The low 32 bits of an integer. -/
def iword (x : Int) : Word := BitVec.ofInt 32 x

/-- A number as a word. -/
def nword (n : Nat) : Word := BitVec.ofNat 32 n

/-- A 48-bit position read as a signed number of pu (02 R33). -/
def pos48 (hi lo : Word) : Int := (((hi.extractLsb' 0 16) ++ lo : BitVec 48)).toInt

/-- Bits [47:32] of a 48-bit quantity, as the HI registers show them. -/
def hi48 (x : Int) : Word := ((BitVec.ofInt 48 x).extractLsb' 32 16).setWidth 32

/-- An integer limited to a range. -/
def clampI (lo hi x : Int) : Int := max lo (min hi x)

/-- Rounding to nearest of a quotient, halves away from zero; d > 0. -/
def rdiv (x d : Int) : Int :=
  if x < 0 then - ((-x * 2 + d) / (2 * d)) else (x * 2 + d) / (2 * d)

/-- The sign of an integer; the sign of 0 is 0 (08 R185). -/
def sgn (x : Int) : Int := if x < 0 then -1 else if x = 0 then 0 else 1

/-- The integer square root: the largest r at most `hi` with r * r ≤ x, found in `fuel` halvings. -/
def isqrtLoop (x : Nat) : Nat → Nat → Nat → Nat
  | 0, lo, _ => lo
  | fuel + 1, lo, hi =>
    if hi ≤ lo then lo
    else
      let m := (lo + hi + 1) / 2
      if m * m ≤ x then isqrtLoop x fuel m hi else isqrtLoop x fuel lo (m - 1)

/-- The largest n below or at `hi`, at least `lo`, for which a downward closed test holds; `fuel` halvings. -/
def searchMax (ok : Nat → Bool) : Nat → Nat → Nat → Nat
  | 0, lo, _ => lo
  | fuel + 1, lo, hi =>
    if hi ≤ lo then lo
    else
      let m := (lo + hi + 1) / 2
      if ok m then searchMax ok fuel m hi else searchMax ok fuel lo (m - 1)

/-- The entry of a table at a key, or what an unlisted key holds. -/
def tabGet {α : Type} (d : α) : Tab α → Nat → α
  | [], _ => d
  | (k', v) :: t, k => if k' = k then v else tabGet d t k

/-- A table without a key. -/
def tabDel {α : Type} (k : Nat) (t : Tab α) : Tab α := t.filter (fun p => p.1 != k)

/-- A table with an entry put in its place. -/
def tabIns {α : Type} (k : Nat) (v : α) : Tab α → Tab α
  | [] => [(k, v)]
  | (k', v') :: t => if k < k' then (k, v) :: (k', v') :: t else (k', v') :: tabIns k v t

/-- A write into a table: the entry goes when the value is what an unlisted key holds. -/
def tabSet {α : Type} [DecidableEq α] (d : α) (t : Tab α) (k : Nat) (v : α) : Tab α :=
  if v = d then tabDel k t else tabIns k v (tabDel k t)

/-- The canonical form of a table whose unlisted keys hold `d k`: keys rise, and no entry equals what it would hold unlisted. -/
def tabWf {α : Type} [DecidableEq α] (d : Nat → α) : Tab α → Bool
  | [] => true
  | (k, v) :: t => (v != d k) && t.all (fun p => decide (k < p.1)) && tabWf d t

/-- A vector with one element changed. -/
def upd {α : Type} {n : Nat} (v : Vector α n) (i : Fin n) (f : α → α) : Vector α n := v.set i (f v[i])

/-- Bytes of a word, least significant first (00 R11). -/
def wordBytes (w : Word) : List Byte := [w.extractLsb' 0 8, w.extractLsb' 8 8, w.extractLsb' 16 8, w.extractLsb' 24 8]

/-- Bytes of a word, most significant first, as on the SPI bus (16 R373). -/
def wordBytesBE (w : Word) : List Byte := (wordBytes w).reverse

/-- The little-endian number that a list of bytes spells. -/
def leNat : List Byte → Nat
  | [] => 0
  | b :: bs => b.toNat + 256 * leNat bs

/-- The words that a list of bytes spells, four bytes each; a short tail is padded with zeros. -/
def wordsOfBytes : List Byte → List Word
  | [] => []
  | [a] => [nword (leNat [a])]
  | [a, b] => [nword (leNat [a, b])]
  | [a, b, c] => [nword (leNat [a, b, c])]
  | a :: b :: c :: d :: r => nword (leNat [a, b, c, d]) :: wordsOfBytes r

/-- One step of the CRC-8 of 10 R225, polynomial x^8 + x^2 + x + 1, over one bit, most significant first. -/
def crc8Bit (c : Byte) : Byte := if c.getLsbD 7 then (c <<< 1) ^^^ 0x07 else c <<< 1

/-- CRC-8 over a byte. -/
def crc8Byte (c b : Byte) : Byte := Nat.repeat crc8Bit 8 (c ^^^ b)

/-- CRC-8 over bytes, initial value 0 and no final inversion (10 R225, 16 R373). -/
def crc8 (bs : List Byte) : Byte := bs.foldl crc8Byte 0

/-- One step of the reflected CRC-32. -/
def crc32Bit (c : Word) : Word := if c.getLsbD 0 then (c >>> 1) ^^^ 0xEDB88320 else c >>> 1

/-- CRC-32 over a byte. -/
def crc32Byte (c : Word) (b : Byte) : Word := Nat.repeat crc32Bit 8 (c ^^^ b.setWidth 32)

/-- CRC-32 over bytes (10 R225). -/
def crc32 (bs : List Byte) : Word := ~~~(bs.foldl crc32Byte 0xFFFFFFFF)

/-- A function of a number that is computed before the function is entered. -/
def strict (x : Nat) (f : Nat → α) : α :=
  match x with
  | 0 => f 0
  | n + 1 => f (n + 1)

/-- A function of a list whose entries are computed one after another before the function is entered. -/
def strictEach (g : β → (γ → α) → α) : List β → (List γ → α) → α
  | [], f => f []
  | x :: xs, f => g x fun y => strictEach g xs fun ys => f (y :: ys)

end Sys2Proof.Machine
end

