-- ==== Sys2Proof/Machine/State.lean ====
section
/-!
DEFINITION. The state of the part: everything spec/ gives the machine, as plain data, the queue of waiting commands, the state after reset, and the reasons a step can stop.
-/
namespace Sys2Proof.Machine

/-- The variants of 00 R1. -/
inductive Variant where
  | yk4860
  | yk4840
  | yk4820
  deriving DecidableEq, Repr

/-- What is fixed when the part is made (00 R2, 16 R363, R366): the variant, SYS_ID.REV and fuse-view words 0-11. No command changes it. -/
structure Part where
  variant : Variant
  rev : Half
  fuses : Vector Word 12
  deriving DecidableEq, Repr

/-- Where the part stands between reset and standby (14 R323-R339). -/
inductive Phase where
  /-- Held in reset. -/
  | inReset
  /-- Reset released, PLL-C not yet locked. -/
  | clocks
  /-- The boot ROM verifies the images. -/
  | verify
  /-- Contexts and engines run (RUN and IDLE). -/
  | run
  /-- A STANDBY request was accepted and the links are going DEEP. -/
  | entering
  /-- STANDBY: the fast clocks stand still. -/
  | standby
  /-- A wake source asserted, PLL-C restarts. -/
  | waking
  /-- PLL-C has locked again, the STB reload is awaited. -/
  | reloading
  deriving DecidableEq, Repr

/-- A 66-bit block sent on a lane (10 R223): whether it is a control block, its 64 payload bits, and its bits on the line, bit 0 first: the sync header and the payload as it is sent, scrambled outside TRAIN and MEASURE. -/
structure TxBlock where
  lane : LaneId
  ctl : Bool
  payload : Block
  wire : BitVec 66
  deriving DecidableEq, Repr

/-- What the part has driven or sent, in order: the model's own record of its outputs. -/
inductive Out where
  /-- A STEP pulse of an axis, with its direction (08 R179). -/
  | step (m : AxisId) (fwd : Bool)
  /-- Phase-current magnitudes and signs of an axis (08 R180). -/
  | phase (m : AxisId) (ia ib : Nat) (sa sb : Bool)
  /-- A frame sent on a link: VC, TYPE, FSEQ, MORE and the payload bytes; the whole frame with its header, pad and CRC-32; and the blocks that carry it, SOF and EOF among them (10 R235). -/
  | frame (k : LinkId) (vc : Nat) (typ : Nat) (fseq : Nat) (more : Bool) (payload bytes : List Byte) (blocks : List TxBlock)
  /-- A common-mode detection step on a link (10 R229). -/
  | detect (k : LinkId)
  /-- A control block sent on a lane (10 R225). -/
  | block (b : TxBlock)
  /-- From here on a lane sends groups of this TRAIN block and 1,023 data blocks that continue PRBS31 from this state on (10 R227, R245). -/
  | group (n : LaneId) (train : TxBlock) (prbs : BitVec 31)
  /-- The CAP sequence that a link's first lane sends from here on, over and over (10 R231). -/
  | caps (k : LinkId) (blocks : List TxBlock)
  /-- An LSYNC pulse of a width in CK_CORE cycles (13 R297). -/
  | lsync (width : Nat)
  /-- A response byte string on MISO (16 R373). -/
  | spi (bytes : List Byte)
  /-- Data a debug access returns to the TAP, none when it returns busy (01 R25). -/
  | tap (data : Option Word)
  deriving DecidableEq, Repr

/-- An event record (05 R119). -/
structure EvRec where
  src : Fin 64
  seq : Half
  detail : Word
  ts : Pos
  flags : Half
  deriving DecidableEq, Repr

/-- A record in its source's pending buffer (05 R118): without flags, with the cycle in which it entered. -/
structure Pend where
  seq : Half
  detail : Word
  ts : Pos
  age : Nat
  /-- Destinations that lost an assertion between the previous record and this one (R118). -/
  gap : List Nat := []
  /-- The unit that asserted it, of those that share the source (R117). -/
  unit : Nat := 0
  deriving DecidableEq, Repr

/-- One event source (05 R117, R118): the sequence number of its next assertion and its pending buffer. -/
structure Src where
  seq : Half := 0
  pend : List Pend := []
  /-- Destinations that have lost an assertion since the last record entered the buffer. -/
  owed : List Nat := []
  deriving DecidableEq, Repr

/-- One of TIMER0-TIMER3 (05 R131). EN, ONESHOT and PERIOD stand in the register table. -/
structure Timer where
  count : Word := 0
  expiries : Word := 0
  deriving DecidableEq, Repr

/-- The event fabric (05 R117-R134). Destinations are numbered 0-63 for contexts and 64 for the host. -/
structure Fabric where
  src : Vector Src 64 := Vector.replicate 64 {}
  /-- Records lost, by source * 65 + destination. -/
  lost : Tab Nat := []
  /-- Destinations added to a source and not yet served, as source * 65 + destination. -/
  fresh : List Nat := []
  /-- Destinations owed TB_RESYNC. -/
  resync : List Nat := []
  /-- Events asserted in STANDBY, oldest first (R130). -/
  held : List (Fin 64 × Word) := []
  hq : List EvRec := []
  hqLost : Half := 0
  intPend : BitVec 64 := 0
  /-- Bits of EVT_INTPEND set in the cycle `intAt` (R124). -/
  intNew : BitVec 64 := 0
  intAt : Nat := 0
  /-- Routing and CFG registers written in the cycle `cfgAt`, with their values before it (R121). -/
  cfgWas : List (Nat × Word) := []
  cfgAt : Option Nat := none
  timer : Vector Timer 4 := Vector.replicate 4 {}
  /-- Wakes delivered so far: the order in which the wake ports serve them (R128). -/
  wakes : Nat := 0
  deriving DecidableEq, Repr

/-- The run states of a context (03 R64). -/
inductive Run where
  | stopped
  | ready
  | waiting
  deriving DecidableEq, Repr

/-- A store waiting in a context's buffer (03 R85): address, size in bytes and data. -/
structure SbEntry where
  addr : Word
  size : Nat
  data : Word
  deriving DecidableEq, Repr

/-- A load between issue and completion (03 R66, R86): its access, its register, its instruction word, and the data once its port has granted it. -/
structure Load where
  addr : Word
  size : Nat
  gd : Reg
  insn : Word
  data : Option Word
  deriving DecidableEq, Repr

/-- A window's two registers (03 R73). -/
structure Window where
  base : Word := 0
  limit : Word := 0
  deriving DecidableEq, Repr

/-- What waits for a context's next instruction boundary (03 R71, R83, R84, 12 R285). -/
structure Boundary where
  stop : Bool := false
  reset : Bool := false
  priv : Option Bool := none
  /-- The Tumbler's FREEZE action. -/
  freeze : Bool := false
  /-- A service write has arrived before the window (12 R280). -/
  owner : Bool := false
  deriving DecidableEq, Repr

/-- A hardware context (03 "Context state", R91). -/
structure Ctx where
  g : Vector Word 16 := Vector.replicate 16 0
  pc : Word := 0
  z : Bool := false
  n : Bool := false
  c : Bool := false
  v : Bool := false
  abs : Bool := false
  /-- S privilege. -/
  priv : Bool := false
  frozen : Bool := false
  win : Vector Window 4 := Vector.replicate 4 {}
  emask : BitVec 64 := 0
  queue : List EvRec := []
  wrec : Vector Word 4 := Vector.replicate 4 0
  /-- A record delivered to the wake latch and not yet served by the wake port, with its order. -/
  wake : Option (EvRec × Nat) := none
  sbuf : List SbEntry := []
  /-- The cycle since which the oldest store of the buffer waits at its port (01 R17). -/
  sbAt : Nat := 0
  load : Option Load := none
  run : Run := .stopped
  /-- The word of an instruction that has issued and waits for the drain or the port it needs (03 R87, 04 R97, R400). -/
  held : Option Word := none
  /-- The fetch of the next instruction has been granted ahead of its issue (03 R66). -/
  fetched : Bool := false
  /-- The granted fetch met an uncorrectable error. -/
  fetchBad : Bool := false
  /-- The data access that a held instruction makes at its port, a write or not and its address (01 R17); its checks were made at issue (03 R74). -/
  asks : Option (Bool × Word) := none
  /-- The context was frozen at its wake or between the wake and the wake port (03 R68). -/
  cold : Bool := false
  /-- Instructions left of the urgency of R68. -/
  urgent : Nat := 0
  /-- The first instruction after a wake has not issued yet (05 R128). -/
  firstDue : Bool := false
  wokeAt : Nat := 0
  lastIssue : Nat := 0
  issuableSince : Nat := 0
  /-- The cycle since which no full crossing has kept the context's next instruction back (04 R97). -/
  roomSince : Nat := 0
  lastCause : Byte := 0
  entry : Word := 0
  mirror : Word := 0
  due : Boundary := {}
  /-- A CTX RESET waits for the store buffer to drain (03 R83). -/
  resetting : Bool := false
  deriving DecidableEq, Repr

/-- An ECC error standing in a word (01 R22, R398): a single-bit one, with whether a read has reported it, or an uncorrectable one. -/
inductive EccMark where
  | single (reported : Bool)
  | double
  deriving DecidableEq, Repr

/-- What a request at a target port is (01 R17, 03 R66): a context's load, the oldest store of its buffer, its fetch, the access of an instruction that waits for its port, a burst of another master, or a beat that an engine has put out. -/
inductive ReqKind where
  | load
  | store
  | fetch
  | access
  | burst
  | late
  deriving DecidableEq, Repr

/-- A burst request waiting at a target port (01 R17): who presents it and since which cycle. -/
structure PortReq where
  port : Port
  who : Master
  age : Nat
  deriving DecidableEq, Repr

/-- A write of one beat that an engine has put out and its port has not granted yet (01 R17): a trace packet of master 83, or the w7 of a channel that has been stopped. -/
structure LateWrite where
  who : Master
  port : Port
  addr : Nat
  bytes : List Byte
  age : Nat
  deriving DecidableEq, Repr

/-- The SYS block's own bits and counts (16 R363, R364). -/
structure Sys where
  absent : Bool := false
  mgmtErr : Bool := false
  outcome : BitVec 2 := 0
  mismatch : BitVec 5 := 0
  reason : BitVec 3 := 0
  /-- OWNID of each valid image, 0 when none (10 R231, 16 R370). -/
  supId : Word := 0
  lnkId : Word := 0
  frW : BitVec 6 := 0
  frSeq : Half := 0
  frR : BitVec 6 := 0
  frPend : Nat := 0
  frOver : Bool := false
  /-- The cycle of the last write of SYS_FR_RIDX, and RIDX and PENDING before it (R364). -/
  ridxAt : Option Nat := none
  ridxWas : BitVec 6 × Nat := (0, 0)
  /-- Records written in the cycle `frAt`, in ring order: the master and w0 to w6 (03 R79). -/
  frNow : List (Nat × List Word) := []
  frAt : Nat := 0
  spiCrc : Byte := 0
  discarded : Byte := 0
  sem : Vector Word 16 := Vector.replicate 16 0
  deriving DecidableEq, Repr

/-- States of the Hinge (02 state encodings). -/
inductive HState where
  | off
  | run
  | freezing
  | frozenWait
  | reverse
  | rerun
  | overlap
  | guard
  deriving DecidableEq, Repr

/-- Reasons of a freeze (02 REASON encodings). -/
inductive Reason where
  | none
  | credit
  | stall
  | soft
  | takeover
  deriving DecidableEq, Repr

/-- A stream's configuration and pacing book (02 R39, R63). -/
structure Stream where
  opened : Bool := false
  pace : Bool := false
  owner : BitVec 6 := 0
  gap : Half := 0
  /-- Lines abandoned that the next opened line adds to its gap (09 R217). -/
  gapAdd : Half := 0
  /-- Gap counts that fired lines carry until they are delivered (02 R40). -/
  gapOut : Half := 0
  granted : Word := 0
  delivered : Word := 0
  avail : Word := 0
  rrate : Word := 0
  /-- Lines granted since the last averaging step. -/
  recent : Nat := 0
  /-- Credits granted in the cycle `newAt` (R42). -/
  newIn : Nat := 0
  newAt : Nat := 0
  /-- GRANTED and DELIVERED as they stood when a line was secured, for the lines of which a checkpoint may still be sent (13 R312, R319): line, GRANTED, DELIVERED. The stream's opening or closing ends what they told. -/
  after : List (Word × Word × Word) := []
  deriving DecidableEq, Repr

/-- Where the correlation of a seam stands (02 R57-R59, 07 R171-R175). -/
inductive CorrStage where
  | idle
  | running
  | loaded
  deriving DecidableEq, Repr

/-- The Hinge (02 R33-R63). Plain registers stand in the register table. -/
structure Hinge where
  st : HState := .off
  reason : Reason := .none
  seamCnt : Half := 0
  keff : Nat := 0
  late : Bool := false
  crovf : Bool := false
  weakSeen : Bool := false
  noPin : Bool := false
  origin : Int := 0
  next : Int := 0
  last : Int := 0
  lineNo : Word := 0
  vtgt : Word := 0
  voff : Byte := 0
  hoff : Byte := 0
  score : Byte := 0
  weak : Bool := false
  valid : Bool := false
  lateCnt : Word := 0
  streams : Vector Stream 64 := Vector.replicate 64 {}
  /-- Numbered lines fired since LINE START. -/
  fired : Nat := 0
  kp : Nat := 0
  lLast : Word := 0
  pLast : Int := 0
  /-- A SEAM RESUME has been executed since the freeze. -/
  resumed : Bool := false
  /-- Event 13 is owed after an event 12 (R55). -/
  resumeOwed : Bool := false
  /-- Event 11 is armed (R47). -/
  lowArmed : Bool := true
  /-- The next numbered line is the first after a seam. -/
  newLine : Bool := false
  /-- The next numbered line is the first after a takeover (13 R318). -/
  dup : Bool := false
  /-- Overlap and guard captures fired since the restart. -/
  ovl : Nat := 0
  ovlDone : Nat := 0
  grd : Nat := 0
  corr : CorrStage := .idle
  pRev : Int := 0
  /-- What M0 has reached from the next grid position on, in order: a position, and the cycle in which it and what lies between it and the entry before it was reached (R35). -/
  reached : List (Int × Nat) := []
  /-- Lines from the next one on for which event 10 has been raised (09 R200). -/
  fullRaised : Nat := 0
  /-- The cycle of the last fire: the comparator fires one line in a cycle (R33). -/
  firedAt : Option Nat := none
  /-- A fire has taken C to zero in this cycle: the line (R42, R48). -/
  stopDue : Option Word := none
  /-- LINE START or LINE STOP waits for the next interval to take M0 over or give it back (08 R189). -/
  takeM0 : Bool := false
  /-- M0 is under the Hinge. -/
  ownsM0 : Bool := false
  /-- LINE START found a program move on M0, which ends when the Hinge takes M0 over. -/
  endM0 : Bool := false
  /-- The move to P_rev has ended. -/
  revDone : Bool := false
  deriving DecidableEq, Repr

/-- What a program has commanded of an axis (08 R190). -/
inductive MoveCmd where
  | none
  | pos (x : Int)
  | vel (u : Int)
  | stop
  deriving DecidableEq, Repr

/-- A motion axis (08 R177-R196). p and v carry 16 fractional bits, a carries 24. -/
structure Axis where
  stalled : Bool := false
  hold : Bool := false
  dirBack : Bool := false
  stStall : Bool := false
  encErr : Bool := false
  vclip : Bool := false
  opRej : Bool := false
  p : Int := 0
  v : Int := 0
  a : Int := 0
  encCnt : Word := 0
  idxCnt : Word := 0
  encOrg : Int := 0
  encA : Bool := false
  encB : Bool := false
  lastCount : Nat := 0
  stepCnt : Word := 0
  /-- Microstep index after the last emitted step. -/
  stepIdx : Int := 0
  /-- A step has been emitted since the last rest. -/
  stepped : Bool := false
  /-- The cycle of the last emitted step, and its direction (R179). -/
  stepAt : Option Nat := none
  stepBack : Bool := false
  /-- The cycle from which DIR has that level (R179). -/
  dirAt : Option Nat := none
  restP : Int := 0
  restSince : Nat := 0
  /-- Backlash offset, with 16 fractional bits, and the value a take-up moves it to. -/
  blOff : Int := 0
  takeUp : Option Int := none
  /-- The program's target in progress, and the one accepted for the next interval or kept while the axis is held (R190, R191). Positions carry 16 fractional bits. -/
  cmd : MoveCmd := .none
  next : Option MoveCmd := none
  /-- The interval in progress (R188): the cycle of its boundary, p at its start and the travel over it, BLOFF at its start and its signed rate. -/
  segAt : Nat := 0
  pStart : Int := 0
  pMove : Int := 0
  blStart : Int := 0
  blRate : Int := 0
  /-- The axis stood at rest when last judged. -/
  wasRest : Bool := true
  dacc : Word := 0
  deriving DecidableEq, Repr

/-- Stages of an HK conversion (11 R258). -/
inductive ConvStage where
  | settle
  | integrate
  | comp
  deriving DecidableEq, Repr

/-- An HK conversion in progress (11 R255-R268): its entry, the configuration sampled at its start, the urgent slot it serves, its 3-wire phase, whether it is the repeat of R268, its ICODE and what has been measured. -/
structure Conv where
  entry : HkEnt
  cfg : Word
  urgent : Option (Fin 2)
  phaseB : Bool
  again : Bool
  icode : Nat
  stage : ConvStage
  refFault : Bool
  meas : List HkMeas
  /-- Die temperature at the end of the integration (R270). -/
  cj : Int
  deriving DecidableEq, Repr

/-- HK sequence states (11 R256). -/
inductive HkSeq where
  | idle
  | run
  | stopping
  | wait
  deriving DecidableEq, Repr

/-- Limit zones (11 R272). -/
inductive Zone where
  | inside
  | below
  | above
  deriving DecidableEq, Repr

/-- The housekeeping front end (11 R251-R275). -/
structure Hk where
  seq : HkSeq := .idle
  cfgErr : Bool := false
  overrun : Bool := false
  abandon : Bool := false
  pass : Word := 0
  drop : Half := 0
  aoutCode : Nat := 0
  res : Vector Word 16 := Vector.replicate 16 0
  aux : Vector Word 16 := Vector.replicate 16 0
  zone : Vector Zone 16 := Vector.replicate 16 .inside
  conv : Option Conv := none
  /-- Urgent requests that hold their slot (R261). -/
  slot : Vector (Option HkEnt) 2 := Vector.replicate 2 none
  /-- Slots whose request still crosses into CK_HK, oldest first. -/
  crossing : List (Fin 2) := []
  /-- The sequence entry to convert or restart next, and whether a conversion of it has been abandoned and not restarted (R262). -/
  at_ : Nat := 0
  redo : Bool := false
  /-- HK_PERIOD has elapsed since the start of the pass in progress. -/
  due : Bool := false
  lastRef : Option Nat := none
  refSettled : Bool := false
  /-- Results kept in CK_HK during STANDBY, and after the wake until their crossing takes them (R274, 01 R25). -/
  kept : Vector (Option (Word × Word)) 16 := Vector.replicate 16 none
  /-- Die temperatures that wait for room in the crossing to the shading filter, oldest first (01 R25). -/
  dieHeld : List Int := []
  /-- Result pairs changed in the cycle wasAt, as they stood at its start, and the entries published in it (R260). -/
  was : Tab (Word × Word) := []
  wasAt : Nat := 0
  pubs : List HkEnt := []
  deriving DecidableEq, Repr

/-- An LED channel's live state (06 R151-R153). CTL, START and WIDTH stand in the register table. -/
structure Led where
  gcode : Nat := 0
  meas : Nat := 0
  headroom : Bool := false
  trunc : Bool := false
  shortp : Bool := false
  sat : Bool := false
  /-- The gate is driven. -/
  on : Bool := false
  /-- A pulse is due in the present period, whose trigger was in the cycle `trigAt`. -/
  armed : Bool := false
  trigAt : Nat := 0
  /-- The sample of the present pulse. -/
  sampled : Option Nat := none
  deriving DecidableEq, Repr

/-- A sensor port (06 R135-R155). CTL, WIDTH, PLLP, AFE, OFFS, DSYNC, LTMO and the edge tables stand in the register table. -/
structure PortSt where
  actBank : Fin 2 := 0
  arm : Option (Fin 2) := none
  /-- A disable waits for the line boundary (R148). -/
  disPend : Bool := false
  ckLock : Bool := false
  /-- The sensor's clock lane runs. -/
  ckLane : Bool := false
  laneLock : BitVec 2 := 0
  ovr : Bool := false
  short : Bool := false
  edgeErr : Bool := false
  wact : Bool := false
  ckErr : Bool := false
  solMiss : Bool := false
  lineCnt : Word := 0
  /-- Levels of SP, CP, RS and GS0-GS5. -/
  outs : BitVec 9 := 0
  /-- The lanes search for their start-of-line code: SP has risen in this period. -/
  search : Bool := false
  /-- Lanes that have found their start-of-line code since the last SP edge, and in this period. -/
  sol : BitVec 2 := 0
  found : BitVec 2 := 0
  /-- Pixels in the port FIFO, oldest first: the code, plus 2^14 for input B or lane 1, plus 2^15 for a dropped pixel. -/
  fifo : List Nat := []
  /-- The period runs on CK_PIX. -/
  running : Bool := false
  /-- The present period has ended for this port. -/
  ended : Bool := false
  /-- Pixel clocks run in the present period. -/
  clk : Nat := 0
  /-- The edge engine (R139): the next entry, the position of the last one in eighths of a pixel clock, and whether the walk has ended. -/
  ent : Nat := 0
  pos : Nat := 0
  walked : Bool := false
  /-- The VALID window is open; a change due at a later whole clock; the clock at which the period ends. -/
  win : Bool := false
  winNext : Option (Nat × Bool) := none
  lendAt : Option Nat := none
  /-- Pixels of each input or lane that the pipeline has taken in the present period. -/
  got : Vector Nat 2 := Vector.replicate 2 0
  /-- The overrun event of this line has been raised. -/
  ovrRaised : Bool := false
  deriving DecidableEq, Repr

/-- What a capture is (02 R37, R57). -/
inductive Capture where
  | numbered
  | overlap
  | guard
  deriving DecidableEq, Repr

/-- The acquisition in progress or last run (06 R143-R149, 07 R161). -/
structure Acq where
  line : Word := 0
  kind : Capture := .numbered
  slot : Option (Fin 256) := none
  period : Nat := 0
  periods : Nat := 0
  started : Nat := 0
  /-- Ports that take part in the line, in order. -/
  ports : List PortId := []
  /-- Every enabled port has ended the last period. -/
  done : Bool := true
  /-- The capture was fired before the last LINE START (07 R169). -/
  old : Bool := false
  /-- Latched shading temperature, lower anchor, weight, and whether anchor 0 alone serves. -/
  shT : Int := 0
  shI : Nat := 0
  shW : Nat := 0
  voff : Int := 0
  hoff : Int := 0
  /-- Pixels of the capture on their way (07 "Stages"), by plane index * 2^16 + pixel: gain outputs, clipped values, and main output and tap. -/
  gains : Tab Int := []
  clips : Tab Int := []
  outs : Tab (Nat × Nat) := []
  deriving DecidableEq, Repr

/-- The pixel pipeline and the correlator's results (07 R156-R176). -/
structure Pix where
  tstale : Bool := false
  anchErr : Bool := false
  defOrd : Bool := false
  defRun : Bool := false
  vclamp : Bool := false
  cwin : Bool := false
  shEcc : Bool := false
  temp : Int := 0
  tvalid : Bool := false
  filt : Int := 0
  /-- The cycle of the last update, and TF and TVALID at its start (07 R161). -/
  tempWas : Option (Nat × Int × Bool) := none
  /-- The next update loads the filter (07 R160). -/
  reload : Bool := true
  shStat : Word := 0
  cres : Word := 0
  ctime : Word := 0
  corrAt : Nat := 0
  /-- The correlator's reads: since when the next burst asks, how many beats have been read, and whether a freeze of master 84 has ended the run without a result (01 R17, 03 R78). -/
  corrAsk : Nat := 0
  corrGot : Nat := 0
  corrFail : Bool := false
  /-- Clipped planes of the captures fired before the present one, newest first (R169). -/
  hist : List (List (List Int)) := []
  deriving DecidableEq, Repr

/-- Slot states (09 R199). -/
inductive SlotState where
  | free
  | fill
  | full
  | drain
  | pinned
  deriving DecidableEq, Repr

/-- What the line header takes from the fire cycle (10 R241, R242). -/
structure LineHdr where
  seam : Bool := false
  weak : Bool := false
  dup : Bool := false
  late : Bool := false
  pos : Int := 0
  seamCnt : Half := 0
  ts : Pos := 0
  voff : Byte := 0
  hoff : Byte := 0
  score : Byte := 0
  /-- Open streams that skipped the line at its fire (R39). -/
  skipped : BitVec 64 := 0
  /-- Streams that committed a credit for the line at its fire (R39). -/
  committed : BitVec 64 := 0
  /-- Gap counts taken at the fire, by stream. -/
  gaps : Tab Nat := []
  deriving DecidableEq, Repr

/-- A line-store slot (09 R199-R203). -/
structure Slot where
  st : SlotState := .free
  kind : Capture := .numbered
  line : Word := 0
  hold : BitVec 17 := 0
  /-- The writer has finished the line, in the cycle `wroteAt`. -/
  written : Bool := false
  wroteAt : Nat := 0
  /-- Chain addresses whose SEGEND has arrived (13 R308). -/
  segs : Byte := 0
  /-- Plane width of the line, in pixels (07 R171). -/
  width : Nat := 0
  /-- The line belongs to a run before the present one (R401). -/
  old : Bool := false
  hdr : LineHdr := {}
  deriving DecidableEq, Repr

/-- A slot geometry (09 R197). -/
structure Geom where
  nslot : Nat := 0
  size4k : Nat := 0
  pstr : Nat := 0
  tstr : Nat := 0
  deriving DecidableEq, Repr

/-- The line store (09 R197-R204, R401). -/
structure Ls where
  geom : Geom := {}
  wait : Option Geom := none
  relErr : Bool := false
  lowArmed : Bool := true
  slots : Vector Slot 256 := Vector.replicate 256 {}
  deriving DecidableEq, Repr

/-- DMA channel states (09 DMA_CHn_STATE). -/
inductive ChanState where
  | idle
  | fetch
  | run
  | tailWait
  | lineWait
  deriving DecidableEq, Repr

/-- A DMA channel (09 R205-R219). Its registers stand in the register table. -/
structure Chan where
  st : ChanState := .idle
  ringLat : Bool := false
  chain : Bool := false
  /-- Slots of the lines received and not yet bound, in line order. -/
  list : List (Fin 256) := []
  bound : Option (Fin 256) := none
  cur : Word := 0
  /-- The next descriptor to read. -/
  nextAt : Word := 0
  /-- The transfer in hand: descriptor words w0-w6. -/
  desc : Option (Vector Word 7) := none
  done : Nat := 0
  halfRaised : Bool := false
  /-- Destination bytes read and converted, not yet accepted by the destination. -/
  buf : List Byte := []
  /-- Source beats that have been read and hold bytes of elements still to be converted, by address (09 R210). -/
  seen : List (Nat × List Byte) := []
  tailIdle : Bool := false
  cut : Bool := false
  abandon : Bool := false
  /-- GO = 0 was written (R213). -/
  goClear : Bool := false
  /-- The wait of TAILWAIT is over and the re-read is due. -/
  reread : Bool := false
  /-- IDLE after TAILIDLE: a ring re-reads the last tail (R216). -/
  atTail : Bool := false
  /-- The slot of a bound line that the framer has closed, and of which it takes no more bytes (13 R320). -/
  shut : Option (Fin 256) := none
  /-- The cycle at which the channel's present request was presented (01 R17), and, by port number, the cycle from which the share limit lets its next request at a port through (R211). -/
  askAt : Nat := 0
  readyAt : Tab Nat := []
  /-- Beats of the write burst in progress that its port has not accepted yet (R210, R217). -/
  burst : Nat := 0
  /-- ECC words of the read burst that was presented when the channel froze: accesses in flight (03 R80). -/
  flight : List Nat := []
  deriving DecidableEq, Repr

/-- Link states (10 R229). -/
inductive LinkState where
  | disabled
  | detect
  | train
  | lock
  | exchange
  | active
  | deep
  | fault
  deriving DecidableEq, Repr

/-- The link-credit book of one VC of one link (10 R237, R238) with its frame counters. -/
structure VcBook where
  avail : Nat := 0
  partner : Nat := 0
  held : Nat := 0
  own : Nat := 0
  /-- Last CUM received from the partner, own CUM of freed units, and the CUM last reported. -/
  cumIn : Half := 0
  cumOut : Half := 0
  cumRep : Half := 0
  fseqOut : Half := 0
  fseqIn : Option Half := none
  deriving DecidableEq, Repr

/-- A Kentas link (10 R228-R249). KL_LKk_CFG stands in the register table. -/
structure Link where
  st : LinkState := .disabled
  resuming : Bool := false
  /-- The cycle in which it began to resume (15 R362). -/
  resumeAt : Nat := 0
  limited : Bool := false
  rate : Nat := 0
  two : Bool := false
  skewErr : Bool := false
  ladder : Nat := 0
  pver : Word := 0
  pmax : Word := 0
  psup : Word := 0
  plnk : Word := 0
  maxPay : Nat := 0
  crcErr : Word := 0
  frmErr : Word := 0
  crOvr : Word := 0
  meas : Nat := 0
  /-- Cycle at which MEASURE began. -/
  measAt : Nat := 0
  /-- MEASURE runs on the link. -/
  measuring : Bool := false
  /-- A valid CAP sequence of the partner has arrived: RXOK is sent. -/
  rxok : Bool := false
  /-- A DEEP REQ has been sent and is not yet answered. -/
  deepReq : Bool := false
  /-- A DEEP command waits until no sendable frame is staged. -/
  deepWant : Bool := false
  errAt : Option Nat := none
  books : Vector VcBook 65 := Vector.replicate 65 {}
  /-- VCs with unreported frees, oldest first (R239). -/
  unrep : List (Fin 65) := []
  /-- Units whose freeing waits until the books move again after DEEP or MEASURE (R237). -/
  parked : List (Fin 65 × Nat) := []
  /-- WAKE is sent once PLL-L has locked (R247). -/
  wakeDue : Bool := false
  /-- The next block of a two-lane stream goes on HL1 (10 R226). -/
  turn : Bool := false
  deriving DecidableEq, Repr

/-- A lane (10 R224-R227, R244). -/
structure Lane where
  detected : Bool := false
  signal : Bool := false
  blockLock : Bool := false
  adapted : Bool := false
  ready : Bool := false
  partnerReady : Bool := false
  prbsErr : Word := 0
  hdrErr : Word := 0
  cbErr : Word := 0
  prbsBits : Word := 0
  /-- While the lane measures: the bits checked, in units of 65,536, that its counter reaches at the end (R244, R245). -/
  prbsTo : Nat := 0
  eq : Word := 0
  alignOut : Half := 0
  alignIn : Option Half := none
  alignAt : Nat := 0
  /-- A WAKE or IDLE of the partner has arrived since the wake. -/
  woke : Bool := false
  /-- Cycle of the last CREDIT block sent on the lane (10 R239). -/
  lastCredit : Option Nat := none
  /-- Scrambler state after the last block given out on the lane, and the time by which that has been sent, in 0.1 ns of CK_CORE (10 R221, R223). -/
  scr : BitVec 58 := 0
  busy : Nat := 0
  deriving DecidableEq, Repr

/-- A checkpoint or heartbeat sent (13 R312): its CPSEQ and line, whether it is a full one, and whether it follows a secured line. -/
structure CpTag where
  seq : Word
  line : Word
  full : Bool
  sec : Bool
  /-- The TPEER its pitch and speed give (13 R311). -/
  tpeer : Nat
  deriving DecidableEq, Repr

/-- A frame in the staging buffer: its link, VC, TYPE, chain addresses, payload, whether another of its line follows, since when it waits, and the line it belongs to. -/
structure Staged where
  link : LinkId
  vc : Fin 65
  typ : Nat
  srcDst : Nat
  payload : List Byte
  more : Bool
  age : Nat
  line : Option Word
  /-- An answer of the management executor (16 R372). -/
  answer : Bool
  /-- Units of the receiving link that a forwarded frame still holds (13 R301). -/
  rx : Option (LinkId × Nat) := none
  /-- The checkpoint a CHECKPOINT frame belongs to. -/
  cp : Option CpTag := none
  deriving DecidableEq, Repr

/-- A line open at the framer for a stream (10 R240, R241) or for the cascade window (13 R307). -/
structure OpenLine where
  chan : DmaId
  slot : Fin 256
  line : Word
  hdr : LineHdr
  bytes : List Byte
  fragOff : Nat
  gap : Nat
  deriving DecidableEq, Repr

/-- A line that ended with no byte at the framer while another channel's line of its stream was open: its one frame waits for that line to close (10 R240-R242). -/
structure LaterLine where
  stream : Fin 64
  line : Word
  hdr : LineHdr
  aborted : Bool
  deriving DecidableEq, Repr

/-- A line on its way to being secured (13 R312): its number, grid and encoder position, LSYNC count, and the streams whose last frame has not been returned. -/
structure LineOut where
  line : Word
  grid : Int
  enc : Int
  lsync : Half
  need : BitVec 64
  /-- Streams on which the line has been delivered. -/
  del : BitVec 64 := 0
  deriving DecidableEq, Repr

/-- A data frame sent on link 0 whose units have not all been returned. -/
structure SentFrame where
  vc : Fin 65
  units : Nat
  line : Word
  last : Bool
  deriving DecidableEq, Repr

/-- A message received on VC 64 that waits for the executor (10 R243, 16 R367). -/
structure RxMsg where
  link : LinkId
  mtype : Nat
  tag : Word
  body : List Word
  units : Nat
  /-- The cycle of its arrival: the age of the accesses it asks for (01 R17). -/
  age : Nat := 0
  /-- Payload of a CASCADE frame (mtype 0x103) or a complete checkpoint (mtype 0x104). -/
  raw : List Byte := []
  /-- Data bytes of a SLOTWRITE, or words of a request, that are done (03 R78, 16 R367). -/
  did : Nat := 0
  /-- The first failing word of a request in progress: its status and address. -/
  fail : Nat × Word := (0, 0)
  /-- Words that an MREAD in progress has read. -/
  got : List Word := []
  /-- The cycle since which its next access asks, once it has made one (01 R17). -/
  nextAt : Nat := 0
  deriving DecidableEq, Repr

/-- The framer and the links together (10 R240-R249). -/
structure Kl where
  verRange : Word := 0
  links : Vector Link 3 := Vector.replicate 3 {}
  lanes : Vector Lane 4 := Vector.replicate 4 {}
  /-- PLL-L is locked. -/
  pll : Bool := false
  staged : List Staged := []
  /-- Open lines by stream; 64 is the cascade window. -/
  opened : Tab OpenLine := []
  later : List LaterLine := []
  /-- MGMT messages that wait for the executor or the chain logic, oldest first. -/
  inbox : List RxMsg := []
  /-- CASCADE frames in cascade ingress's reserved buffer, and whole checkpoints for mirror ingress, oldest first (10 R236, 13 R301). -/
  casIn : List RxMsg := []
  mirIn : List RxMsg := []
  /-- The LNK body in the lane microcode store; none for the ROM default (14 R336). -/
  micro : List Byte := []
  lineOut : List LineOut := []
  sent : List SentFrame := []
  secured : List LineOut := []
  deriving DecidableEq, Repr

/-- The watchdogs and the clock monitor (12). WDT_B_PERIOD and WDT_B_SLOTs stand in the register table. -/
structure Wdt where
  aRun : Bool := false
  aCount : Nat := 0
  aOpen : Bool := false
  aEarly : Bool := false
  seqArm : Bool := false
  seqErr : Bool := false
  /-- Service writes on their way to CK_AON: value, PC and word of the STW (R280). -/
  svc : List (Byte × Word × Word) := []
  bRun : Bool := false
  bLock : Bool := false
  bKeyAt : Option Nat := none
  bKeyOk : Bool := false
  bKeyFail : Bool := false
  bHold : Bool := false
  bMissed : Byte := 0
  bSeen : Byte := 0
  bCount : Nat := 0
  /-- KEY check-ins on their way to the WDT-B clock. -/
  keys : List (Fin 8) := []
  lastKey : Vector (Option Pos) 8 := Vector.replicate 8 none
  /-- Capture requests on their way to CK_CORE, oldest first. -/
  captures : List Byte := []
  evPc : Vector Word 8 := Vector.replicate 8 0
  evTs : Vector Pos 8 := Vector.replicate 8 0
  evNone : Vector Bool 8 := Vector.replicate 8 false
  lfxoFail : Bool := false
  onLfrc : Bool := true
  attached : Bool := false
  /-- Phases of CK_AON and CK_HK against CK_CORE. -/
  aonAcc : Nat := 0
  hkAcc : Nat := 0
  deriving DecidableEq, Repr

/-- States of a redundant pair (13 R310). -/
inductive PairState where
  | off
  | activeSolo
  | active
  | standby
  | takeover
  | deposed
  deriving DecidableEq, Repr

/-- Chains and pairs (13 R295-R321). -/
structure Cas where
  strap : BitVec 2 := 1
  addr : BitVec 4 := 0xF
  chnO : Bool := false
  len : Nat := 0
  enumerating : Bool := false
  enumDone : Bool := false
  /-- A forwarded ASSIGN's 10 ms timer runs. -/
  timer : Bool := false
  cfgErr : Bool := false
  segTmo : Bool := false
  segLost : Bool := false
  forced : Bool := false
  ctxBusy : Bool := false
  enumErr : Bool := false
  tbOfs : Int := 0
  tbValid : Bool := false
  pair : PairState := .off
  peerLive : Bool := false
  forceO : Bool := false
  cpSeq : Word := 0
  cpLine : Word := 0
  tpeer : Nat := 200
  /-- The cycle from which the peer timer counts (13 R310, 15 R362). -/
  heardAt : Nat := 0
  lsyncCnt : Half := 0
  /-- STB and counted M0 position latched at LSYNC pulses, by pulse count. -/
  lsStb : Tab Pos := []
  lsEnc : Tab Int := []
  /-- A member holds a CHAIN_START. -/
  joined : Bool := false
  nextLine : Word := 0
  mPstr : Nat := 0
  seg : Word := 0
  seamSet : Option (Byte × Byte) := none
  /-- CHAIN_START has been sent for this run. -/
  sentStart : Bool := false
  nextCp : Word := 0
  cp : Option (List Byte) := none
  cpHalf : Bool := false
  /-- CHECKPOINT frames sent on CD and not returned, oldest first: units, checkpoint, and whether it is its last frame. Other VC 64 frames stand among them with a tag of their own (CPSEQ and line 0, neither full nor secured). -/
  cpOut : List (Nat × CpTag × Bool) := []
  /-- The last secured line for which a checkpoint was sent, or that was secured in another pair state than ACTIVE. -/
  cpLast : Option LineOut := none
  /-- A checkpoint of which frames are still to come: its bytes, the units it holds and the FSEQ of the next frame. -/
  cpPart : Option (List Byte × Nat × Half) := none
  /-- A frame is missing or was discarded since the last one of a checkpoint: the frames in hand may lack their first ones (R313, 03 R78). -/
  cpSkip : Bool := false
  /-- The load of a takeover is complete. -/
  loaded : Bool := false
  pLine : Word := 0
  /-- LHOLD_N was pulled low when STANDBY was entered, where it keeps its level (14 R325). -/
  lholdKept : Bool := false
  deriving DecidableEq, Repr

/-- An NVM operation in progress (14 R340). -/
inductive NvmOp where
  | program (unit : Nat) (data : Vector Word 4)
  | erase (sector : Nat)
  deriving DecidableEq, Repr

/-- Power, NVM and trace (14). -/
structure Pwr where
  refuse : Nat := 0
  abandoned : Bool := false
  gated : Vector Bool 2 := Vector.replicate 2 false
  wakeSrc : Word := 0
  slept : Word := 0
  rstCause : Byte := 1
  dieTemp : Half := 0
  supOut : BitVec 4 := 0
  supLatch : BitVec 4 := 0
  tempArmed : Bool := true
  sEntry : Pos := 0
  frac : Nat := 0
  /-- CK_AON edges counted since S_entry (01 R30). -/
  aonEdges : Nat := 0
  /-- The AON tick of the wake, as its count of edges (14 R326). -/
  wakeTick : Nat := 0
  /-- The SUSPEND packet of a STANDBY entry waits for room (14 R351). -/
  suspDue : Bool := false
  /-- Links asked for DEEP that have not answered. -/
  deepWait : List LinkId := []
  nvmOp : Option NvmOp := none
  nvmDone : Bool := false
  notBlank : Bool := false
  prot : Bool := false
  busyRej : Bool := false
  wprot : BitVec 2 := 0
  recStat : Word := 0
  tWptr : Nat := 0
  tFull : Bool := false
  tWrapped : Bool := false
  tLost : Word := 0
  /-- Packets lost and not yet reported by a GAP. -/
  tOwed : Nat := 0
  tSince : Nat := 0
  tFifo : List (Vector Word 4) := []
  deriving DecidableEq, Repr

/-- Levels of input balls (13 R295, 17 R376). -/
structure Pins where
  gpi : Byte := 0
  lholdN : Bool := true
  chnI : Bool := false
  role : BitVec 2 := 1
  forceI : Bool := false
  deriving DecidableEq, Repr

/-- The byte-addressed memories: PD, SH, LS, AON and NVM in one list, and the model's own counts of the losses of contents. -/
structure Mem where
  /-- Bytes that differ from what an unlisted address reads as, by rising address. -/
  cells : List Host.Cell := []
  /-- Resets that left PD and SH undefined (14 R331; log 6). -/
  lost : Nat := 0
  /-- Resets and STANDBY entries that left LS undefined (14 R325, R331; log 6). -/
  lostLs : Nat := 0
  /-- Bytes of SH as they stood before the writes of the cycle `wasAt` (07 R163). -/
  was : List Host.Cell := []
  /-- ECC marks of those words as they stood then. -/
  wasMark : Tab (Option EccMark) := []
  wasAt : Nat := 0
  deriving DecidableEq, Repr

/-- An SPI request that the executor has not taken yet (16 R367, R374): a write or a read, its address, its data and the cycle of its arrival. -/
structure SpiReq where
  write : Bool
  addr : Word
  data : Word
  age : Nat
  /-- The host still clocks for the response (R375). -/
  wanted : Bool := true
  deriving DecidableEq, Repr

/-- A debug access request in the crossing from TCK (01 R25): a write or a read, its address, its data and the cycle of its arrival. -/
structure DbgReq where
  write : Bool
  addr : Word
  data : Word
  age : Nat
  deriving DecidableEq, Repr

/-- The CMOS balls of 17 R376 that the boundary register covers (17 R393): all but those of the TAP itself. -/
inductive Ball where
  /-- SP, CP, RS and GS0 to GS5 of a port. -/
  | port (p : PortId) (i : Fin 9)
  | step (m : AxisId)
  | dir (m : AxisId)
  | en (m : AxisId)
  /-- A, B and Z of an encoder. -/
  | enc (m : AxisId) (i : Fin 3)
  | gpi (n : Fin 8)
  | wake
  | resetN
  | intN
  | role (i : Fin 2)
  | chnI
  | chnO
  | lsync
  | lholdN
  | forceO
  | forceI
  | sck
  | csN
  | mosi
  | miso
  | testen
  deriving DecidableEq, Repr

/-- The device: every register, buffer, engine and memory of the part. -/
structure Dev where
  phase : Phase := .inReset
  stb : Pos := 0
  cycle : Nat := 0
  free : Nat := 0
  out : List Out := []
  pins : Pins := {}
  mem : Mem := {}
  /-- ECC errors standing in memory, by the address of the ECC word. -/
  ecc : Tab EccMark := []
  /-- Requests waiting at target ports. -/
  reqs : List PortReq := []
  /-- The cycle of each sequencer's last promoted issue (03 R67). -/
  promo : Vector (Option Nat) 2 := Vector.replicate 2 none
  /-- Entries standing in the crossing FIFOs of 01 R25 that no list of their own holds, each by the cycle in which it is read out: PORT0 to PORT3, HK, CK_AON, WDT-B, HK results, TCK. -/
  fifo : Vector (List Nat) 9 := Vector.replicate 9 []
  /-- Readable and writable registers that differ from their reset values, by offset in the MMIO region. -/
  regs : Tab Word := []
  /-- Latched HI registers, by master * 2^20 + offset (01 R28). -/
  latch : Tab Word := []
  rdata : Word := 0
  /-- FROZEN of masters 64-84, bit i for master 64 + i. -/
  mfrozen : BitVec 21 := 0
  ctx : Vector Ctx 64 := Vector.replicate 64 {}
  ev : Fabric := {}
  sys : Sys := {}
  hng : Hinge := {}
  mot : Vector Axis 2 := Vector.replicate 2 {}
  led : Vector Led 4 := Vector.replicate 4 {}
  pldup : Bool := false
  widthErr : Bool := false
  port : Vector PortSt 4 := Vector.replicate 4 {}
  acq : Acq := {}
  pix : Pix := {}
  ls : Ls := {}
  dma : Vector Chan 16 := Vector.replicate 16 {}
  kl : Kl := {}
  hk : Hk := {}
  wdt : Wdt := {}
  cas : Cas := {}
  pwr : Pwr := {}
  spi : List Byte := []
  /-- SPI requests that wait for their turn or their port. -/
  spiReq : List SpiReq := []
  tap : BitVec 4 := 2
  /-- The boundary register (17 R393), one bit for each CMOS ball in the order of `balls`. -/
  bsr : List Bool := List.replicate 72 false
  /-- What PRELOAD has put into its output stage, which EXTEST and CLAMP drive. -/
  preload : List Bool := List.replicate 72 false
  /-- Debug accesses that wait, oldest first. -/
  dbgReq : List DbgReq := []
  /-- Beats that engines have put out and their ports have not granted yet, oldest first (01 R17). -/
  late : List LateWrite := []
  deriving DecidableEq, Repr

/-- The machine: the commands that wait, first in first out, what was fixed when the part was made, and the device. -/
structure State where
  pending : List Instr
  part : Part
  dev : Dev
  deriving DecidableEq, Repr

/-- The part of the reset state: a YK4860 with REV 0x0100 and blank fuses (DESIGN CHOICE, log 2; unsafe). -/
def Part.reset : Part := ⟨.yk4860, 0x0100, Vector.replicate 12 0⟩

/-- The machine right after reset (14 R331): held in reset, every register at the value the spec or a log entry gives. -/
def State.reset : State := ⟨[], Part.reset, {}⟩

/-- Reasons of a fault. No command of this part stops with a fault: a violation freezes its master and the machine goes on (03 R76-R81), so no constructor is ever raised. -/
inductive Fault where
  /-- Raised by nothing; safe. -/
  | none
  deriving DecidableEq, Repr

/-- Reasons of a refusal. -/
inductive Refusal where
  /-- Answered by exec for a command without a meaning; safe. -/
  | notModelled (mnemonic : String)
  deriving DecidableEq, Repr

end Sys2Proof.Machine
end

