-- ==== Sys2Proof/Machine/Regs.lean ====
section
/-!
DEFINITION. Fabricated resources (00 R1, R2) and the table of readable and writable registers: reset values, writable fields and locks, as the register maps of the chapters give them. An offset counts from 0x0800_0000.
-/
namespace Sys2Proof.Machine

/-- SYS_CAPS of a variant (00 R2). -/
def Part.caps (P : Part) : Word :=
  match P.variant with
  | .yk4860 => place 4 0 ||| place 1 3 ||| place 1 4 ||| place 1 5 ||| place 1 6 ||| place 8 8 ||| place 2 12 ||| place 2 14 ||| place 6 16 ||| place 16 20 ||| place 64 25
  | .yk4840 => place 2 0 ||| place 1 3 ||| place 1 4 ||| place 4 8 ||| place 1 12 ||| place 2 14 ||| place 6 16 ||| place 16 20 ||| place 64 25
  | .yk4820 => place 1 0 ||| place 1 12 ||| place 1 14 ||| place 3 16 ||| place 8 20 ||| place 32 25

/-- SYS_CAPS.PORTS. -/
def Part.ports (P : Part) : Nat := fld P.caps 0 3
/-- SYS_CAPS.XPLANE. -/
def Part.xplane (P : Part) : Bool := bit P.caps 3
/-- SYS_CAPS.CASC. -/
def Part.casc (P : Part) : Bool := bit P.caps 4
/-- SYS_CAPS.PAIR. -/
def Part.pair (P : Part) : Bool := bit P.caps 5
/-- SYS_CAPS.CORR. -/
def Part.corr (P : Part) : Bool := bit P.caps 6
/-- SYS_CAPS.HKIN. -/
def Part.hkin (P : Part) : Nat := fld P.caps 8 4
/-- SYS_CAPS.LANES. -/
def Part.lanes (P : Part) : Nat := fld P.caps 12 2
/-- Shading anchors per pixel. -/
def Part.anchors (P : Part) : Nat := 2 * fld P.caps 14 2
/-- Line store size in bytes. -/
def Part.lsBytes (P : Part) : Nat := fld P.caps 16 4 * 524288
/-- SYS_CAPS.DMACH. -/
def Part.dmach (P : Part) : Nat := fld P.caps 20 5
/-- SYS_CAPS.CONTEXTS. -/
def Part.contexts (P : Part) : Nat := fld P.caps 25 7
/-- SYS_ID.PART (16 R363). -/
def Part.id (P : Part) : Word :=
  (match P.variant with
   | .yk4860 => place 0x4860 16
   | .yk4840 => place 0x4840 16
   | .yk4820 => place 0x4820 16) ||| P.rev.setWidth 32
/-- Bits of a fuse-view word that the view shows: word 8 is laid out as WDT_A_CFG, word 9 holds two fuses, and RSV bits read 0 (16 R366, 00 R7). -/
def fuseBits (j : Nat) : Word := if j = 8 then 0x3F else if j = 9 then 3 else 0xFFFFFFFF
/-- A fuse-view word (16 R366). -/
def Part.fuse (P : Part) (j : Nat) : Word := if h : j < 12 then P.fuses[j] &&& fuseBits j else 0
/-- The host-access lock fuse (16 R366). -/
def Part.halock (P : Part) : Bool := bit (P.fuse 9) 0
/-- The debug fuse (16 R366). -/
def Part.dbgdis (P : Part) : Bool := bit (P.fuse 9) 1

/-- Reset value of a register of the table, by its offset. -/
def regReset (o : Nat) : Word :=
  if o = 0x20000 then 1
  else if o ∈ [0x30100, 0x30120, 0x30140, 0x30160] then 4
  else if o ∈ [0x31004, 0x32004, 0x33004, 0x34004] then 0x1800
  else if o ∈ [0x31008, 0x32008, 0x33008, 0x34008] then 0x1E300000
  else if o ∈ [0x31018, 0x32018, 0x33018, 0x34018] then 0x3E8
  else if o = 0x40000 then 0xB
  else if o = 0x40020 then 0xFFFF0000
  else if o = 0x50000 then 0x80003140
  else if o = 0x5000C then 0x10000
  else if o = 0x50024 then 0x400010
  else if o = 0x50028 then 8
  else if o = 0x50034 then 0x10000
  else if o ∈ [0x6000C, 0x6010C] then 0x400
  else if o ∈ [0x60010, 0x60110] then 0x4000
  else if o ∈ [0x60014, 0x60114] then 0x1000
  else if o ∈ [0x60030, 0x60130] then 0x400
  else if o ∈ [0x60038, 0x60138] then 0x20000
  else if o ∈ [0x60040, 0x60140] then 0x40
  else if o = 0x7001C then 2
  else if 0x88000 ≤ o ∧ o < 0x88400 ∧ o % 0x40 = 0 then 0x207E
  else if o = 0x90000 then 0x21
  else if o = 0x90100 then 0xC
  else if o ∈ [0x90200, 0x90300] then 4
  else if o = 0xB0104 then 0xC8000
  else if o = 0xC0014 then 0x3E8
  else if o = 0xC0040 then 0xA0
  else if o = 0xD0000 then 1
  else if o = 0xD0018 then 0x4E2
  else if o ∈ [0xE0004, 0xE0008, 0xE000C, 0xE0010] then 0xFFFFFFFF
  else 0

/-- A register of the table. -/
def Dev.reg (d : Dev) (o : Nat) : Word := tabGet (regReset o) d.regs o

/-- A register of the table replaced whole. -/
def Dev.setReg (d : Dev) (o : Nat) (v : Word) : Dev := { d with regs := tabSet (regReset o) d.regs o v }

/-- HNG_STATE.RUNNING (02 R63). -/
def Dev.running (d : Dev) : Bool := d.hng.st != .off

/-- HNG_CTL. -/
def Dev.hngCtl (d : Dev) : Word := d.reg 0x50000

/-- LINE_PITCH: HNG_PITCH, a value below 256 acting as 256 (02 R36). -/
def Dev.pitch (d : Dev) : Nat := max 256 (d.reg 0x5000C).toNat

/-- HNG_VSCAN in pu per microsecond. -/
def Dev.vscan (d : Dev) : Nat := (d.reg 0x5002C).toNat

/-- Offset of a register of axis m. -/
def motOff (m : AxisId) (o : Nat) : Nat := 0x60000 + 0x100 * m.val + o

/-- A register of axis m. -/
def Dev.motReg (d : Dev) (m : AxisId) (o : Nat) : Word := d.reg (motOff m o)

/-- The planner holds the axis at rest: EN = 0 or STALLED (08 R191). -/
def Dev.held (d : Dev) (m : AxisId) : Bool := !bit (d.motReg m 0) 0 || (d.mot[m]).stalled

/-- The Hinge's move to P_rev is in progress on M0 (08 R189). -/
def Dev.reversing (d : Dev) (m : AxisId) : Bool := m == 0 && d.hng.ownsM0 && d.hng.st == .reverse && !d.hng.revDone

/-- The axis is at rest (08 R186, R191). -/
def Dev.atRest (d : Dev) (m : AxisId) : Bool :=
  let x := d.mot[m]
  x.v == 0 && x.a == 0 && x.takeUp.isNone && x.cmd == .none && (!d.reversing m || d.held m)

/-- MOT_Mm_STATE.BUSY (08 R196). -/
def Dev.motBusy (d : Dev) (m : AxisId) : Bool := !d.atRest m

/-- Offset of a register of port n. -/
def portOff (p : PortId) (o : Nat) : Nat := 0x31000 + 0x1000 * p.val + o

/-- A register of port n. -/
def Dev.portReg (d : Dev) (p : PortId) (o : Nat) : Word := d.reg (portOff p o)

/-- A port that takes part in acquisition: EN = 1, or a disable is pending (06 R148). -/
def Dev.portOn (d : Dev) (p : PortId) : Bool := bit (d.portReg p 0) 0 || (d.port[p]).disPend

/-- The ports that take part, in order. -/
def Dev.portsOn (d : Dev) : List PortId := (List.finRange 4).filter (fun p => d.portOn p)

/-- Offset of a register of DMA channel n below DMA+0x8000. -/
def dmaOff (n : DmaId) (o : Nat) : Nat := 0x81000 + 0x100 * n.val + o

/-- A register of DMA channel n below DMA+0x8000. -/
def Dev.dmaReg (d : Dev) (n : DmaId) (o : Nat) : Word := d.reg (dmaOff n o)

/-- DMA_CHn_CFG. -/
def Dev.dmaCfg (d : Dev) (n : DmaId) : Word := d.reg (0x88000 + 0x40 * n.val)

/-- KL_LKk_CFG. -/
def Dev.lkCfg (d : Dev) (k : LinkId) : Word := d.reg (0x90100 + 0x100 * k.val)

/-- KL_LKk_STATE.LIVE (10 R249). -/
def Dev.lkLive (d : Dev) (k : LinkId) : Bool := (d.kl.links[k]).st != .disabled && (d.kl.links[k]).st != .fault

/-- Writable bits of an EVT register of the table. -/
def maskEvt (P : Part) (o : Nat) : Word :=
  if o = 0 then 1
  else if o ∈ [0x40, 0x50, 0x60, 0x70] then 3
  else if o ∈ [0x44, 0x54, 0x64, 0x74] then 0xFFFFFFFF
  else if 0x1000 ≤ o ∧ o < 0x1400 then
    match o % 16 with
    | 0 => 0xFFFFFFFF
    | 4 => if P.contexts ≤ 32 then 0 else 0xFFFFFFFF
    | 8 => if 23 ≤ (o - 0x1000) / 16 ∧ (o - 0x1000) / 16 ≤ 30 then 0xF else 3
    | _ => 0
  else 0

/-- Writable bits of a PORT register of the table, with the locks of 06 R148 and R155. -/
def maskPort (d : Dev) (o : Nat) : Word :=
  if o = 0 then (if d.running then 0 else 0xFFFFFF0F)
  else if 0x100 ≤ o ∧ o < 0x180 then
    match o % 0x20 with
    | 0 => 0x3FFFF
    | 4 => 0xFFFFF
    | 8 => 0xFFFFF
    | _ => 0
  else if h : 0x1000 ≤ o ∧ o < 0x5000 then
    let p : PortId := ⟨o / 0x1000 - 1, by omega⟩
    let locked := d.portOn p
    let r := o % 0x1000
    if r = 0 then (if locked then 0x80 else 0xFE)
    else if r = 4 then (if locked then 0 else 0x3FFF)
    else if r = 8 then (if locked then 0 else 0xFF3FFFFF)
    else if r = 0xC then 0xFF3FFFFF
    else if r = 0x10 then 0x3FF03FF
    else if r = 0x14 then 0x3FFF
    else if r = 0x18 then 0xFFFF
    else if 0x400 ≤ r ∧ r < 0x600 ∧ r % 4 = 0 then 0x81F7FFFF
    else 0
  else 0

/-- Writable bits of a PIX register of the table, with the locks of 07 R176. -/
def maskPix (d : Dev) (o : Nat) : Word :=
  if o = 0 then (if d.running then 7 else 0x3FF)
  else if o ∈ [0x10, 0x14, 0x18, 0x1C] then (if d.running then 0 else 0xFFFF)
  else if o = 0x20 then 0xFFFFFFFF
  else if o ∈ [0x40, 0x44, 0x48, 0x4C] then 0x7FFF
  else if o ∈ [0x100, 0x110, 0x120, 0x130] then 0x1F
  else if o ∈ [0x104, 0x114, 0x124, 0x134] then 0x7FF
  else if 0x4000 ≤ o ∧ o < 0x8000 then 0x7FFF
  else if 0x8000 ≤ o ∧ o < 0x10000 then 0xFFFFFFFF
  else 0

/-- Writable bits of an HNG register of the table, with the locks of 02 R63 and R62. -/
def maskHng (P : Part) (d : Dev) (o : Nat) : Word :=
  if o = 0 then (if d.running then 0xFF007F00 else 0xFF007FF5) ||| (if P.corr then 2 else 0)
  else if o = 0xC then (if d.running then 0 else 0xFFFFFFFF)
  else if o = 0x24 then 0xFFFFFFFF
  else if o = 0x28 then 0xFFFF
  else if o = 0x2C ∨ o = 0x34 then 0xFFFFFFFF
  else 0

/-- Writable bits of a MOT register of the table, with the locks of 08 R196; EN is left to AXIS_DISABLE's rule. -/
def maskMot (d : Dev) (o : Nat) : Word :=
  if o < 0x200 then
    let busy := d.motBusy (if o < 0x100 then 0 else 1)
    match o % 0x100 with
    | 0x00 => if busy then 0xFF03C1 else 0xFF03FF
    | 0x0C => 0xFFFFFFFF
    | 0x10 => 0xFFFFFFFF
    | 0x14 => 0xFFFFFFFF
    | 0x30 => if busy then 0 else 0xFFFFFF
    | 0x38 => 0xFFFFFFFF
    | 0x3C => if busy then 0 else 0xFFFFFF
    | 0x40 => 0xFFFF
    | 0x44 => 0x3FF03FF
    | 0x54 => 0xFFFFFFFF
    | 0x58 => 0xFFFF
    | _ => 0
  else 0

/-- Writable bits of an LS register of the table (09 R220). -/
def maskLs (d : Dev) (o : Nat) : Word :=
  if o = 0 then (if d.running then 0 else 0x1FF01)
  else if o = 0x1C then 0x1FF
  else if o = 0x20 then 0x1FFFF
  else 0

/-- Writable bits of a DMA register of the table (09 R220); GO and HEAD act by R205. -/
def maskDma (d : Dev) (o : Nat) : Word :=
  if h : 0x1000 ≤ o ∧ o < 0x2000 then
    let n : DmaId := ⟨(o - 0x1000) / 0x100, by omega⟩
    let busy := (d.dma[n]).st != .idle
    match o % 0x100 with
    | 0x00 => if busy then 1 else 0xFFFF
    | 0x04 => if busy then 0 else 0xFFFFFFFF
    | 0x08 => if busy then 0 else 0xFFFFFFFF
    | 0x0C => if busy then 0 else 0xFFFFFF
    | 0x10 => if busy then 0 else 0xFFFFFFFF
    | 0x14 => 0xFFFFFFE0
    | _ => 0
  else if h : 0x8000 ≤ o ∧ o < 0x8400 then
    let n : DmaId := ⟨(o - 0x8000) / 0x40, by omega⟩
    match o % 0x40 with
    | 0x00 => if (d.dma[n]).st != .idle then 0 else 0xFFFFFF
    | 0x10 => 0xFFFFFFC3
    | 0x14 => 0xFFFFFFC0
    | 0x18 => 0xFFFFFFC3
    | 0x1C => 0xFFFFFFC0
    | _ => 0
  else 0

/-- Writable bits of a KL register of the table (10 R249, R250); EN acts by the link's transitions. -/
def maskKl (P : Part) (d : Dev) (o : Nat) : Word :=
  if o = 0 then 0xF1
  else if o = 0x100 then (if d.lkLive 0 then 1 else if P.lanes = 1 then 0x37 else 0x3F)
  else if o = 0x200 then (if d.lkLive 1 then 1 else 0x37)
  else if o = 0x300 then (if d.lkLive 2 then 1 else 0x37)
  else 0

/-- Writable bits of an HK register of the table (11 R275). -/
def maskHk (o : Nat) : Word :=
  if o = 0 then 0xFFF
  else if o = 0x18 then 0xFFFF
  else if o = 0x20 then 0xFF
  else if o ∈ [0x24, 0x28] then 0xFFFFFF
  else if 0x200 ≤ o ∧ o < 0x300 then
    match o % 16 with
    | 0 => 0x3FFFFFFF
    | 4 => 0xFFFFFF
    | 8 => 0xFFFFFF
    | _ => 0
  else if 0x400 ≤ o ∧ o < 0x500 then 0xFFFFFF
  else 0

/-- Writable bits of a WDT register of the table (12 R294), locked by WDT_B_CTL.EN. -/
def maskWdt (d : Dev) (o : Nat) : Word :=
  if d.wdt.bRun then 0
  else if o = 0x100 then 0xE
  else if o = 0x104 then 0x7FFFFFF
  else if 0x120 ≤ o ∧ o < 0x140 then 0xFF
  else 0

/-- Writable bits of a CAS register of the table (13 R321). -/
def maskCas (d : Dev) (o : Nat) : Word :=
  if o = 4 then (if d.running then 0 else 6)
  else if o = 0xC then (if d.running then 0 else 0xFF0DFFFF)
  else if o = 0x10 then 0x7FFFF
  else if o = 0x14 then 0xFFFF
  else if o ∈ [0x18, 0x1C] then 0xFFFFFFFF
  else if o = 0x40 then (if bit (d.reg 0xC0040) 0 then 1 else 0xFF1)
  else if o = 0x4C then (if bit (d.reg 0xC0040) 0 then 0 else 0xFFFFC000)
  else 0

/-- Writable bits of a PWR, NVM or TRC register of the table (14 R353), by its offset in the MMIO region. -/
def maskPwr (d : Dev) (o : Nat) : Word :=
  if o = 0xD0000 then 0xFF0F
  else if o = 0xD0018 then 0xFFFF
  else if o = 0xE0000 then 0x7FFF0
  else if o ∈ [0xE0004, 0xE0008, 0xE000C, 0xE0010] then 0xFFFFFFFF
  else if o = 0xF0000 then 7
  else if o = 0xF0004 then (if bit (d.reg 0xF0000) 0 then 0 else 0xF0000)
  else if o = 0xF000C then 0xFFF0
  else if o ∈ [0xF0010, 0xF0014] then 0xFFFFFFFF
  else 0

/-- Bits of a register of the table that a write may change now: its RW fields, and its RWL fields whose lock is clear (00 R10). Offsets that name no such register have none (R7). -/
def regMask (P : Part) (d : Dev) (o : Nat) : Word :=
  let r := o % 0x10000
  match o / 0x10000 with
  | 2 => maskEvt P r
  | 3 => maskPort d r
  | 4 => maskPix d r
  | 5 => maskHng P d r
  | 6 => maskMot d r
  | 7 => maskLs d r
  | 8 => maskDma d r
  | 9 => maskKl P d r
  | 10 => maskHk r
  | 11 => maskWdt d r
  | 12 => maskCas d r
  | 13 => maskPwr d o
  | 14 => maskPwr d o
  | 15 => maskPwr d o
  | _ => 0

/-- A write of a register of the table: the writable bits take the value, the others keep theirs. -/
def Dev.writeReg (P : Part) (d : Dev) (o : Nat) (v : Word) : Dev :=
  d.setReg o ((d.reg o &&& ~~~regMask P d o) ||| (v &&& regMask P d o))

end Sys2Proof.Machine
end

