-- ==== Sys2Proof/Machine/Ops.lean ====
section
/-!
DEFINITION. The named operations every block is written over: updates of the device, free values, masters, memory with its ECC, events, trace packets, fault records and freezing.
-/
namespace Sys2Proof.Machine

/-- One context changed. -/
def Dev.updCtx (d : Dev) (c : CtxId) (f : Ctx → Ctx) : Dev := { d with ctx := upd d.ctx c f }
/-- The Hinge changed. -/
def Dev.updHng (d : Dev) (f : Hinge → Hinge) : Dev := { d with hng := f d.hng }
/-- One stream changed. -/
def Dev.updStream (d : Dev) (s : Fin 64) (f : Stream → Stream) : Dev := { d with hng := { d.hng with streams := upd d.hng.streams s f } }
/-- One axis changed. -/
def Dev.updMot (d : Dev) (m : AxisId) (f : Axis → Axis) : Dev := { d with mot := upd d.mot m f }
/-- One LED channel changed. -/
def Dev.updLed (d : Dev) (k : Fin 4) (f : Led → Led) : Dev := { d with led := upd d.led k f }
/-- One port changed. -/
def Dev.updPort (d : Dev) (p : PortId) (f : PortSt → PortSt) : Dev := { d with port := upd d.port p f }
/-- The pipeline changed. -/
def Dev.updPix (d : Dev) (f : Pix → Pix) : Dev := { d with pix := f d.pix }
/-- One slot changed. -/
def Dev.updSlot (d : Dev) (n : Fin 256) (f : Slot → Slot) : Dev := { d with ls := { d.ls with slots := upd d.ls.slots n f } }
/-- One DMA channel changed. -/
def Dev.updDma (d : Dev) (n : DmaId) (f : Chan → Chan) : Dev := { d with dma := upd d.dma n f }
/-- The framer and links changed. -/
def Dev.updKl (d : Dev) (f : Kl → Kl) : Dev := { d with kl := f d.kl }
/-- One link changed. -/
def Dev.updLink (d : Dev) (k : LinkId) (f : Link → Link) : Dev := { d with kl := { d.kl with links := upd d.kl.links k f } }
/-- One lane changed. -/
def Dev.updLane (d : Dev) (n : LaneId) (f : Lane → Lane) : Dev := { d with kl := { d.kl with lanes := upd d.kl.lanes n f } }
/-- The housekeeping front end changed. -/
def Dev.updHk (d : Dev) (f : Hk → Hk) : Dev := { d with hk := f d.hk }
/-- The watchdogs changed. -/
def Dev.updWdt (d : Dev) (f : Wdt → Wdt) : Dev := { d with wdt := f d.wdt }
/-- The chain and pair logic changed. -/
def Dev.updCas (d : Dev) (f : Cas → Cas) : Dev := { d with cas := f d.cas }
/-- Power, NVM and trace changed. -/
def Dev.updPwr (d : Dev) (f : Pwr → Pwr) : Dev := { d with pwr := f d.pwr }
/-- The SYS block changed. -/
def Dev.updSys (d : Dev) (f : Sys → Sys) : Dev := { d with sys := f d.sys }
/-- The event fabric changed. -/
def Dev.updEv (d : Dev) (f : Fabric → Fabric) : Dev := { d with ev := f d.ev }
/-- An output recorded. -/
def Dev.emitOut (d : Dev) (o : Out) : Dev := { d with out := d.out ++ [o] }
/-- SYS_FAULT.ABSENT set (00 R4). -/
def Dev.setAbsent (d : Dev) : Dev := d.updSys fun y => { y with absent := true }
/-- The index of the next free value, which is then used up. -/
def Dev.takeFree (d : Dev) : Nat × Dev := (d.free, { d with free := d.free + 1 })

/-- A context the variant has (00 R1). -/
def ctxPresent (P : Part) (c : CtxId) : Bool := decide (c.val < P.contexts)
/-- A DMA channel the variant has. -/
def dmaPresent (P : Part) (n : DmaId) : Bool := decide (n.val < P.dmach)
/-- A port the variant has. -/
def portPresent (P : Part) (p : PortId) : Bool := decide (p.val < P.ports)
/-- A link whose lanes the variant has (10 R221, R250). -/
def linkPresent (P : Part) (k : LinkId) : Bool := k == 0 || P.casc
/-- A lane the variant has. -/
def lanePresent (P : Part) (n : LaneId) : Bool := n == 0 || (n == 1 && P.lanes == 2) || (decide (2 ≤ n.val) && P.casc)

/-- A master the variant has (00 R1, R6): contexts, channels, cascade and mirror ingress and the correlator may be absent. -/
def masterPresent (P : Part) : Master → Bool
  | .ctx c => ctxPresent P c
  | .dma n => dmaPresent P n
  | .cascIn => P.casc
  | .mirrorIn => P.pair
  | .corr => P.corr
  | _ => true

/-- A master's number (01 R16). -/
def mnum : Master → Nat
  | .ctx n => n.val
  | .dma n => 64 + n.val
  | .linkIn => 80
  | .cascIn => 81
  | .mirrorIn => 82
  | .debug => 83
  | .corr => 84
  | .writer => 85
  | .mgmt => 86

/-- The master of a number (01 R16). -/
def masterOf (n : Nat) : Option Master :=
  if h : n < 64 then some (.ctx ⟨n, h⟩)
  else if h : n < 80 then some (.dma ⟨n - 64, by omega⟩)
  else [(80, Master.linkIn), (81, .cascIn), (82, .mirrorIn), (83, .debug), (84, .corr), (85, .writer), (86, .mgmt)].lookup n

/-- FROZEN of a master (03 R76). -/
def Dev.frozen (d : Dev) : Master → Bool
  | .ctx c => (d.ctx[c]).frozen
  | m => d.mfrozen.getLsbD (mnum m - 64)

/-! ### Memory -/

/-- The regions of the address space (01 "Memory regions"), with the absent upper half of LS on a YK4820 (R21). -/
inductive Region where
  | pd
  | sh
  | ls
  | lsAbsent
  | aon
  | nvm
  | mmio
  | hole
  deriving DecidableEq, Repr

/-- The region of an address. -/
def regionOf (P : Part) (a : Nat) : Region :=
  if a < 0x100000 then .pd
  else if 0x1000000 ≤ a ∧ a < 0x1200000 then .sh
  else if 0x2000000 ≤ a ∧ a < 0x2000000 + P.lsBytes then .ls
  else if 0x2000000 ≤ a ∧ a < 0x2300000 then .lsAbsent
  else if 0x3000000 ≤ a ∧ a < 0x3002000 then .aon
  else if 0x4000000 ≤ a ∧ a < 0x4080000 then .nvm
  else if 0x8000000 ≤ a ∧ a < 0x8100000 then .mmio
  else .hole

/-- The target port of a region for a master other than the pixel writer (01 R16). -/
def portOf : Region → Port
  | .pd => .pd
  | .sh => .sh
  | .ls => .ls
  | .lsAbsent => .ls
  | .aon => .aon
  | .nvm => .nvm
  | .mmio => .mmio
  | .hole => .mmio

/-- The target ports a master reaches (01 R16); the egress and cascade windows of DMA are apart (R18). -/
def reaches (m : Master) (r : Region) : Bool :=
  match m, r with
  | _, .hole => false
  | .ctx _, _ => true
  | .mgmt, _ => true
  | .dma _, .nvm => false
  | .dma _, .mmio => false
  | .dma _, _ => true
  | .linkIn, r => r == .pd || r == .sh || r == .ls || r == .lsAbsent
  | .cascIn, r => r == .pd || r == .sh || r == .ls || r == .lsAbsent
  | .mirrorIn, r => r == .pd || r == .mmio
  | .debug, r => r == .pd || r == .mmio
  | .corr, r => r == .ls || r == .lsAbsent
  | .writer, _ => false

/-- What a byte of RAM that nothing has written since the n-th loss of its contents reads as: a free value (14 R325, R331), and 0 before the first loss (DESIGN CHOICE, log 6; unsafe). -/
def lostDflt (n a : Nat) : Byte := if n = 0 then 0 else Config.lostByte n a

/-- What a byte of memory that nothing has written reads as: 0xFF in NVM (14 R340), 0 in AON (14 R331), else as its RAM was left (log 6). -/
def memDflt (m : Mem) (a : Nat) : Byte :=
  if 0x4000000 ≤ a ∧ a < 0x4080000 then 0xFF
  else if a < 0x1200000 then lostDflt m.lost a
  else if 0x2000000 ≤ a ∧ a < 0x2300000 then lostDflt m.lostLs a
  else 0

/-- A byte of a memory. -/
def memGet (m : Mem) (a : Nat) : Byte := tabGet (memDflt m a) m.cells a

/-- A memory with a byte written. -/
def memPut (m : Mem) (a : Nat) (b : Byte) : Mem := { m with cells := tabSet (memDflt m a) m.cells a b }

/-- A memory that keeps only the bytes at some addresses. -/
def Mem.keep (m : Mem) (p : Nat → Bool) : Mem := { m with cells := m.cells.filter fun c => p c.1 }

/-- LS contents lost at an entry to STANDBY (14 R325). -/
def Mem.loseLs (m : Mem) : Mem := { m.keep (fun a => decide (a < 0x2000000 ∨ 0x2300000 ≤ a)) with lostLs := m.lostLs + 1 }

/-- PD, SH and LS contents lost at a reset, and AON at POWER_ON (14 R331). -/
def Mem.atReset (m : Mem) (powerOn : Bool) : Mem :=
  { cells := (m.keep (fun a => decide (0x4000000 ≤ a ∨ (powerOn = false ∧ 0x3000000 ≤ a)))).cells
    lost := m.lost + 1
    lostLs := m.lostLs + 1 }

/-- The canonical form of a memory: addresses rise strictly and no entry equals what its address reads unlisted. -/
def memWf (m : Mem) : Bool := tabWf (memDflt m) m.cells

/-- A byte of memory. -/
def Dev.byte (d : Dev) (a : Nat) : Byte := memGet d.mem a

/-- n bytes of memory from an address. -/
def Dev.bytes (d : Dev) (a n : Nat) : List Byte := (List.range n).map fun i => d.byte (a + i)

/-- A little-endian value of n bytes (00 R11). -/
def Dev.loadLE (d : Dev) (a n : Nat) : Word := nword (leNat (d.bytes a n))

/-- A word of memory. -/
def Dev.word (d : Dev) (a : Nat) : Word := d.loadLE a 4

/-- Bytes written into a memory from an address, in order. -/
def memPuts (m : Mem) (a : Nat) : List Byte → Mem
  | [] => m
  | b :: bs => memPuts (memPut m a b) (a + 1) bs

/-- Bytes written into memory with no regard to ECC. -/
def Dev.poke (d : Dev) (a : Nat) (bs : List Byte) : Dev := { d with mem := memPuts d.mem a bs }

/-- Bytes of an ECC word in a region (01 "Memory regions"). -/
def eccSize : Region → Nat
  | .ls => 8
  | .lsAbsent => 8
  | .nvm => 16
  | _ => 4

/-- The base of the ECC word that holds an address. -/
def eccBase (P : Part) (a : Nat) : Nat := a - a % eccSize (regionOf P a)

/-- Base addresses of the ECC words that a range of bytes touches. -/
def eccWords (P : Part) (a n : Nat) : List Nat := ((List.range n).map fun i => eccBase P (a + i)).dedup

/-- The ECC mark of a word. -/
def Dev.mark (d : Dev) (w : Nat) : Option EccMark := d.ecc.lookup w

/-- An ECC mark set or removed. -/
def Dev.setMark (d : Dev) (w : Nat) (k : Option EccMark) : Dev :=
  { d with ecc := match k with
      | none => tabDel w d.ecc
      | some k => tabIns w k (tabDel w d.ecc) }

/-! ### Events -/

/-- The stamp compensation of a source (01 R29): 3 ticks where its assertion enters CK_CORE through a synchroniser from a pin, CK_HK, CK_AON, the WDT-B clock or CK_LRX. -/
def stampComp (n : Fin 64) : Nat :=
  if (21 ≤ n.val ∧ n.val ≤ 34) ∨ (39 ≤ n.val ∧ n.val ≤ 42) ∨ (48 ≤ n.val ∧ n.val ≤ 50) then 3 else 0

/-- The context mask of a source's routing (05 R121). -/
def Dev.route (d : Dev) (n : Fin 64) : BitVec 64 := d.reg (0x21004 + 16 * n.val) ++ d.reg (0x21000 + 16 * n.val)

/-- EVT_SRCn_CFG. -/
def Dev.srcCfg (d : Dev) (n : Fin 64) : Word := d.reg (0x21008 + 16 * n.val)

/-- A source routed to a destination, 64 being the host. -/
def Dev.routed (d : Dev) (n : Fin 64) (dest : Nat) : Bool :=
  if dest = 64 then bit (d.srcCfg n) 0 else (d.route n).getLsbD dest

/-- A routing or CFG register as it stood at the start of the present cycle: a write applies to records issued after it completes (05 R121). -/
def Dev.cfgNow (d : Dev) (o : Nat) : Word :=
  match if d.ev.cfgAt = some d.cycle then d.ev.cfgWas.lookup o else none with
  | some v => v
  | none => d.reg o

/-- EVT_SRCn_CFG as it applies in the present cycle. -/
def Dev.srcCfgNow (d : Dev) (n : Fin 64) : Word := d.cfgNow (0x21008 + 16 * n.val)

/-- A source's routing to a destination as it applies in the present cycle (05 R121). -/
def Dev.routedNow (d : Dev) (n : Fin 64) (dest : Nat) : Bool :=
  if dest = 64 then bit (d.srcCfgNow n) 0 else (d.cfgNow (0x21004 + 16 * n.val) ++ d.cfgNow (0x21000 + 16 * n.val) : BitVec 64).getLsbD dest

/-- Key of a source at a destination. -/
def destKey (n : Fin 64) (dest : Nat) : Nat := n.val * 65 + dest

/-- Losses that the next record of a source at a destination carries (05 R118, R120). -/
def Dev.owe (d : Dev) (n : Fin 64) (dest k : Nat) : Dev :=
  d.updEv fun e => { e with lost := tabSet 0 e.lost (destKey n dest) (tabGet 0 e.lost (destKey n dest) + k) }

/-- A record lost at a destination (05 R118, R122, R123). -/
def Dev.lose (d : Dev) (n : Fin 64) (dest : Nat) : Dev :=
  (d.owe n dest 1).updEv fun e => { e with hqLost := if dest = 64 then e.hqLost + 1 else e.hqLost }

/-- A source whose unit the part or variant lacks (00 R6). -/
def srcAbsent (P : Part) (n : Fin 64) : Bool :=
  let i := n.val
  (decide (i < 4) && decide (P.ports ≤ i)) || (decide (4 ≤ i ∧ i < 8) && decide (P.ports ≤ i - 4)) ||
  (decide (31 ≤ i ∧ i ≤ 34) && decide (P.hkin = 0)) || (decide (i = 44 ∨ i = 45) && !P.casc) || (decide (i = 46 ∨ i = 47) && !P.pair)

/-- The unit that asserted a source which several units share, by its detail word: a DMA channel (35-38), a lane (39-42), a cascade port (45), a master (51), a memory (52, 53) or a supply monitor (55); 0 for every other source. -/
def unitOf (n : Fin 64) (detail : Word) : Nat :=
  if 35 ≤ n.val ∧ n.val ≤ 38 then fld detail 0 4
  else if 39 ≤ n.val ∧ n.val ≤ 42 then fld detail 0 2
  else if n = 45 then fld detail 0 1
  else if n = 51 then fld detail 0 8
  else if n = 52 ∨ n = 53 then fld detail 24 8
  else if n = 55 then fld detail 0 4
  else 0

/-- Detail words a and b exchange what belongs to their place: SEQ of the fault record, which event 51 carries in [31:16] (03 R79). -/
def swapSeq (n : Fin 64) (a b : Word) : Word := if n = 51 then (b &&& 0xFFFF0000) ||| (a &&& 0xFFFF) else a

/-- A new record behind those of its source that wait: records of one cycle take their numbers in ascending unit order (05 R117). -/
def Pend.insert (n : Fin 64) (p : Pend) : List Pend → List Pend
  | [] => [p]
  | q :: r => if q.age = p.age ∧ p.unit < q.unit
    then { p with seq := q.seq, gap := q.gap, detail := swapSeq n p.detail q.detail } ::
      Pend.insert n { q with seq := p.seq, gap := p.gap, detail := swapSeq n q.detail p.detail } r
    else q :: Pend.insert n p r

/-- An assertion of a source in CK_CORE by a unit (05 R117, R118): it takes a sequence number, and a stamped record joins the pending buffer. Where four wait already the last of them all is lost everywhere it is routed, which the next record to enter the buffer tells. -/
def Dev.assertBy (d : Dev) (unit : Nat) (n : Fin 64) (detail : Word) : Dev :=
  let s := d.ev.src[n]
  let q := Pend.insert n ⟨s.seq, detail, d.stb - BitVec.ofNat 48 (stampComp n), d.cycle, s.owed, unit⟩ s.pend
  if s.pend.length < 4 then
    d.updEv fun e => { e with src := upd e.src n fun s => { seq := s.seq + 1, pend := q, owed := [] } }
  else
    d.updEv fun e => { e with
      src := upd e.src n fun s => { seq := s.seq + 1, pend := q.take 4, owed := s.owed ++ (List.range 65).filter (d.routedNow n) }
      hqLost := if d.routedNow n 64 then e.hqLost + 1 else e.hqLost }

/-- An assertion by the unit that the detail word names. -/
def Dev.assert (d : Dev) (n : Fin 64) (detail : Word) : Dev := d.assertBy (unitOf n detail) n detail

/-- An event raised: asserted at once, or held in its own domain while CK_CORE stands still (05 R130). -/
def Dev.raise (d : Dev) (n : Fin 64) (detail : Word) : Dev :=
  match d.phase with
  | .standby => d.updEv fun e => { e with held := e.held ++ [(n, detail)] }
  | .waking => d.updEv fun e => { e with held := e.held ++ [(n, detail)] }
  | .reloading => d.updEv fun e => { e with held := e.held ++ [(n, detail)] }
  | _ => d.assert n detail

/-! ### Crossing FIFOs -/

/-- The crossing FIFO that a write of an MMIO offset passes (01 R25): a PORTn register, an HK register, a key register of WDT-B, or another WDT register. -/
def crossOf (P : Part) (o : Nat) : Option (Fin 9) :=
  if 0x31000 ≤ o ∧ o < 0x31000 + 0x1000 * P.ports then some (Fin.ofNat 9 ((o - 0x31000) / 0x1000))
  else if o / 0x10000 = 0xA ∧ P.hkin ≠ 0 then some 4
  else if o = 0xB0108 then some 6
  else if o / 0x10000 = 0xB ∧ o ≠ 0xB0008 then some 5
  else none

/-- Entries of a crossing FIFO (01 R25). -/
def crossDepth : Fin 9 → Nat := fun k => #v[8, 8, 8, 8, 8, 4, 8, 4, 4][k]

/-- The most CK_CORE cycles an entry stands in a crossing FIFO (01 R25): 5 cycles of CK_PIX at 5 MHz, of CK_HK, of CK_AON, of CK_CORE. -/
def crossMost : Fin 9 → Nat := fun k => #v[400, 400, 400, 400, 245, 61200, 61200, 5, 5][k]

/-- Entries of a crossing FIFO that the other domain has not read out: those of the list, KEY check-ins, WDT-A service writes and urgent requests. -/
def Dev.crossUsed (d : Dev) (k : Fin 9) : Nat :=
  ((d.fifo[k]).filter fun t => decide (d.cycle < t)).length +
    (if k = 4 then d.hk.crossing.length else if k = 5 then d.wdt.svc.length else if k = 6 then d.wdt.keys.length else 0)

/-- A crossing FIFO has room. -/
def Dev.crossRoom (d : Dev) (k : Fin 9) : Bool := decide (d.crossUsed k < crossDepth k)

/-- An entry put into a crossing FIFO; entries that have been read out are gone. -/
def Dev.cross (d : Dev) (k : Fin 9) : Dev :=
  let t := d.cycle + 1 + Config.crossTime d.free % crossMost k
  { d.takeFree.2 with fifo := upd d.fifo k fun l => (l.filter fun t => decide (d.cycle < t)) ++ [t] }

/-- A write of an MMIO offset finds room in the crossing it passes, if it passes one; a write of WDT_A_SVC needs room in that to CK_AON. -/
def Dev.writeRoom (P : Part) (d : Dev) (o : Nat) : Bool :=
  match if o = 0xB0008 then some 5 else crossOf P o with
  | none => true
  | some k => d.crossRoom k

/-- The crossing of a write of an MMIO offset taken up. -/
def Dev.crossWrite (P : Part) (d : Dev) (o : Nat) : Dev :=
  match crossOf P o with
  | none => d
  | some k => d.cross k

/-! ### ECC at reads and writes -/

/-- A read's ECC check of one word (01 R22): event 52 for a single-bit error, the first time outside NVM, and event 53 for an uncorrectable one. -/
def Dev.eccRead1 (P : Part) (d : Dev) (w : Nat) : Dev :=
  match d.mark w with
  | some (.single false) =>
    let d := d.raise 52 (nword w)
    if regionOf P w = .nvm then d else d.setMark w (some (.single true))
  | some .double => d.raise 53 (nword w)
  | _ => d

/-- A read's ECC check of every word it covers (01 R22, R399). -/
def Dev.eccRead (P : Part) (d : Dev) (a n : Nat) : Dev := (eccWords P a n).foldl (fun d w => d.eccRead1 P w) d

/-- The first byte of the 16-byte beat that holds an address (01 R17). -/
def beatBase (a : Nat) : Nat := a - a % 16

/-- Bytes of the beats that a range of bytes takes. -/
def beatSpan (a n : Nat) : Nat := (a % 16 + n + 15) / 16 * 16

/-- A read by beats: every ECC word of the beats is checked (01 R22, R399). -/
def Dev.beatRead (P : Part) (d : Dev) (a n : Nat) : Dev := d.eccRead P (beatBase a) (beatSpan a n)

/-- A range holds an uncorrectable error. -/
def Dev.eccBad (P : Part) (d : Dev) (a n : Nat) : Bool := (eccWords P a n).any fun w => d.mark w == some .double

/-- ECC of a write of one word's bytes (01 R22, R398): a whole word removes any error; a partial one merges, corrects a single-bit error and keeps an uncorrectable one. -/
def Dev.eccWrite1 (P : Part) (a n : Nat) (d : Dev) (w : Nat) : Dev :=
  if a ≤ w ∧ w + eccSize (regionOf P w) ≤ a + n then d.setMark w none
  else match d.mark w with
    | some (.single r) => (if r then d else d.raise 52 (nword w)).setMark w none
    | some .double => d.raise 53 (nword w)
    | none => d

/-- How many of n bytes from an address come before the absent part of LS (01 R21). -/
def presentLen (P : Part) (a n : Nat) : Nat :=
  if 0x2000000 ≤ a ∧ a < 0x2000000 + P.lsBytes ∧ regionOf P (0x2000000 + P.lsBytes) = .lsAbsent then min n (0x2000000 + P.lsBytes - a) else n

/-- The ECC mark that a read of the old word finds in the cycle of a write (07 R163, R164): that before the write; a single-bit error that a partial write's merge has reported counts as reported (01 R398). -/
def markBefore (k : Option EccMark) (whole : Bool) : Option EccMark :=
  match k with
  | some (.single r) => some (.single (r || !whole))
  | k => k

/-- Bytes of SH that are about to be written in a cycle, noted with their ECC marks as they stood before it (07 R163). -/
def Mem.note (m : Mem) (ecc : Tab EccMark) (cycle a n : Nat) : Mem :=
  if a + n ≤ 0x1000000 ∨ 0x1200000 ≤ a then m
  else
    let old := if m.wasAt = cycle then m.was else []
    let marks := if m.wasAt = cycle then m.wasMark else []
    { m with
      wasAt := cycle
      wasMark := (((List.range n).map fun i => (a + i) / 4 * 4).dedup).foldl (fun t w =>
        if (t.lookup w).isSome then t else tabIns w (markBefore (ecc.lookup w) (decide (a ≤ w ∧ w + 4 ≤ a + n))) t) marks
      was := ((List.range n).map (a + ·)).foldl (fun t x => if (t.lookup x).isSome then t else tabIns x (memGet m x) t) old }

/-- A byte of memory as it stood at the start of the present cycle, which is kept for SH (07 R163). -/
def Dev.byteWas (d : Dev) (a : Nat) : Byte :=
  match if d.mem.wasAt = d.cycle then d.mem.was.lookup a else none with
  | some b => b
  | none => d.byte a

/-- A word of memory as it stood at the start of the present cycle (07 R163). -/
def Dev.wordWas (d : Dev) (a : Nat) : Word := nword (leNat ((List.range 4).map fun i => d.byteWas (a + i)))

/-- The ECC mark of a word of SH as it stood at the start of the present cycle (07 R163, R164). -/
def Dev.markWas (d : Dev) (w : Nat) : Option EccMark :=
  match if d.mem.wasAt = d.cycle then d.mem.wasMark.lookup w else none with
  | some k => k
  | none => d.mark w

/-- Bytes stored through a target port with the ECC rules of a write. -/
def Dev.storeAll (P : Part) (d : Dev) (a : Nat) (bs : List Byte) : Dev :=
  let ecc := d.ecc
  let d := (eccWords P a bs.length).foldl (fun d w => d.eccWrite1 P a bs.length w) d
  ({ d with mem := d.mem.note ecc d.cycle a bs.length }).poke a bs

/-- Bytes stored through a target port, with the ECC rules of a write; an absent part of LS ignores them and sets ABSENT (01 R21). -/
def Dev.store (P : Part) (d : Dev) (a : Nat) (bs : List Byte) : Dev :=
  if regionOf P a = .lsAbsent then d.setAbsent
  else if presentLen P a bs.length < bs.length then (d.storeAll P a (bs.take (presentLen P a bs.length))).setAbsent
  else d.storeAll P a bs

/-- The n low bytes of a word. -/
def lowBytes (w : Word) (n : Nat) : List Byte := (wordBytes w).take n

/-- A load's value: zero and ABSENT from an absent part of LS (01 R21). -/
def Dev.fetchLE (P : Part) (d : Dev) (a n : Nat) : Word := if regionOf P a = .lsAbsent then 0 else d.loadLE a n

/-- A byte as a read returns it: zero from an absent part of LS (01 R21). -/
def Dev.readByte (P : Part) (d : Dev) (a : Nat) : Byte := if regionOf P a = .lsAbsent then 0 else d.byte a

/-! ### Trace -/

/-- A write of one beat put out by an engine at the port of its address (01 R17). -/
def Dev.putLate (P : Part) (d : Dev) (m : Master) (a : Nat) (bs : List Byte) : Dev :=
  { d with late := d.late ++ [⟨m, portOf (regionOf P a), a, bs, d.cycle⟩] }

/-- The beats that engines have put out are all accepted. -/
def Dev.lateAll (P : Part) (d : Dev) : Dev := d.late.foldl (fun d w => d.store P w.addr w.bytes) { d with late := [] }

/-- TRC_CTL. -/
def Dev.trcCtl (d : Dev) : Word := d.reg 0xF0000

/-- A context is traced (14 R349). -/
def Dev.traced (d : Dev) (c : CtxId) : Bool :=
  bit d.trcCtl 0 && (d.reg 0xF0014 ++ d.reg 0xF0010).getLsbD c.val

/-- RUN code of a run state (03 R91). -/
def runCode : Run → Nat
  | .stopped => 0
  | .ready => 1
  | .waiting => 2

/-- Run state and FROZEN as trace packets show them. -/
def runBits (x : Ctx) : Word := place (runCode x.run) 0 ||| flag x.frozen 2

/-- A trace packet of a type, context and two words, stamped with STB (14 R349). -/
def Dev.packet (d : Dev) (typ : Nat) (c : Nat) (w2 w3 : Word) : Vector Word 4 :=
  #v[place typ 0 ||| place c 4 ||| ((d.stb.extractLsb' 32 16).setWidth 32 <<< 16), d.stb.extractLsb' 0 32, w2, w3]

/-- Whether a packet finds room (14 R350); while master 83 is frozen none goes to PD (03 R78), and it is lost as one that finds no room (DEDUCED, log 111). -/
def Dev.trcRoom (d : Dev) : Bool :=
  if bit d.trcCtl 1 then decide (d.pwr.tFifo.length < 256)
  else !d.frozen .debug && !(bit d.trcCtl 2 && (d.pwr.tWptr + 1) % 4096 == fld (d.reg 0xF000C) 4 12)

/-- A packet placed where room was found: in the FIFO, or put out by master 83 at the PD port. -/
def Dev.trcPlace (P : Part) (d : Dev) (k : Vector Word 4) : Dev :=
  if bit d.trcCtl 1 then d.updPwr fun p => { p with tFifo := p.tFifo ++ [k], tSince := p.tSince + 1 }
  else
    let a := fld (d.reg 0xF0004) 16 4 * 65536 + d.pwr.tWptr * 16
    (d.putLate P .debug a (k.toList.flatMap wordBytes)).updPwr fun p =>
      let w := (p.tWptr + 1) % 4096
      { p with
        tWptr := w
        tSince := p.tSince + 1
        tWrapped := p.tWrapped || w == fld (d.reg 0xF000C) 4 12
        tFull := (w + 1) % 4096 == fld (d.reg 0xF000C) 4 12 }

/-- A packet lost (14 R352). -/
def Dev.trcLose (d : Dev) : Dev :=
  d.updPwr fun p => { p with
    tLost := if p.tLost = 0xFFFFFFFF then p.tLost else p.tLost + 1
    tOwed := min (p.tOwed + 1) 0xFFFFFFFF }

/-- A packet placed, or lost for want of room. -/
def Dev.trcTry (P : Part) (d : Dev) (k : Vector Word 4) : Dev := if d.trcRoom then d.trcPlace P k else d.trcLose

/-- The SYNC group: one packet for each traced context that is not STOPPED (14 R349). -/
def Dev.trcSync (P : Part) (d : Dev) : Dev :=
  let cs := (List.finRange 64).filter fun c => d.traced c && (d.ctx[c]).run != .stopped
  let d := d.updPwr fun p => { p with tSince := 0 }
  cs.foldl (fun d c => d.trcTry P (d.packet 4 c.val (d.ctx[c]).pc (runBits d.ctx[c] ||| flag (cs.getLast? == some c) 3))) d

/-- A SYNC group when tracing is on. -/
def Dev.trcSyncOn (P : Part) (d : Dev) : Dev := if bit d.trcCtl 0 then d.trcSync P else d

/-- A GAP and its SYNC group, once packets have been lost and there is room again (14 R352). -/
def Dev.trcGap (P : Part) (d : Dev) : Dev :=
  if decide (0 < d.pwr.tOwed) && d.trcRoom
  then ((d.trcPlace P (d.packet 7 0 (nword d.pwr.tOwed) 0)).updPwr fun p => { p with tOwed := 0 }).trcSync P
  else d

/-- The SYNC group of a start of the trace (14 R349); the one that follows a GAP serves (R352). -/
def Dev.trcStart (P : Part) (d : Dev) : Dev := if decide (0 < d.pwr.tOwed) && d.trcRoom then d.trcGap P else d.trcSync P

/-- A packet written to the trace (14 R349-R352): a GAP and a SYNC group go before it when packets have been lost, and a SYNC group follows every 1,024 packets. -/
def Dev.trcWrite (P : Part) (d : Dev) (k : Vector Word 4) : Dev :=
  let d := (d.trcGap P).trcTry P k
  if 1024 ≤ d.pwr.tSince then d.trcSync P else d

/-- A SUSPEND packet (14 R351): none while it finds no room, for which the gating waits. The gating waits until the packet has been accepted, so what master 83 has put out is written (log 109). -/
def Dev.trcSuspend (P : Part) (d : Dev) (kind : Nat) : Option Dev :=
  if !bit d.trcCtl 0 then some d
  else if (d.trcGap P).trcRoom then some ((d.trcWrite P (d.packet 5 0 (place kind 0) 0)).lateAll P) else none

/-- A packet of a context, written when the context is traced. -/
def Dev.trace (P : Part) (d : Dev) (c : CtxId) (typ : Nat) (w2 w3 : Word) : Dev :=
  if d.traced c then d.trcWrite P (d.packet typ c.val w2 w3) else d

/-- A RESUME packet, which belongs to no context (14 R351). -/
def Dev.traceGlobal (P : Part) (d : Dev) (typ : Nat) (w2 w3 : Word) : Dev :=
  if bit d.trcCtl 0 then d.trcWrite P (d.packet typ 0 w2 w3) else d

/-- The sequencer of a context (01 R15). -/
def sequencerOf (c : CtxId) : Fin 2 := if c.val < 32 then 0 else 1

/-- The context may issue as far as its run state goes. -/
def Ctx.awake (x : Ctx) : Bool := x.run == .ready && !x.frozen

/-- A gated sequencer's clock restarts (14 R322, R351): RESUME and a SYNC group. -/
def Dev.ungate (P : Part) (d : Dev) (q : Fin 2) : Dev :=
  if d.pwr.gated[q] then ((d.updPwr fun p => { p with gated := p.gated.set q false }).traceGlobal P 6 (place (q.val + 1) 0) 0).trcSyncOn P else d

/-- A context's run state or FROZEN changed (14 R322, R349): a STATE packet tells a difference, and a context that may issue again restarts its sequencer. -/
def Dev.setRun (P : Part) (d : Dev) (c : CtxId) (f : Ctx → Ctx) : Dev :=
  let x := d.ctx[c]
  let d1 := d.updCtx c f
  let y := d1.ctx[c]
  let d1 := if y.awake && !x.awake then d1.ungate P (sequencerOf c) else d1
  if x.run = y.run ∧ x.frozen = y.frozen then d1 else d1.trace P c 3 (runBits y) y.pc

/-! ### Fault records and freezing -/

/-- What a fault record tells of the access (03 "Fault record layout"). -/
structure Access where
  addr : Word := 0
  size : Nat := 0
  write : Bool := false
  fetch : Bool := false
  atomic : Bool := false
  deriving DecidableEq, Repr

/-- SIZE code of an access of n bytes. -/
def sizeCode (n : Nat) : Nat := if n = 1 then 0 else if n = 2 then 1 else if n = 4 then 2 else 3

/-- SYS_FR_RIDX written (16 R364). -/
def Sys.setRidx (y : Sys) (v : Word) : Sys :=
  let r := v.extractLsb' 0 6
  { y with
    frR := r
    frPend := if y.frW = r then (if y.frPend = 64 then 64 else 0) else (y.frW - r).toNat }

/-- The ring indices after a record: the 65th unread one overwrites the oldest (16 R364). -/
def Sys.recorded (y : Sys) : Sys :=
  { y with
    frW := y.frW + 1
    frSeq := y.frSeq + 1
    frR := if y.frPend = 64 then y.frW + 1 else y.frR
    frPend := if y.frPend = 64 then 64 else y.frPend + 1
    frOver := y.frOver || y.frPend == 64 }

/-- The ring indices after a record in a cycle: it goes before a write of SYS_FR_RIDX of the same cycle (16 R364). -/
def Sys.recordAt (y : Sys) (cycle : Nat) : Sys :=
  if y.ridxAt = some cycle then
    let z := { y with frR := y.ridxWas.1, frPend := y.ridxWas.2 }.recorded
    { z with ridxWas := (z.frR, z.frPend) }.setRidx (y.frR.setWidth 32)
  else y.recorded

/-- w7 of the fault record with a SEQ (03 R81). -/
def seqWord (q : Half) : Word := q.setWidth 32 ||| ((~~~q).setWidth 32 <<< 16)

/-- Records of so many masters written in the ring from an index and a SEQ on, w0 to w6 of each in order. -/
def Dev.writeRecords (P : Part) : List (Nat × List Word) → BitVec 6 → Half → Dev → Dev
  | [], _, _, d => d
  | r :: rs, i, q, d => Dev.writeRecords P rs (i + 1) (q + 1) (d.store P (0x3000000 + 32 * i.toNat) ((r.2 ++ [seqWord q]).flatMap wordBytes))

/-- Records written so far in the present cycle, in ring order. -/
def Dev.recordsNow (d : Dev) : List (Nat × List Word) := if d.sys.frAt = d.cycle then d.sys.frNow else []

/-- A fault record written in the ring, with its indices, and event 51 raised (03 R79, R81, 16 R364). Records of one cycle stand in ascending master number: those of higher masters move up by one. -/
def Dev.record (P : Part) (d : Dev) (m : Nat) (cause : Nat) (froze : Bool) (pc : Word) (x : Access) (s : Bool) (insn : Word) (st : Word) : Dev :=
  let y := d.sys
  let ws : List Word := [
    place m 0 ||| place cause 8 ||| flag froze 16, pc, x.addr,
    place (sizeCode x.size) 0 ||| flag x.write 2 ||| flag x.fetch 3 ||| flag x.atomic 4 ||| flag s 5,
    insn, d.stb.extractLsb' 0 32, (d.stb.extractLsb' 32 16).setWidth 32 ||| (st <<< 16)]
  let upTo := d.recordsNow.filter fun r => decide (r.1 ≤ m)
  let above := d.recordsNow.filter fun r => decide (m < r.1)
  let k := above.length
  let d := Dev.writeRecords P ((m, ws) :: above) (y.frW - BitVec.ofNat 6 k) (y.frSeq - BitVec.ofNat 16 k) d
  let d := d.updSys fun y => { y.recordAt d.cycle with frNow := upTo ++ (m, ws) :: above, frAt := d.cycle }
  d.raise 51 (place m 0 ||| place cause 8 ||| (y.frSeq.setWidth 32 <<< 16))

/-- CTX_n_ST (03 R91). -/
def stWord (x : Ctx) : Word := flag x.z 0 ||| flag x.n 1 ||| flag x.c 2 ||| flag x.v 3 ||| flag x.abs 4 ||| flag x.priv 5 ||| flag x.frozen 6

/-- A context frozen by a violation (03 R76, R77): FROZEN and LASTCAUSE set, urgency over, and a record with the PC and ST as they stood. -/
def Dev.freezeCtx (P : Part) (d : Dev) (c : CtxId) (cause : Nat) (x : Access) (insn : Word) : Dev :=
  let k := d.ctx[c]
  (d.setRun P c fun k => { k with frozen := true, lastCause := BitVec.ofNat 8 cause, urgent := 0 }).record P c.val cause true k.pc x k.priv insn (stWord k)

/-- A master other than a context frozen (03 R78); masters 85 and 86 never freeze. -/
def Dev.freezeMst (P : Part) (d : Dev) (m : Master) (cause : Nat) (pc : Word) (x : Access) (insn : Word) : Dev :=
  match m with
  | .ctx c => d.freezeCtx P c cause x insn
  | .writer => d
  | .mgmt => (d.updSys fun y => { y with mgmtErr := true }).record P 86 0x20 false 0 x false 0 0
  | m => ({ d with mfrozen := d.mfrozen ||| (1#21 <<< (mnum m - 64)) }).record P (mnum m) cause true pc x false insn 0

end Sys2Proof.Machine
end

