-- ==== Sys2Proof/Machine/Operands.lean ====
section
/-!
DEFINITION. Operands of the Junath instructions: register reads and writes, the second operand, the three formats of an instruction word, and which words are legal (04 R92-R95).
-/
namespace Sys2Proof.Machine

/-- A general register as an instruction reads it: g0 reads 0 (03 "Per-context state"). -/
def Ctx.rd (x : Ctx) (r : Reg) : Word := if r = 0 then 0 else x.g[r]

/-- A general register as an instruction writes it: writes to g0 are discarded. -/
def Ctx.wr (x : Ctx) (r : Reg) (v : Word) : Ctx := if r = 0 then x else { x with g := x.g.set r v }

/-- The second operand of an A-format ALU instruction (04 R95). -/
def Ctx.opB (x : Ctx) (gb : Reg) (imm : Imm14) : Word := x.rd gb + sext imm

/-- The address of an I-format load or store (04 R99). -/
def Ctx.addr18 (x : Ctx) (ga : Reg) (imm : Imm18) : Word := x.rd ga + sext imm

/-- The address of SWAP and CAS, and the target of JR (04 R100, R103). -/
def Ctx.addr14 (x : Ctx) (ga : Reg) (imm : Imm14) : Word := x.rd ga + sext imm

/-- Target of a branch at pc (04 R102). -/
def branchTarget (pc : Word) (imm : Imm14) : Word := pc + (sext imm <<< 2)

/-- Target of a JAL at pc (04 R103). -/
def jumpTarget (pc : Word) (imm : Imm26) : Word := pc + (sext imm <<< 2)

/-- A signed 48-bit value gd[15:0] : ga of a LINE START or MOVE (04 R112). -/
def Ctx.pair48 (x : Ctx) (gd ga : Reg) : Int := pos48 (x.rd gd) (x.rd ga)

/-- An A-format word (04 R92). -/
def fmtA (op : Nat) (gd ga gb : Reg) (imm : Imm14) : Word :=
  place op 26 ||| place gd.val 22 ||| place ga.val 18 ||| place gb.val 14 ||| imm.setWidth 32

/-- An I-format word. -/
def fmtI (op : Nat) (gd ga : Reg) (imm : Imm18) : Word := place op 26 ||| place gd.val 22 ||| place ga.val 18 ||| imm.setWidth 32

/-- A J-format word. -/
def fmtJ (op : Nat) (imm : Imm26) : Word := place op 26 ||| imm.setWidth 32

/-- The unused fields of a word are zero: gd, ga and gb as told, and every bit of imm14 outside a mask. -/
def unusedOk (w : Word) (gd ga gb : Bool) (imm : Word) : Bool :=
  w &&& ((if gd then mask 22 4 else 0) ||| (if ga then mask 18 4 else 0) ||| (if gb then mask 14 4 else 0) ||| (mask 0 14 &&& ~~~imm)) == 0

/-- The legal words of a branch opcode, with its absence form or without (04 R102). -/
def branchLegal (w : Word) (absForm : Bool) : Bool :=
  match fld w 22 4 with
  | 0 => true
  | 1 => unusedOk w false true true (mask 0 14)
  | 2 => absForm && unusedOk w false true true (mask 0 14)
  | _ => false

/-- A legal instruction word (04 R93, R94 and the "Unused" entries of the instruction tables). -/
def legalWord (w : Word) : Bool :=
  let f := fld w 0 14
  match fld w 26 6 with
  | 0x01 => true
  | 0x02 => true
  | 0x03 => true
  | 0x04 => true
  | 0x05 => true
  | 0x06 => true
  | 0x07 => true
  | 0x08 => true
  | 0x09 => true
  | 0x0A => true
  | 0x0B => true
  | 0x0C => true
  | 0x0D => fld w 22 4 == 0
  | 0x0E => true
  | 0x0F => fld w 18 4 == 0
  | 0x10 => true
  | 0x11 => true
  | 0x12 => true
  | 0x13 => true
  | 0x14 => true
  | 0x15 => true
  | 0x16 => true
  | 0x17 => true
  | 0x18 => (f == 1 || f == 2) && fld w 14 12 == 0
  | 0x1C => decide (1 ≤ fld w 0 4 ∧ fld w 0 4 ≤ 5) && unusedOk w true false true 0xF
  | 0x1D => unusedOk w false false false 3
  | 0x1E => f == 0 && unusedOk w true false true (mask 0 14)
  | 0x1F =>
    if f = 1 ∨ f = 2 then unusedOk w true true true (mask 0 14)
    else f == 3 && unusedOk w false false true (mask 0 14)
  | 0x20 => branchLegal w true
  | 0x21 => branchLegal w true
  | 0x22 => branchLegal w false
  | 0x23 => branchLegal w false
  | 0x24 => branchLegal w false
  | 0x25 => true
  | 0x26 => fld w 14 4 == 0
  | 0x28 => unusedOk w true false false 0
  | 0x29 => unusedOk w true false true 3
  | 0x2A => fld w 0 26 == 0
  | 0x2B => fld w 0 26 == 0
  | 0x2C => unusedOk w false false true 0 && (fld w 22 4 != fld w 18 4 || fld w 22 4 == 0)
  | 0x30 => f == 0 || (f == 1 && unusedOk w true true true (mask 0 14))
  | 0x31 => unusedOk w true true true 7
  | 0x32 => fld w 1 2 != 3 && unusedOk w (fld w 1 2 == 2) false true 7
  | 0x33 => unusedOk w true true true 1
  | 0x34 => unusedOk w true false true 0xF
  | 0x35 => unusedOk w true true true 0xF
  | 0x36 =>
    match fld w 0 2 with
    | 0 => unusedOk w true true true 3
    | 1 => unusedOk w true true true 0xF7
    | 2 => unusedOk w true true true 3
    | _ => false
  | 0x37 => unusedOk w false true true 0x1F
  | 0x38 => unusedOk w true true true 7
  | 0x39 => decide (f ≤ 2) && unusedOk w true true true (mask 0 14)
  | 0x3A =>
    match f with
    | 0 => unusedOk w true false false (mask 0 14)
    | 1 => unusedOk w true false true (mask 0 14)
    | 2 => unusedOk w true false true (mask 0 14)
    | 3 => unusedOk w false false true (mask 0 14)
    | _ => false
  | 0x3B => f == 0 && unusedOk w false true true (mask 0 14)
  | _ => false

end Sys2Proof.Machine
end

