-- ==== Sys2Proof/Decode.lean ====
section
/-!
DEFINITION. The Junath decoder: the instruction of a context that a 32-bit word names, by the formats and the opcode map (04 R92-R94, R98-R114), its inverse, and what the table of steps gives bits for.
-/
namespace Sys2Proof

open Sys2Proof.Machine

/-- The command that a word spells by the bits of spec/opcode_table.json: none, since no row has bits. -/
def decodeTableWord (_nbits _w : Nat) : Option Instr := none

/-- The gd field of a word (04 R92). -/
def fieldD (w : Word) : Reg := Fin.ofNat 16 (fld w 22 4)
/-- The ga field. -/
def fieldA (w : Word) : Reg := Fin.ofNat 16 (fld w 18 4)
/-- The gb field. -/
def fieldB (w : Word) : Reg := Fin.ofNat 16 (fld w 14 4)
/-- imm14. -/
def field14 (w : Word) : Imm14 := w.extractLsb' 0 14
/-- imm18. -/
def field18 (w : Word) : Imm18 := w.extractLsb' 0 18
/-- imm26. -/
def field26 (w : Word) : Imm26 := w.extractLsb' 0 26

/-- The ALU and memory groups and control transfers, by their opcode (04 R94, R98-R104). -/
def decodePlain (c : CtxId) (w : Word) : Instr :=
  let gd := fieldD w
  let ga := fieldA w
  let gb := fieldB w
  let i14 := field14 w
  let i18 := field18 w
  let form := fld w 22 4
  match fld w 26 6 with
  | 0x01 => .add c gd ga gb i14
  | 0x02 => .sub c gd ga gb i14
  | 0x03 => .and c gd ga gb i14
  | 0x04 => .or c gd ga gb i14
  | 0x05 => .xor c gd ga gb i14
  | 0x06 => .shl c gd ga gb i14
  | 0x07 => .shr c gd ga gb i14
  | 0x08 => .sra c gd ga gb i14
  | 0x09 => .mul c gd ga gb i14
  | 0x0A => .mulh c gd ga gb i14
  | 0x0B => .min c gd ga gb i14
  | 0x0C => .max c gd ga gb i14
  | 0x0D => .cmp c ga gb i14
  | 0x0E => .addi c gd ga i18
  | 0x0F => .lui c gd i18
  | 0x10 => .ldw c gd ga i18
  | 0x11 => .ldh c gd ga i18
  | 0x12 => .ldb c gd ga i18
  | 0x13 => .stw c gd ga i18
  | 0x14 => .sth c gd ga i18
  | 0x15 => .stb c gd ga i18
  | 0x16 => .swap c gd ga gb i14
  | 0x17 => .cas c gd ga gb i14
  | 0x18 => if fld w 0 14 = 1 then .fenceSl c else .fenceAll c
  | 0x20 => if form = 0 then .beq c ga gb i14 else if form = 1 then .beqF c i14 else .beqA c i14
  | 0x21 => if form = 0 then .bne c ga gb i14 else if form = 1 then .bneF c i14 else .bneA c i14
  | 0x22 => if form = 0 then .blt c ga gb i14 else .bltF c i14
  | 0x23 => if form = 0 then .bge c ga gb i14 else .bgeF c i14
  | 0x24 => if form = 0 then .bltu c ga gb i14 else .bltuF c i14
  | 0x25 => .jal c (field26 w)
  | 0x26 => .jr c gd ga i14
  | _ => .illegalOp c w

/-- The scheduling, device and supervisor groups, by opcode and function code (04 R94, R105-R114). -/
def decodeFunction (c : CtxId) (w : Word) : Instr :=
  let gd := fieldD w
  let ga := fieldA w
  let gb := fieldB w
  let f := fld w 0 14
  let axis : AxisId := Fin.ofNat 2 (fld w 0 1)
  match fld w 26 6 with
  | 0x1C => match fld w 0 4 with
    | 1 => .ctxStart c ga
    | 2 => .ctxStop c ga
    | 3 => .ctxReset c ga
    | 4 => .ctxSetU c ga
    | _ => .ctxSetS c ga
  | 0x1D => .win c (Fin.ofNat 4 (fld w 0 2)) gd ga gb
  | 0x1E => .thaw c ga
  | 0x1F => if f = 1 then .sysReset c else if f = 2 then .sysStandby c else .sysFuse c gd ga
  | 0x28 => .wait c ga gb
  | 0x29 => .emit c (Fin.ofNat 4 (fld w 0 2)) ga
  | 0x2A => .yield c
  | 0x2B => .halt c
  | 0x2C => .ts c gd ga
  | 0x30 => if f = 0 then .lineStart c gd ga gb else .lineStop c
  | 0x31 => .arm c (Fin.ofNat 4 (fld w 0 2)) (Fin.ofNat 2 (fld w 2 1))
  | 0x32 => if fld w 1 2 = 0 then .moveTo c axis gd ga else if fld w 1 2 = 1 then .moveBy c axis gd ga else .moveRun c axis gd ga
  | 0x33 => .mstop c axis
  | 0x34 => .xfer c (Fin.ofNat 16 (fld w 0 4)) ga
  | 0x35 => .dring c (Fin.ofNat 16 (fld w 0 4))
  | 0x36 => if fld w 0 2 = 0 then .hkreqSeq c else if fld w 0 2 = 1 then .hkreqUrgent c (Fin.ofNat 2 (fld w 2 1)) (Fin.ofNat 16 (fld w 4 4)) else .hkreqStop c
  | 0x37 => .hkrd c gd (Fin.ofNat 16 (fld w 0 4)) (bit w 4)
  | 0x38 => .key c (Fin.ofNat 8 (fld w 0 3))
  | 0x39 => if f = 0 then .seamFreeze c else if f = 1 then .seamResume c else .seamReset c
  | 0x3A => if f = 0 then .credGrant c ga gb else if f = 1 then .credClose c ga else if f = 2 then .credOpen c ga else .credRead c gd ga
  | 0x3B => .caps c gd
  | _ => decodePlain c w

/-- The instruction of a context that a word names; a word that is not legal is an illegal operation (04 R92-R94). -/
def decodeInsn (c : CtxId) (w : Word) : Instr := if legalWord w then decodeFunction c w else .illegalOp c w

/-- The word of an instruction, and its context (04 R92); none for a command that is no instruction. -/
def encodeInsn : Instr → Option (CtxId × Word)
  | .add c gd ga gb i => some (c, fmtA 0x01 gd ga gb i)
  | .sub c gd ga gb i => some (c, fmtA 0x02 gd ga gb i)
  | .and c gd ga gb i => some (c, fmtA 0x03 gd ga gb i)
  | .or c gd ga gb i => some (c, fmtA 0x04 gd ga gb i)
  | .xor c gd ga gb i => some (c, fmtA 0x05 gd ga gb i)
  | .shl c gd ga gb i => some (c, fmtA 0x06 gd ga gb i)
  | .shr c gd ga gb i => some (c, fmtA 0x07 gd ga gb i)
  | .sra c gd ga gb i => some (c, fmtA 0x08 gd ga gb i)
  | .mul c gd ga gb i => some (c, fmtA 0x09 gd ga gb i)
  | .mulh c gd ga gb i => some (c, fmtA 0x0A gd ga gb i)
  | .min c gd ga gb i => some (c, fmtA 0x0B gd ga gb i)
  | .max c gd ga gb i => some (c, fmtA 0x0C gd ga gb i)
  | .cmp c ga gb i => some (c, fmtA 0x0D 0 ga gb i)
  | .addi c gd ga i => some (c, fmtI 0x0E gd ga i)
  | .lui c gd i => some (c, fmtI 0x0F gd 0 i)
  | .ldw c gd ga i => some (c, fmtI 0x10 gd ga i)
  | .ldh c gd ga i => some (c, fmtI 0x11 gd ga i)
  | .ldb c gd ga i => some (c, fmtI 0x12 gd ga i)
  | .stw c gd ga i => some (c, fmtI 0x13 gd ga i)
  | .sth c gd ga i => some (c, fmtI 0x14 gd ga i)
  | .stb c gd ga i => some (c, fmtI 0x15 gd ga i)
  | .swap c gd ga gb i => some (c, fmtA 0x16 gd ga gb i)
  | .cas c gd ga gb i => some (c, fmtA 0x17 gd ga gb i)
  | .fenceSl c => some (c, fmtA 0x18 0 0 0 1)
  | .fenceAll c => some (c, fmtA 0x18 0 0 0 2)
  | .beq c ga gb i => some (c, fmtA 0x20 0 ga gb i)
  | .bne c ga gb i => some (c, fmtA 0x21 0 ga gb i)
  | .blt c ga gb i => some (c, fmtA 0x22 0 ga gb i)
  | .bge c ga gb i => some (c, fmtA 0x23 0 ga gb i)
  | .bltu c ga gb i => some (c, fmtA 0x24 0 ga gb i)
  | .beqF c i => some (c, fmtA 0x20 1 0 0 i)
  | .bneF c i => some (c, fmtA 0x21 1 0 0 i)
  | .bltF c i => some (c, fmtA 0x22 1 0 0 i)
  | .bgeF c i => some (c, fmtA 0x23 1 0 0 i)
  | .bltuF c i => some (c, fmtA 0x24 1 0 0 i)
  | .beqA c i => some (c, fmtA 0x20 2 0 0 i)
  | .bneA c i => some (c, fmtA 0x21 2 0 0 i)
  | .jal c i => some (c, fmtJ 0x25 i)
  | .jr c gd ga i => some (c, fmtA 0x26 gd ga 0 i)
  | .illegalOp c w => some (c, w)
  | .wait c ga gb => some (c, fmtA 0x28 0 ga gb 0)
  | .emit c n ga => some (c, fmtA 0x29 0 ga 0 (BitVec.ofNat 14 n.val))
  | .yield c => some (c, fmtJ 0x2A 0)
  | .halt c => some (c, fmtJ 0x2B 0)
  | .ts c gd ga => some (c, fmtA 0x2C gd ga 0 0)
  | .lineStart c gd ga gb => some (c, fmtA 0x30 gd ga gb 0)
  | .lineStop c => some (c, fmtA 0x30 0 0 0 1)
  | .arm c p b => some (c, fmtA 0x31 0 0 0 (BitVec.ofNat 14 (p.val + 4 * b.val)))
  | .moveTo c m gd ga => some (c, fmtA 0x32 gd ga 0 (BitVec.ofNat 14 m.val))
  | .moveBy c m gd ga => some (c, fmtA 0x32 gd ga 0 (BitVec.ofNat 14 (2 + m.val)))
  | .moveRun c m gd ga => some (c, fmtA 0x32 gd ga 0 (BitVec.ofNat 14 (4 + m.val)))
  | .mstop c m => some (c, fmtA 0x33 0 0 0 (BitVec.ofNat 14 m.val))
  | .seamFreeze c => some (c, fmtA 0x39 0 0 0 0)
  | .seamResume c => some (c, fmtA 0x39 0 0 0 1)
  | .seamReset c => some (c, fmtA 0x39 0 0 0 2)
  | .caps c gd => some (c, fmtA 0x3B gd 0 0 0)
  | .credGrant c ga gb => some (c, fmtA 0x3A 0 ga gb 0)
  | .credClose c ga => some (c, fmtA 0x3A 0 ga 0 1)
  | .credOpen c ga => some (c, fmtA 0x3A 0 ga 0 2)
  | .credRead c gd ga => some (c, fmtA 0x3A gd ga 0 3)
  | .xfer c ch ga => some (c, fmtA 0x34 0 ga 0 (BitVec.ofNat 14 ch.val))
  | .dring c ch => some (c, fmtA 0x35 0 0 0 (BitVec.ofNat 14 ch.val))
  | .hkreqSeq c => some (c, fmtA 0x36 0 0 0 0)
  | .hkreqUrgent c u e => some (c, fmtA 0x36 0 0 0 (BitVec.ofNat 14 (1 + 4 * u.val + 16 * e.val)))
  | .hkreqStop c => some (c, fmtA 0x36 0 0 0 2)
  | .hkrd c gd e peek => some (c, fmtA 0x37 gd 0 0 (BitVec.ofNat 14 (e.val + 16 * peek.toNat)))
  | .key c k => some (c, fmtA 0x38 0 0 0 (BitVec.ofNat 14 k.val))
  | .ctxStart c ga => some (c, fmtA 0x1C 0 ga 0 1)
  | .ctxStop c ga => some (c, fmtA 0x1C 0 ga 0 2)
  | .ctxReset c ga => some (c, fmtA 0x1C 0 ga 0 3)
  | .ctxSetU c ga => some (c, fmtA 0x1C 0 ga 0 4)
  | .ctxSetS c ga => some (c, fmtA 0x1C 0 ga 0 5)
  | .win c k gd ga gb => some (c, fmtA 0x1D gd ga gb (BitVec.ofNat 14 k.val))
  | .thaw c ga => some (c, fmtA 0x1E 0 ga 0 0)
  | .sysReset c => some (c, fmtA 0x1F 0 0 0 1)
  | .sysStandby c => some (c, fmtA 0x1F 0 0 0 2)
  | .sysFuse c gd ga => some (c, fmtA 0x1F gd ga 0 3)
  | _ => none

end Sys2Proof
end

