-- ==== Sys2Proof/Machine/Flags.lean ====
section
/-!
DEFINITION. Results and flags of the ALU instructions (04 R96, R98).
-/
namespace Sys2Proof.Machine

/-- The flags Z, N, C and V that an instruction sets. -/
structure Flags where
  z : Bool
  n : Bool
  c : Bool
  v : Bool
  deriving DecidableEq, Repr

/-- A context with its flags replaced. -/
def Ctx.setFlags (x : Ctx) (f : Flags) : Ctx := { x with z := f.z, n := f.n, c := f.c, v := f.v }

/-- Z and N of a result, with C and V given. -/
def flagsOf (r : Word) (c v : Bool) : Flags := ⟨r == 0, r.msb, c, v⟩

/-- Addition: C is the carry out of bit 31, V signed overflow (04 R96). -/
def addR (a b : Word) : Word × Flags :=
  (a + b, flagsOf (a + b) (decide (2 ^ 32 ≤ a.toNat + b.toNat)) (decide ((a + b).toInt ≠ a.toInt + b.toInt)))

/-- Subtraction: C is the borrow, V signed overflow (04 R96). -/
def subR (a b : Word) : Word × Flags :=
  (a - b, flagsOf (a - b) (decide (a.toNat < b.toNat)) (decide ((a - b).toInt ≠ a.toInt - b.toInt)))

/-- A result with C = V = 0. -/
def logicR (r : Word) : Word × Flags := (r, flagsOf r false false)

/-- Left shift by b[4:0]: C is the last bit shifted out, 0 for a shift by 0. -/
def shlR (a b : Word) : Word × Flags :=
  let n := fld b 0 5
  (a <<< n, flagsOf (a <<< n) (n != 0 && bit a (32 - n)) false)

/-- Logical right shift by b[4:0]. -/
def shrR (a b : Word) : Word × Flags :=
  let n := fld b 0 5
  (a >>> n, flagsOf (a >>> n) (n != 0 && bit a (n - 1)) false)

/-- Arithmetic right shift by b[4:0]. -/
def sraR (a b : Word) : Word × Flags :=
  let n := fld b 0 5
  (a.sshiftRight n, flagsOf (a.sshiftRight n) (n != 0 && bit a (n - 1)) false)

/-- Low half of the product: V tells that the signed product does not fit. -/
def mulR (a b : Word) : Word × Flags :=
  (a * b, flagsOf (a * b) false (decide ((a * b).toInt ≠ a.toInt * b.toInt)))

/-- High half of the signed product. -/
def mulhR (a b : Word) : Word × Flags := logicR (iword (a.toInt * b.toInt / 2 ^ 32))

/-- Signed minimum. -/
def minR (a b : Word) : Word × Flags := logicR (if a.toInt ≤ b.toInt then a else b)

/-- Signed maximum. -/
def maxR (a b : Word) : Word × Flags := logicR (if a.toInt ≤ b.toInt then b else a)

end Sys2Proof.Machine
end

