-- ==== Sys2Proof/Machine/LineStore.lean ====
section
/-!
DEFINITION. The line store: geometry, slots and their transitions, hold masks and events 8 to 10 (09 R197-R204, R401).
-/
namespace Sys2Proof.Machine

/-- CK_CORE stands still: standby, wake and the wait for the reload (14 R324-R327). -/
def Dev.asleep (d : Dev) : Bool := d.phase == .standby || d.phase == .waking || d.phase == .reloading

/-- CAS_CHAIN_CTL.MODE, 3 acting as 0: 0 MULTIPLY, 1 WIDEN, 2 DEEPEN (13 R303). -/
def Dev.chainMode (P : Part) (d : Dev) : Nat :=
  if P.casc then (let m := fld (d.reg 0xC0004) 1 2; if m = 3 then 0 else m) else 0

/-- The effective role: 0 MEMBER, 1 MASTER, 2 PAIR_PRIMARY, 3 PAIR_SECONDARY (13 R295). -/
def Dev.role (P : Part) (d : Dev) : Nat :=
  if !P.casc then 1 else if 2 ≤ d.cas.strap.toNat ∧ !P.pair then 1 else d.cas.strap.toNat

/-- A pair role (13 R295). -/
def Dev.pairRole (P : Part) (d : Dev) : Bool := decide (2 ≤ d.role P)

/-- A member of a widened or deepened chain, where the master runs the Hinge (13 R304). -/
def Dev.slaved (P : Part) (d : Dev) : Bool := d.role P == 0 && d.chainMode P != 0

/-- A master that assembles members' segments (13 R306). -/
def Dev.assembling (P : Part) (d : Dev) : Bool := d.role P == 1 && d.chainMode P != 0

/-- The master of a chain, in every mode: a device with cascade links strapped MASTER (13 R295, R305). -/
def Dev.chainMaster (P : Part) (d : Dev) : Bool := P.casc && d.role P == 1

/-- A device stands below: link 2 has been through an EXCHANGE with one since reset (DEDUCED, log 85). -/
def Dev.downOk (d : Dev) : Bool := decide ((d.kl.links[(2 : LinkId)]).maxPay ≠ 0)

/-- A chain master tells its members of runs and seams (13 R305): where it assembles their segments, and in MULTIPLY unless it is SOLO, with LEN at most 1 (15 "Chain role"). -/
def Dev.tellsMembers (P : Part) (d : Dev) : Bool := d.assembling P || (d.chainMaster P && decide (1 < d.cas.len))

/-- NPL of PORT_CMODE (06 R143). -/
def Dev.npl (d : Dev) : Nat := fld (d.reg 0x30000) 0 2 + 1

/-- Identity of plane i of PORT_CMODE: 0 R, 1 G, 2 B, 3 X. -/
def Dev.planeId (d : Dev) (i : Nat) : Nat := fld (d.reg 0x30000) (8 + 6 * i) 2

/-- LED mask of plane i of PORT_CMODE. -/
def Dev.planeLeds (d : Dev) (i : Nat) : Nat := fld (d.reg 0x30000) (10 + 6 * i) 4

/-- A port's width, an odd one one less in the SPLIT arrangement (06 R135). -/
def Dev.portWidth (d : Dev) (p : PortId) : Nat :=
  let w := fld (d.portReg p 4) 0 14
  if fld (d.portReg p 0) 2 2 = 2 ∧ w % 2 = 1 then w - 1 else w

/-- The plane width of the device's own line (06 R147). -/
def Dev.width (d : Dev) : Nat := (d.portsOn.map d.portWidth).sum

/-- The plane width of a line: WTOT of CAS_GEOM where a master assembles one, the device's own otherwise (13 R306). -/
def Dev.lineWidth (P : Part) (d : Dev) : Nat :=
  if d.assembling P ∧ fld (d.reg 0xC000C) 0 17 ≠ 0 then fld (d.reg 0xC000C) 0 17 else d.width

/-- A number rounded up to a multiple. -/
def roundUp (n m : Nat) : Nat := (n + m - 1) / m * m

/-- The geometry of W pixels in n planes, with or without a tap, and a slot limit (09 R197). -/
def geomOf (lsBytes w n : Nat) (tap : Bool) (maxSlot : Nat) : Geom :=
  let pstr := roundUp (2 * w) 64
  let tstr := roundUp w 64
  let line := n * pstr + (if tap then n * tstr else 0)
  let k := max 1 (roundUp line 4096 / 4096)
  let ns := min 256 (lsBytes / (k * 4096))
  { nslot := if maxSlot = 0 then ns else min ns maxSlot, size4k := k, pstr := pstr, tstr := if tap then tstr else 0 }

/-- TAPEN in force: LS_CFG.TAPEN, acting as 0 in a widened or deepened chain, on its master and on its members (13 R306, 15 R361). -/
def Dev.tapOn (P : Part) (d : Dev) : Bool := bit (d.reg 0x70000) 0 && !d.assembling P && !d.slaved P

/-- The geometry that LINE START computes (09 R197, 13 R306). -/
def Dev.newGeom (P : Part) (d : Dev) : Geom :=
  let cfg := d.reg 0x70000
  let g := d.reg 0xC000C
  if d.assembling P ∧ fld g 0 17 ≠ 0 then geomOf P.lsBytes (fld g 0 17) (fld g 18 2 + 1) false (fld cfg 8 9)
  else geomOf P.lsBytes d.width d.npl (d.tapOn P) (fld cfg 8 9)

/-- First byte of slot n. -/
def Dev.slotBase (d : Dev) (n : Nat) : Nat := 0x2000000 + n * (d.ls.geom.size4k * 4096)

/-- Slots of the geometry in force. -/
def Dev.slotIds (d : Dev) : List (Fin 256) := (List.finRange 256).filter fun n => decide (n.val < d.ls.geom.nslot)

/-- Slots in a state (09 R199). -/
def Dev.slotCount (d : Dev) (s : SlotState) : Nat := (d.slotIds.filter fun n => (d.ls.slots[n]).st == s).length

/-- The lowest-numbered FREE slot; none while a new geometry waits (09 R200, R401). -/
def Dev.freeSlot (d : Dev) : Option (Fin 256) :=
  if d.ls.wait.isSome then none else d.slotIds.find? fun n => (d.ls.slots[n]).st == .free

/-- LS_LOWTH. -/
def Dev.lowTh (d : Dev) : Nat := fld (d.reg 0x7001C) 0 9

/-- Event 9 after the FREE count moved from `before` (09 R204). -/
def Dev.lowCheck (d : Dev) (before : Nat) : Dev :=
  let f := d.slotCount .free
  if d.ls.lowArmed ∧ d.lowTh < before ∧ f ≤ d.lowTh then
    ({ d with ls := { d.ls with lowArmed := false } }).raise 9 (nword f)
  else if d.lowTh < f then { d with ls := { d.ls with lowArmed := true } }
  else d

/-- A slot changed, with event 9 judged over the change. -/
def Dev.moveSlot (d : Dev) (n : Fin 256) (f : Slot → Slot) : Dev := (d.updSlot n f).lowCheck (d.slotCount .free)

/-- The correlator serves the seams of this run: present, enabled, and at least two lines deep (02 R52). -/
def Dev.corrInUse (P : Part) (d : Dev) : Bool :=
  P.corr && bit d.hngCtl 0 && bit d.hngCtl 1 && decide (2 ≤ d.hng.keff)

/-- A slot's line is one that R52 or R53 keeps pinned: never a line of an earlier run. -/
def Dev.kept (P : Part) (d : Dev) (s : Slot) : Bool :=
  !s.old && d.corrInUse P && match d.hng.st with
    | .off => false
    | .run => decide ((d.hng.lineNo - 1 - s.line).toNat < d.hng.keff + 3) && decide ((d.hng.lineNo - 1 - s.line).toNat < d.hng.fired)
    | _ => decide (3 ≤ (d.hng.lLast - s.line).toNat) && decide ((d.hng.lLast - s.line).toNat ≤ d.hng.keff + 2)

/-- A numbered line's slot whose hold mask is empty leaves FULL or DRAIN for PINNED or FREE (09 R202). -/
def Dev.settleSlot (P : Part) (d : Dev) (n : Fin 256) : Dev :=
  let s := d.ls.slots[n]
  if s.kind = .numbered ∧ (s.st = .full ∨ s.st = .drain) ∧ s.hold = 0 then
    d.moveSlot n fun s => { s with st := if d.kept P s then .pinned else .free }
  else d

/-- PINNED slots whose line is no longer kept go to FREE (09 R202). -/
def Dev.unpin (P : Part) (d : Dev) : Dev :=
  d.slotIds.foldl (fun d n =>
    if (d.ls.slots[n]).st = .pinned ∧ !d.kept P d.ls.slots[n] then d.moveSlot n fun s => { s with st := .free } else d) d

/-- A hold bit of a slot cleared (09 R203). -/
def Dev.clearHold (P : Part) (d : Dev) (n : Fin 256) (b : Nat) : Dev :=
  (d.updSlot n fun s => { s with hold := s.hold &&& ~~~(1#17 <<< b) }).settleSlot P n

/-- The first read of a FULL slot by a holder (09 R202). -/
def Dev.readSlot (d : Dev) (n : Fin 256) : Dev :=
  if (d.ls.slots[n]).st = .full ∧ (d.ls.slots[n]).kind = .numbered then d.moveSlot n fun s => { s with st := .drain } else d

/-- The slots that a list of addresses lies in. -/
def Dev.slotsAt (d : Dev) (as : List Nat) : List (Fin 256) :=
  let sz := d.ls.geom.size4k * 4096
  (as.filterMap fun a => if 0x2000000 ≤ a ∧ a < 0x2000000 + d.ls.geom.nslot * sz then some (Fin.ofNat 256 ((a - 0x2000000) / sz)) else none).dedup

/-- A channel's reads at some addresses: each slot among them that holds the channel's bit has its first read (09 R202). -/
def Dev.readSlots (d : Dev) (c : DmaId) (as : List Nat) : Dev :=
  (d.slotsAt as).foldl (fun d n => if (d.ls.slots[n]).hold.getLsbD c.val then d.readSlot n else d) d

/-- A sum of gap counts, which saturates (02 R40). -/
def gapSum (a b : Half) : Half := BitVec.ofNat 16 (min 0xFFFF (a.toNat + b.toNat))

/-- The stream of a DMA channel, when CFG.STREN = 1 (09 R214). -/
def Dev.chanStream (d : Dev) (n : DmaId) : Option (Fin 64) :=
  if bit (d.dmaCfg n) 23 then some ⟨fld (d.dmaCfg n) 17 6 % 64, Nat.mod_lt _ (by decide)⟩ else none

/-- The open streams. -/
def Dev.openSet (d : Dev) : BitVec 64 := (List.finRange 64).foldl (fun m t => if (d.hng.streams[t]).opened then m ||| (1#64 <<< t.val) else m) 0

/-- The stream of a channel takes no line that becomes FULL: it skipped the line at its fire, or is closed now and has not committed it (09 R201); a committed line is still sent (02 R43; log 76). -/
def Dev.dropsLine (d : Dev) (s : Slot) (t : Fin 64) : Bool :=
  s.hdr.skipped.getLsbD t.val || (!(d.hng.streams[t]).opened && !s.hdr.committed.getLsbD t.val)

/-- The hold mask a line takes on becoming FULL (09 R201). -/
def Dev.holdMask (P : Part) (d : Dev) (s : Slot) : BitVec 17 :=
  (List.finRange 16).foldl (fun h n =>
    let drop := !dmaPresent P n || match d.chanStream n with
      | some t => d.dropsLine s t
      | none => false
    if drop then h &&& ~~~(1#17 <<< n.val) else h) ((d.reg 0x70020).extractLsb' 0 17)

/-- A stream's DELIVERED after a line: deliveries of later lines are taken off (13 R312). -/
def deliveredAfter (x : Stream) (later : List LineOut) (s : Nat) : Word := x.delivered - nword (later.filter fun o => o.del.getLsbD s).length

/-- A line is secured: every stream's books after it are noted, beside those of lines whose checkpoints are still to be sent or may be sent again (13 R312, R319). That "after line s" means when it is secured is DESIGN CHOICE (log 23). -/
def Dev.noteBooks (d : Dev) (o : LineOut) (later : List LineOut) : Dev :=
  let keep := (d.kl.secured ++ d.cas.cpLast.toList).map LineOut.line
  d.updHng fun h => { h with streams := Vector.ofFn fun s : Fin 64 =>
    let x := h.streams[s]
    { x with after := (o.line, x.granted, deliveredAfter x later s.val) :: x.after.filter fun e => e.1 != o.line && keep.contains e.1 } }

/-- A line's checkpoint is due where the device is ACTIVE; in the other pair states it is the line that the next checkpoints repeat (13 R312). -/
def Dev.nowSecured (d : Dev) (o : LineOut) : Dev :=
  if d.cas.pair = .active then d.updKl fun k => { k with secured := k.secured ++ [o] } else d.updCas fun c => { c with cpLast := some o }

/-- Lines at the head of a list whose every frame is returned become secured, in line order (13 R312); the lines that are left. -/
def Dev.secureHead (d : Dev) : List LineOut → List LineOut × Dev
  | [] => ([], d)
  | o :: os => if o.need = 0 then ((d.noteBooks o os).nowSecured o).secureHead os else (o :: os, d)

/-- Fired lines of a pair device: those of which nothing is outstanding are secured (13 R312). -/
def Dev.secureLines (d : Dev) : Dev :=
  let r := d.secureHead d.kl.lineOut
  r.2.updKl fun k => { k with lineOut := r.1 }

/-- The correlator is started (07 R171): the line count it needs has been written. -/
def Dev.corrStart (d : Dev) : Dev :=
  let d := d.updHng fun h => { h with st := .guard, corr := .running }
  d.updPix fun x => { x with cres := putBit x.cres 25 false, corrAt := d.cycle, corrAsk := d.cycle, corrGot := 0, corrFail := d.frozen .corr }

/-- A line comes before another in line-number order; those of an earlier run come first (09 R212, R401). -/
def Slot.before (s t : Slot) : Bool := if s.old = t.old then decide ((s.line - t.line).toInt < 0) else s.old

/-- A line received by a channel takes its place in line-number order (09 R212). -/
def insertLine (d : Dev) (n : Fin 256) : List (Fin 256) → List (Fin 256)
  | [] => [n]
  | m :: ms => if (d.ls.slots[n]).before d.ls.slots[m] then n :: m :: ms else m :: insertLine d n ms

/-- A finished line leaves FILL (09 R201). -/
def Dev.slotDone (P : Part) (d : Dev) (n : Fin 256) : Dev :=
  let s := d.ls.slots[n]
  match s.kind with
  | .guard => d.moveSlot n fun s => { s with st := .free }
  | .overlap =>
    if d.hng.st ≠ .overlap ∨ s.old then d.moveSlot n fun s => { s with st := .free }
    else
      let d := d.moveSlot n fun s => { s with st := .full, hold := 0 }
      let d := d.updHng fun h => { h with ovlDone := h.ovlDone + 1 }
      if d.hng.kp ≤ d.hng.ovlDone then d.corrStart else d
  | .numbered =>
    let h := d.holdMask P s
    let d := d.moveSlot n fun s => { s with st := .full, hold := h }
    let d := d.raise 8 (place n.val 0 ||| (s.line <<< 8))
    let d := (List.finRange 16).foldl (fun d c =>
      if h.getLsbD c.val && bit (d.dmaCfg c) 0 then d.updDma c fun k => { k with list := insertLine d n k.list } else d) d
    d.settleSlot P n

/-- Every segment of a line has arrived (13 R308); at once where no members are assembled. -/
def Dev.segsIn (P : Part) (d : Dev) (s : Slot) : Bool :=
  !d.assembling P || s.kind != .numbered ||
    (List.range 8).all fun a => a == 0 || !(bit (d.reg 0xC000C) (24 + a)) || s.segs.getLsbD a

/-- LINE_STORE_COMPLETE: the slot's last byte is accepted and no segment is missing. -/
def Dev.lineStoreComplete (P : Part) (d : Dev) (n : Fin 256) : Dev :=
  let s := d.ls.slots[n]
  if n.val < d.ls.geom.nslot ∧ s.st = .fill ∧ s.written ∧ d.segsIn P s then d.slotDone P n else d

/-- A slot taken for a capture in the fire cycle (09 R200). -/
def Dev.takeSlot (P : Part) (d : Dev) (n : Fin 256) (kind : Capture) (line : Word) (hdr : LineHdr) : Dev :=
  d.moveSlot n fun _ => { st := .fill, kind := kind, line := line, hold := 0, written := false, wroteAt := 0, segs := 0, width := d.lineWidth P, old := false, hdr := hdr }

/-- Every line in the store, and the capture in progress, belongs to an earlier run (09 R401, 07 R169). -/
def Dev.agePrevious (d : Dev) : Dev :=
  { d with ls := { d.ls with slots := d.ls.slots.map fun s => { s with old := true } }, acq := { d.acq with old := true } }

/-- LS_RELEASE (09 R203): each named bit that is set clears, each that is clear sets RELERR. A channel whose bit software clears keeps the line in its list or bound, so that the slot may be used again under it (DESIGN CHOICE, log 118). -/
def Dev.lsRelease (P : Part) (d : Dev) (v : Word) : Dev :=
  let named : BitVec 17 := (v.extractLsb' 16 16).setWidth 17 ||| (if bit v 8 then 1#17 <<< 16 else 0)
  let n : Fin 256 := ⟨fld v 0 8 % 256, Nat.mod_lt _ (by decide)⟩
  let s := d.ls.slots[n]
  let live := decide (n.val < d.ls.geom.nslot) && (s.st == .full || s.st == .drain)
  let held : BitVec 17 := if live then s.hold else 0
  let d := if named &&& ~~~held ≠ 0 then { d with ls := { d.ls with relErr := true } } else d
  if named &&& held ≠ 0 then (d.updSlot n fun s => { s with hold := s.hold &&& ~~~named }).settleSlot P n else d

/-- GEOMETRY_APPLY: a waiting geometry takes effect once every slot of the previous one is FREE (09 R401). -/
def Dev.geometryApply (d : Dev) : Dev :=
  match d.ls.wait with
  | some g =>
    if d.slotIds.all fun n => (d.ls.slots[n]).st == .free then
      ({ d with ls := { d.ls with geom := g, wait := none } }).lowCheck (d.slotCount .free)
    else d
  | none => d

/-- LINE START sets the geometry: at once when it is unchanged or every slot is FREE, later otherwise (09 R197, R401). -/
def Dev.startGeom (P : Part) (d : Dev) : Dev :=
  let g := d.newGeom P
  if g = d.ls.geom then { d with ls := { d.ls with wait := none } }
  else ({ d with ls := { d.ls with wait := some g } }).geometryApply

/-- The line store when its contents are lost (14 R325, 15 R361): every slot is FREE with no hold, and no line waits for a channel (DEDUCED, log 97). -/
def Dev.emptySlots (d : Dev) : Dev :=
  { d with
    ls := { d.ls with
      slots := d.ls.slots.map fun s => { s with st := .free, hold := 0 }
      lowArmed := d.ls.lowArmed || decide (d.lowTh < d.slotIds.length) }
    dma := d.dma.map fun k => { k with list := [] } }

/-- LS_LOWTH written: armed when FREE lies above it (09 R204). -/
def Dev.lowThWrite (P : Part) (d : Dev) (v : Word) : Dev :=
  let d := d.writeReg P 0x7001C v
  { d with ls := { d.ls with lowArmed := decide (d.lowTh < d.slotCount .free) } }

end Sys2Proof.Machine
end

