-- ==== Sys2Proof/Machine/Framer.lean ====
section
/-!
DEFINITION. The framer: staging, line frames and their headers, cascade frames, and the choice of the frame a link sends next (10 R233-R243, 13 R307, R312, R314).
-/
namespace Sys2Proof.Machine

/-- Pad bytes of a frame (10 R235). -/
def framePad (len : Nat) : Nat := (8 - (16 + len + 4) % 8) % 8

/-- Link-credit units of a frame (10 R238). -/
def frameUnits (len : Nat) : Nat := (16 + len + framePad len + 4 + 255) / 256

/-- Frame data capacity: MAXPAY of a link, 4,064 before its first EXCHANGE (DESIGN CHOICE, log 19). -/
def Dev.payCap (d : Dev) (k : LinkId) : Nat := if (d.kl.links[k]).maxPay = 0 then 4064 else (d.kl.links[k]).maxPay

/-- The link that carries the device's own LINE frames: the host link, or CU at a chain member (13 R303). -/
def Dev.lineLink (P : Part) (d : Dev) : LinkId := if d.role P = 0 then 1 else 0

/-- The 32-byte line header (10 R241, R242). -/
def lineHeader (s : Fin 64) (h : LineHdr) (gap : Nat) (line : Word) (fragOff : Nat) (first last aborted : Bool) : List Word := [
  place s.val 0 ||| flag h.seam 8 ||| flag h.weak 9 ||| flag h.dup 10 ||| flag first 11 ||| flag last 12 ||| flag aborted 13 ||| flag h.late 14 ||| place (gap % 65536) 16,
  line,
  iword h.pos,
  hi48 h.pos ||| (h.seamCnt.setWidth 32 <<< 16),
  h.ts.extractLsb' 0 32,
  (h.ts.extractLsb' 32 16).setWidth 32 ||| (h.voff.setWidth 32 <<< 16) ||| (h.hoff.setWidth 32 <<< 24),
  nword (fragOff % 2 ^ 28),
  h.score.setWidth 32]

/-- The first lane of a link (10 R221). -/
def firstLane (k : LinkId) : LaneId := if k = 0 then 0 else if k = 1 then 2 else 3

/-- The link of a lane (10 R221). -/
def laneLink (n : LaneId) : LinkId := if n.val < 2 then 0 else if n = 2 then 1 else 2

/-- Lanes a link uses: the first, and HL1 once it has joined (10 R230). -/
def Dev.usedLanes (d : Dev) (k : LinkId) : List LaneId :=
  firstLane k :: (if k = 0 ∧ (d.kl.links[k]).two then [1] else [])

/-- A control block: its type, octets 1 to 6 and check octet (10 R225). -/
def ctlBlock (typ : Byte) (os : List Byte) : Block :=
  let bs := typ :: (os ++ List.replicate (6 - os.length) 0)
  BitVec.ofNat 64 (leNat (bs ++ [crc8 bs]))

/-- The self-synchronous scrambler x^58 + x^39 + 1 over a payload (10 R223), octet 0 first and each octet's least significant bit first; bit j of its state is the output j + 1 bits ago. -/
def scramble (s : BitVec 58) (p : Block) : Block × BitVec 58 :=
  (List.range 64).foldl (fun (a : Block × BitVec 58) i =>
    let o := p.getLsbD i ^^ a.2.getLsbD 38 ^^ a.2.getLsbD 57
    (a.1 ||| ((BitVec.ofBool o).setWidth 64 <<< i), (a.2 <<< 1) ||| (BitVec.ofBool o).setWidth 58)) (0, s)

/-- A block as a lane sends it (10 R223): header 1 then 0 for a control block, 0 then 1 for a data block, and the payload, scrambled where `scr`; with the scrambler's next state. -/
def codeBlock (scr : Bool) (n : LaneId) (s : BitVec 58) (b : Bool × Block) : TxBlock × BitVec 58 :=
  let r := if scr then scramble s b.2 else (b.2, s)
  (⟨n, b.1, b.2, (r.1.setWidth 66 <<< 2) ||| (if b.1 then 1 else 2)⟩, r.2)

/-- Blocks sent one after another, dealt to lanes in turn (10 R226). -/
def codeBurst (scr : Bool) : List LaneId → Vector (BitVec 58) 4 → List (Bool × Block) → List TxBlock
  | n :: ns, st, b :: bs =>
    let r := codeBlock scr n st[n] b
    r.1 :: codeBurst scr (ns ++ [n]) (upd st n fun _ => r.2) bs
  | _, _, _ => []

/-- A link scrambles what it sends: outside TRAIN and MEASURE (10 R223). -/
def Link.scrambles (l : Link) : Bool := l.st != .train && !l.measuring

/-- One step of PRBS31, x^31 + x^28 + 1 (PRESUMED, log 14). -/
def prbsStep (s : BitVec 31) : BitVec 31 := (s <<< 1) ||| (BitVec.ofBool (s.getLsbD 30 ^^ s.getLsbD 27)).setWidth 31

/-- 64 bits of PRBS31 as a payload, first bit least significant, with the next state. -/
def prbsBlock (s : BitVec 31) : Block × BitVec 31 :=
  (List.range 64).foldl (fun (a : Block × BitVec 31) i =>
    let t := prbsStep a.2
    (a.1 ||| ((t.extractLsb' 0 1).setWidth 64 <<< i), t)) (0, s)

/-- So many data blocks that continue PRBS31, unscrambled (10 R227). -/
def prbsBlocks (n : LaneId) : Nat → BitVec 31 → List TxBlock
  | 0, _ => []
  | k + 1, s => (codeBlock false n 0 (false, (prbsBlock s).1)).1 :: prbsBlocks n k (prbsBlock s).2

/-- The blocks of a group: its TRAIN block and 1,023 data blocks (10 R227). -/
def groupBlocks (n : LaneId) (train : TxBlock) (s : BitVec 31) : List TxBlock := train :: prbsBlocks n 1023 s

/-- Scrambler state after a block: its last 58 payload bits on the line, the newest in bit 0 (10 R223). -/
def lineState (w : BitVec 66) : BitVec 58 := (List.range 58).foldl (fun s j => s ||| ((w.extractLsb' (65 - j) 1).setWidth 58 <<< j)) 0

/-- Blocks given out earlier are still being sent on a lane, so that the next one follows them directly. -/
def Dev.follows (d : Dev) (n : LaneId) : Bool := decide (25 * d.cycle < (d.kl.lanes[n]).busy)

/-- Blocks given out on a lane that have not been sent: the entries of its FIFO to CK_LTX, and those that the paused framer keeps behind them (01 R25, 10 R221). -/
def Dev.ltxUsed (d : Dev) (n : LaneId) : Nat :=
  let t := 256 / 2 ^ (d.kl.links[laneLink n]).rate
  ((d.kl.lanes[n]).busy - 25 * d.cycle + (t - 1)) / t

/-- The 64-entry FIFOs to CK_LTX of a link's lanes have room: a full one pauses the framer (01 R25). -/
def Dev.ltxRoom (d : Dev) (k : LinkId) : Bool := (d.usedLanes k).all fun n => decide (d.ltxUsed n < 64)

/-- Scrambler states where the next output begins: that of the block before it, which a free number of IDLE blocks may have followed since (10 R223; log 86). -/
def Dev.fills (d : Dev) : Vector (BitVec 58) 4 :=
  Vector.ofFn fun n => if d.follows n then (d.kl.lanes[n]).scr else Config.fill d.out.length n.val

/-- The lanes of a link's stream in their turn (10 R226). -/
def Dev.inTurn (d : Dev) (k : LinkId) : List LaneId :=
  let ns := d.usedLanes k
  if (if d.follows (firstLane k) then (d.kl.links[k]).turn else Config.parity d.out.length) then ns.reverse else ns

/-- Blocks of a link's stream, striped over two lanes (10 R226). -/
def Dev.striped (d : Dev) (k : LinkId) (bs : List (Bool × Block)) : List TxBlock := codeBurst (d.kl.links[k]).scrambles (d.inTurn k) d.fills bs

/-- Blocks on their way: their lanes go on from them, each after its block time (10 R221). -/
def Dev.onLane (d : Dev) (bs : List TxBlock) : Dev :=
  bs.foldl (fun d b => d.updLane b.lane fun x => { x with
    scr := lineState b.wire, busy := max x.busy (25 * d.cycle) + 256 / 2 ^ (d.kl.links[laneLink b.lane]).rate }) d

/-- Blocks of a link's stream on their way, and the lane whose turn comes after them. -/
def Dev.streamed (d : Dev) (k : LinkId) (bs : List TxBlock) : Dev :=
  (d.onLane bs).updLink k fun l => { l with turn := ((d.inTurn k).headD 0 == 1) != decide (bs.length % 2 = 1) }

/-- A control block sent on a lane. -/
def Dev.sendBlock (d : Dev) (n : LaneId) (b : Block) : Dev :=
  let x := (codeBlock (d.kl.links[laneLink n]).scrambles n d.fills[n] (true, b)).1
  (d.onLane [x]).emitOut (.block x)

/-- Control blocks of a link's stream sent one after another. -/
def Dev.sendStream (d : Dev) (k : LinkId) (bs : List Block) : Dev :=
  let xs := d.striped k (bs.map fun b => (true, b))
  xs.foldl (fun d b => d.emitOut (.block b)) (d.streamed k xs)

/-- WAKE sent on every used lane (10 R247). -/
def Dev.sendWake (d : Dev) (k : LinkId) : Dev :=
  (d.usedLanes k).foldl (fun d n => d.sendBlock n (ctlBlock 0x66 [])) (d.updLink k fun l => { l with wakeDue := false })

/-- A link leaves DEEP into resuming LOCK (10 R247): WAKE goes out at once where PLL-L runs, and once it has locked otherwise. -/
def Dev.linkWake (d : Dev) (k : LinkId) : Dev :=
  if (d.kl.links[k]).st = .deep then
    let d := d.updLink k fun l => { l with st := .lock, resuming := true, resumeAt := d.cycle, wakeDue := true }
    let d := (d.usedLanes k).foldl (fun d n => d.updLane n fun x => { x with woke := false, blockLock := false }) d
    if d.kl.pll then d.sendWake k else d
  else d

/-- KL_CTL.AUTOWAKE. -/
def Dev.autoWake (d : Dev) : Bool := bit (d.reg 0x90000) 0

/-- Receive units of a VC entered as freed, to be reported in CUM (10 R238, R239). -/
def Link.free (l : Link) (v : Fin 65) (u : Nat) : Link :=
  { l with
    books := upd l.books v fun b => { b with cumOut := b.cumOut + BitVec.ofNat 16 u }
    unrep := if l.unrep.contains v then l.unrep else l.unrep ++ [v] }

/-- The books of a link stand still: in DEEP, until it has resumed, and in MEASURE (10 R237). -/
def Link.still (l : Link) : Bool := l.st == .deep || l.resuming || l.measuring

/-- Receive units of a VC freed; while the books stand still that waits (10 R237). -/
def Dev.freeUnits (d : Dev) (k : LinkId) (v : Fin 65) (u : Nat) : Dev :=
  if u = 0 then d
  else d.updLink k fun l => if l.still then { l with parked := l.parked ++ [(v, u)] } else l.free v u

/-- The books move again: what was freed meanwhile is entered (10 R237). -/
def Link.unpark (l : Link) : Link := l.parked.foldl (fun l p => l.free p.1 p.2) { l with parked := [] }

/-- Bytes of a frame's payload before its data: the line header, the words w0 to w3 of a CASCADE frame (10 R241, 13 R307). -/
def headBytes (typ : Nat) : Nat := if typ = 1 then 32 else if typ = 3 then 16 else 0

/-- The words of a payload's head changed, the data kept. -/
def putHead (f : Staged) (g : List Word → List Word) (data : List Byte) (more : Bool) : Staged :=
  { f with payload := (g (wordsOfBytes (f.payload.take (headBytes f.typ)))).flatMap wordBytes ++ data, more := more }

/-- A frame cut to a link's MAXPAY (10 R233, R235, R241): pieces of LINE, CASCADE and CHECKPOINT frames carry heads of their own; a message longer than MAXPAY goes in several frames, every one but the last with MORE (DESIGN CHOICE, log 68). What the whole frame holds goes with its last piece. -/
def Staged.recut (cap : Nat) : Nat → Staged → List Staged
  | 0, f => [f]
  | fuel + 1, f =>
    let n := cap - headBytes f.typ
    if f.payload.length ≤ cap ∨ n = 0 then [f]
    else
      let data := f.payload.drop (headBytes f.typ)
      let first := fun (ws : List Word) => if f.typ = 1 then ws.set 0 (putBit (putBit (ws.getD 0 0) 12 false) 13 false) else ws
      let rest := fun (ws : List Word) =>
        if f.typ = 1 then (ws.set 0 (putBit (ws.getD 0 0) 11 false)).set 6 (ws.getD 6 0 + nword n)
        else if f.typ = 3 then ws.set 1 (ws.getD 1 0 + nword n)
        else ws
      { putHead f first (data.take n) true with rx := none, answer := false } :: Staged.recut cap fuel (putHead f rest (data.drop n) f.more)

/-- A frame placed in the staging buffer, within its link's MAXPAY (10 R235); with AUTOWAKE = 1 it wakes its link from DEEP (10 R247). -/
def Dev.stage (d : Dev) (f : Staged) : Dev :=
  let d := d.updKl fun k => { k with staged := k.staged ++ Staged.recut (d.payCap f.link) f.payload.length { f with age := d.cycle } }
  if d.autoWake ∧ d.phase = .run then d.linkWake f.link else d

/-- A VC 64 message staged on a link: its 8-byte header and body (10 R243). -/
def Dev.stageMsg (d : Dev) (k : LinkId) (mtype : Nat) (tag : Word) (body : List Word) (answer : Bool) : Dev :=
  let ws := [place mtype 0 ||| place (4 * body.length) 16, tag] ++ body
  d.stage { link := k, vc := 64, typ := 2, srcDst := 0, payload := ws.flatMap wordBytes, more := false, age := 0, line := none, answer := answer }

/-- Bytes of a staged frame that egress writes brought, which the limit of its stream counts (10 R240). -/
def Staged.data (f : Staged) : Nat := f.payload.length - headBytes f.typ

/-- Bytes staged for a stream: data of its frames and of its open line (10 R240). -/
def Dev.stagedOf (d : Dev) (v : Nat) : Nat :=
  ((d.kl.staged.filter fun f => f.vc.val == v && f.typ == 1 && f.rx.isNone).map Staged.data).sum +
    ((d.kl.opened.filter fun o => o.1 == v).map fun o => o.2.bytes.length).sum

/-- Bytes in the staging buffer: the payloads of the device's own staged line frames, of each open line its bytes and the header of the frame they will stand in, and the header of each line that waits for another to close (10 R240; log 87); a forwarded frame stands in a receive buffer (13 R302). -/
def Dev.stagedAll (d : Dev) : Nat :=
  ((d.kl.staged.filter fun f => (f.typ == 1 || f.typ == 3) && f.rx.isNone).map fun f => f.payload.length).sum +
    (d.kl.opened.map fun o => o.2.bytes.length + 32).sum + 32 * d.kl.later.length

/-- The staging limit of a stream in bytes (10 R240). -/
def Dev.stageLimit (d : Dev) : Nat := (let g := fld (d.reg 0x90000) 4 4; if g = 0 then 16 else g) * 4096

/-- A beat of n bytes of a stream that would bring the framer to `after`: none when it would pass the stream's limit, or fill the buffer with its bytes and the headers of the frames they stand in, and so waits (10 R240). -/
def Dev.beatFits (d : Dev) (v n : Nat) (after : Dev) : Option Dev :=
  if d.stagedOf v + n ≤ d.stageLimit ∧ after.stagedAll < 65536 then some after else none

/-- A channel's line that ends at the framer finds room for the header of its last frame: one that the channel has open has it already (10 R240, R241). -/
def Dev.closeRoom (d : Dev) (v : Nat) (ch : DmaId) : Bool :=
  (d.kl.opened.lookup v).any (fun o => o.chan == ch) || decide (d.stagedAll + 32 < 65536)

/-- One LINE frame cut from an open line. -/
def Dev.cutLine (P : Part) (d : Dev) (s : Fin 64) (o : OpenLine) (data : List Byte) (last aborted : Bool) : Dev :=
  let ws := lineHeader s o.hdr o.gap o.line o.fragOff (o.fragOff == 0) last aborted
  d.stage { link := d.lineLink P, vc := s.castLE (by decide), typ := 1, srcDst := 0, payload := ws.flatMap wordBytes ++ data, more := !last, age := 0, line := some o.line, answer := false }

/-- An open line written back. -/
def Dev.setOpen (d : Dev) (v : Nat) (o : Option OpenLine) : Dev :=
  d.updKl fun k => { k with opened := match o with
    | some o => tabIns v o (tabDel v k.opened)
    | none => tabDel v k.opened }

/-- Full frames cut from an open line while its data reaches the capacity (10 R241), and what is left of it. -/
def Dev.cutFull (P : Part) (d : Dev) (s : Fin 64) : Nat → OpenLine → OpenLine × Dev
  | 0, o => (o, d)
  | fuel + 1, o =>
    let cap := d.payCap (d.lineLink P) - 32
    if cap ≤ o.bytes.length then
      (d.cutLine P s o (o.bytes.take cap) false false).cutFull P s fuel { o with bytes := o.bytes.drop cap, fragOff := o.fragOff + cap }
    else (o, d)

/-- Bytes appended to an open line (10 R241). -/
def Dev.append (P : Part) (d : Dev) (s : Fin 64) (o : OpenLine) (bs : List Byte) : Dev :=
  let r := d.cutFull P s (bs.length + o.bytes.length) { o with bytes := o.bytes ++ bs }
  r.2.setOpen s.val (some r.1)

/-- A CASCADE frame of the cascade window (13 R307): its kind, slot offset, line and data, sent to the master with the member's own address. -/
def Dev.stageCascade (d : Dev) (kind : Nat) (off : Nat) (line : Word) (data : List Byte) : Dev :=
  d.stage { link := 1, vc := 64, typ := 3, srcDst := d.cas.addr.toNat, payload := [place kind 0, nword off, line, 0].flatMap wordBytes ++ data, more := false, age := 0, line := none, answer := false }

/-- CASCADE frames cut at plane boundaries and at the frame capacity (13 R307). -/
def Dev.cutCascade (d : Dev) (flush : Bool) : Nat → OpenLine → Dev
  | 0, o => d.setOpen 64 (some o)
  | fuel + 1, o =>
    let plane := max 1 (2 * d.width)
    let n := min (d.payCap 1 - 16) (plane - o.fragOff % plane)
    if n ≤ o.bytes.length ∨ (flush ∧ !o.bytes.isEmpty) then
      let seg := d.cas.seg
      let off := (fld seg 17 2 + o.fragOff / plane) * d.cas.mPstr + 2 * fld seg 0 17 + o.fragOff % plane
      (d.stageCascade 2 off o.line (o.bytes.take n)).cutCascade flush fuel { o with bytes := o.bytes.drop n, fragOff := o.fragOff + (o.bytes.take n).length }
    else d.setOpen 64 (some o)

/-- A line opened at the framer for a stream; it takes the gap count of its fire and of lines abandoned since (02 R40, 09 R217). -/
def Dev.openLine (d : Dev) (s : Fin 64) (ch : DmaId) (n : Fin 256) (line : Word) (hdr : LineHdr) : OpenLine × Dev :=
  let g := tabGet 0 hdr.gaps s.val + (d.hng.streams[s]).gapAdd.toNat
  (⟨ch, n, line, hdr, [], 0, min g 0xFFFF⟩, d.updStream s fun x => { x with gapAdd := 0, gapOut := gapSum x.gapOut x.gapAdd })

/-- Bytes of a bound line appended to a stream's payload; none when the beat waits (10 R240). -/
def Dev.egress (P : Part) (d : Dev) (s : Fin 64) (ch : DmaId) (n : Fin 256) (bs : List Byte) : Option Dev :=
  match d.kl.opened.lookup s.val with
  | some o => if o.chan = ch ∧ o.slot = n then d.beatFits s.val bs.length (d.append P s o bs) else none
  | none =>
    let r := d.openLine s ch n (d.ls.slots[n]).line (d.ls.slots[n]).hdr
    d.beatFits s.val bs.length (r.2.append P s r.1 bs)

/-- Bytes of a bound line appended to the cascade window (13 R307). -/
def Dev.egressCascade (d : Dev) (ch : DmaId) (n : Fin 256) (bs : List Byte) : Option Dev :=
  match d.kl.opened.lookup 64 with
  | some o =>
    if o.chan = ch ∧ o.slot = n then d.beatFits 64 bs.length (d.cutCascade false (bs.length + o.bytes.length) { o with bytes := o.bytes ++ bs }) else none
  | none => d.beatFits 64 bs.length (d.cutCascade false bs.length ⟨ch, n, (d.ls.slots[n]).line, (d.ls.slots[n]).hdr, bs, 0, 0⟩)

/-- A line ends at the framer: its last frame enters staging and a committed line becomes delivered (10 R241, 02 R39), except on a pair's standby, which delivers none (15 "STANDBY pair × pacing"); an aborted one ends in a frame with ABORTED (10 R242) and passes its gap on. -/
def Dev.finishLine (P : Part) (d : Dev) (s : Fin 64) (o : OpenLine) (aborted : Bool) : Dev :=
  let r := d.cutFull P s (o.bytes.length + 1) o
  let o := r.1
  let d := if aborted then
      (let d := if o.bytes.isEmpty then r.2 else r.2.cutLine P s o o.bytes false false
       d.cutLine P s { o with fragOff := o.fragOff + o.bytes.length } [] true true)
    else r.2.cutLine P s o o.bytes true false
  let d := (d.setOpen s.val none).updStream s fun x => { x with
    delivered := if d.cas.pair = .standby ∨ x.granted = x.delivered + x.avail then x.delivered else x.delivered + 1
    gapAdd := if aborted then gapSum x.gapAdd (BitVec.ofNat 16 o.gap) else x.gapAdd
    gapOut := x.gapOut - BitVec.ofNat 16 (min x.gapOut.toNat o.gap) }
  d.updKl fun k => { k with lineOut := k.lineOut.map fun y => if y.line = o.line then { y with del := y.del ||| (1#64 <<< s.val) } else y }

/-- Lines of a stream that waited for another to close end, in order (10 R240). -/
def Dev.finishLater (P : Part) (d : Dev) (s : Fin 64) (ch : DmaId) (n : Fin 256) : Dev :=
  (d.kl.later.filter fun y => y.stream == s).foldl
    (fun d y =>
      let (o, d) := d.openLine s ch n y.line y.hdr
      d.finishLine P s o y.aborted)
    (d.updKl fun k => { k with later := k.later.filter fun y => y.stream != s })

/-- A channel's bound line closed for a stream (10 R240-R242): a line none of whose bytes came makes one frame, which waits while another channel's line is open on the stream. -/
def Dev.closeLine (P : Part) (d : Dev) (s : Fin 64) (ch : DmaId) (n : Fin 256) (aborted : Bool) : Dev :=
  let x := d.ls.slots[n]
  match d.kl.opened.lookup s.val with
  | some o =>
    if o.chan = ch ∧ o.slot = n then (d.finishLine P s o aborted).finishLater P s ch n
    else d.updKl fun k => { k with later := k.later ++ [⟨s, x.line, x.hdr, aborted⟩] }
  | none =>
    let (o, d) := d.openLine s ch n x.line x.hdr
    d.finishLine P s o aborted

/-- A channel's bound line closed for the cascade window: its last bytes and a SEGEND (13 R307). -/
def Dev.closeCascade (d : Dev) (ch : DmaId) (n : Fin 256) : Dev :=
  let d := match d.kl.opened.lookup 64 with
    | some o => if o.chan = ch ∧ o.slot = n then (d.cutCascade true (o.bytes.length + 1) o).setOpen 64 none else d
    | none => d
  d.stageCascade 3 0 (d.ls.slots[n]).line []

/-- A frame of the checkpoint of a secured line (13 R312). -/
def securedCp (f : Staged) : Bool := match f.cp with | some t => t.sec | none => false

/-- In a pair's ACTIVE state the first frame of a line waits until the checkpoint of every earlier line is returned (13 R314). -/
def Dev.gated (d : Dev) (f : Staged) : Bool :=
  d.cas.pair == .active && f.typ == 1 && (f.payload.getD 1 0).getLsbD 3 &&
    (d.cas.cpOut.any (fun u => u.2.1.sec) || d.kl.staged.any securedCp || !d.kl.secured.isEmpty ||
      match d.kl.lineOut.head? with
      | some o => some o.line != f.line
      | none => false)

/-- A staged frame waits for a checkpoint's return (13 R314). -/
def Dev.gatingNow (d : Dev) : Bool := d.kl.staged.any d.gated

/-- A link may start a staged frame now (10 R238, R241): ACTIVE, not measuring, units held, and not limited for a data VC; a pair's standby sends VC 64 only on HL0 (13 R310). -/
def Dev.maySend (d : Dev) (k : LinkId) (f : Staged) : Bool :=
  let l := d.kl.links[k]
  f.link == k && l.st == .active && !l.measuring && decide (frameUnits f.payload.length ≤ (l.books[f.vc]).avail) &&
    (f.vc == 64 || !l.limited) && !(k == 0 && f.typ == 1 && d.cas.pair == .standby) && !d.gated f

/-- The frame a link sends next: the longest-waiting first frame of a VC that may start (10 R241). -/
def Dev.pickFrame (d : Dev) (k : LinkId) : List Staged → List (Fin 65) → Option Staged
  | [], _ => none
  | f :: fs, seen =>
    if f.link == k && !seen.contains f.vc then
      if d.maySend k f then some f else d.pickFrame k fs (f.vc :: seen)
    else d.pickFrame k fs seen

/-- The bytes of a frame (10 R235): header, payload, pad and CRC-32. -/
def frameBytes (f : Staged) (srcDst : Nat) (fseq : Half) : List Byte :=
  let head := ([place f.vc.val 0 ||| place f.typ 8 ||| place f.payload.length 16, fseq.setWidth 32 ||| flag f.more 16, place srcDst 0, 0] : List Word).flatMap wordBytes
  let body := head ++ f.payload ++ List.replicate (framePad f.payload.length) 0
  body ++ wordBytes (crc32 body)

/-- The blocks of a frame: SOF, data blocks of 8 bytes each, and EOF (10 R235). -/
def frameBlocks (vc : Nat) (bs : List Byte) : List (Bool × Block) :=
  (true, ctlBlock 0x78 [BitVec.ofNat 8 vc]) ::
    ((List.range (bs.length / 8)).map fun i => (false, BitVec.ofNat 64 (leNat ((bs.drop (8 * i)).take 8)))) ++ [(true, ctlBlock 0x87 [])]

/-- The chosen frame leaves staging, consumes its units and takes the next FSEQ of its VC; SRC and DST are 0 on the host link. -/
def Dev.sendNext (d : Dev) (k : LinkId) : Dev :=
  match d.pickFrame k d.kl.staged [] with
  | some f =>
    let u := frameUnits f.payload.length
    let b := (d.kl.links[k]).books[f.vc]
    let d := d.updLink k fun l => { l with books := upd l.books f.vc fun b => { b with avail := b.avail - u, fseqOut := b.fseqOut + 1 } }
    let d := d.updKl fun x => { x with
      staged := x.staged.erase f
      sent := match f.line with
        | some l => if k = 0 then x.sent ++ [⟨f.vc, u, l, !f.more⟩] else x.sent
        | none => x.sent }
    let d := if k = 2 ∧ f.vc = 64 then d.updCas fun c => { c with cpOut := c.cpOut ++ [(u, f.cp.getD ⟨0, 0, false, false, 0⟩, !f.more)] } else d
    let d := match f.rx with
      | some (l, w) => d.freeUnits l f.vc w
      | none => d
    let bs := frameBytes f (if k = 0 then 0 else f.srcDst) b.fseqOut
    let xs := d.striped k (frameBlocks f.vc.val bs)
    (d.streamed k xs).emitOut (.frame k f.vc.val f.typ b.fseqOut.toNat f.more f.payload bs xs)
  | none => d

/-- Whole packets of the trace FIFO staged as one TRACE message when none is staged (14 R350). -/
def Dev.stageTrace (d : Dev) : Dev :=
  if d.pwr.tFifo.isEmpty ∨ d.kl.staged.any (fun f => f.link == 0 && f.typ == 2 && f.payload.headD 0 == 8) then d
  else
    let n := (d.payCap 0 - 8) / 16
    (d.stageMsg 0 8 0 ((d.pwr.tFifo.take n).flatMap fun k => k.toList) false).updPwr fun p => { p with tFifo := p.tFifo.drop n }

/-- KL_STG: staging occupancy in 256-byte units (10 R249). -/
def Dev.stgUnits (d : Dev) : Nat := (d.stagedAll + 255) / 256

/-- A DEEP REQ that waits is sent: with AUTOWAKE = 1 never while a sendable frame is staged (10 R246). -/
def Dev.deepTry (d : Dev) (k : LinkId) : Dev :=
  let l := d.kl.links[k]
  if l.deepWant ∧ l.st = .active ∧ !l.measuring ∧ !(d.autoWake && d.kl.staged.any (d.maySend k)) then
    (d.updLink k fun l => { l with deepReq := true, deepWant := false }).sendStream k [ctlBlock 0x55 [0]]
  else d

/-- The host queue's records leave in an EVENT message of 1 to 16 records, as many as MAXPAY holds, when VC 64 has units (05 R123, 10 R235, 16 R370); the framer accepts the message in this step. -/
def Dev.eventMessage (d : Dev) : Dev :=
  let rs := d.ev.hq.take (min 16 ((d.payCap 0 - 8) / 16))
  let l := d.kl.links[(0 : LinkId)]
  let words := rs.flatMap fun r => [
    r.seq.setWidth 32 ||| place r.src.val 24, r.detail, r.ts.extractLsb' 0 32,
    (r.ts.extractLsb' 32 16).setWidth 32 ||| place r.flags.toNat 16]
  if rs.isEmpty ∨ l.st ≠ .active ∨ l.measuring ∨ (l.books[(64 : Fin 65)]).avail < frameUnits (8 + 4 * words.length) then d
  else (d.stageMsg 0 4 0 words false).updEv fun e => { e with hq := e.hq.drop rs.length }

/-- FRAME_SEND (10 R241): on the host link the trace FIFO offers its packets first, and a waiting DEEP REQ follows the frame; nothing is sent while a full FIFO to CK_LTX pauses the framer (01 R25). -/
def Dev.frameSend (d : Dev) (k : LinkId) : Dev :=
  let d := if k = 0 then d.stageTrace else d
  if d.ltxRoom k then (d.sendNext k).deepTry k else d

end Sys2Proof.Machine
end

