-- ==== Sys2Proof/Machine/Ports.lean ====
section
/-!
DEFINITION. Sensor ports and illumination: colour modes, the start of periods, edge tables, pixel intake, the end of periods, enabling and disabling, and the LED channels (06 R135-R155).
-/
namespace Sys2Proof.Machine

/-- The scanner outputs and the inputs are at high impedance: at the standby or deposed device of a pair, and wherever PAIR_FORCE_I is high, whose level reaches no part without pair mode (06 R154, 08 R181, 13 R310, R320, 17 R378). -/
def Dev.released (d : Dev) : Bool := d.pins.forceI || d.cas.pair == .standby || d.cas.pair == .takeover || d.cas.pair == .deposed

/-- The boot has ended: the device runs, enters STANDBY, is in it, or wakes. -/
def Dev.booted (d : Dev) : Bool := d.phase != .inReset && d.phase != .clocks && d.phase != .verify

/-- The scanner outputs are driven: neither released nor under RESTRICTED boot; in STANDBY they hold their levels (06 R154, 08 R181, 14 R325). -/
def Dev.driven (d : Dev) : Bool := d.booted && d.sys.outcome != 2 && !d.released

/-- The acquisition is ready for the next fire (06 R146, R148). -/
def Dev.acqReady (d : Dev) : Bool :=
  d.portsOn.isEmpty || d.acq.periods == 0 || (d.acq.done && decide (d.acq.started + 10000 ≤ d.cycle))

/-- CMODE = 1, parallel planes (06 R144). -/
def Dev.parallel (d : Dev) : Bool := bit (d.reg 0x30000) 2

/-- LAG as 0 or 1 (06 R143). -/
def Dev.lag (d : Dev) : Nat := fld (d.reg 0x30000) 3 1

/-- Periods of a line (06 R143, R144). -/
def Dev.linePeriods (d : Dev) : Nat := (if d.parallel then 1 else d.npl) + d.lag

/-- LED mask of a period (06 R143, R144). -/
def Dev.periodLeds (d : Dev) (k : Nat) : Nat :=
  if d.parallel then (if k = 0 then d.planeLeds 0 else 0) else if k < d.npl then d.planeLeds k else 0

/-- Plane blocks that a period's pixels hold: none in the discarded period (06 R143-R145). A line in progress keeps its number of periods; what is written to PORT_CMODE and the widths meanwhile acts at once (DESIGN CHOICE, log 99). -/
def Dev.blocks (d : Dev) (k : Nat) : Nat := if k < d.lag then 0 else if d.parallel then d.npl else 1

/-! ### LED channels -/

/-- A register of LED channel k. -/
def Dev.ledReg (d : Dev) (k : Fin 4) (o : Nat) : Word := d.reg (0x30100 + 0x20 * k.val + o)

/-- The current loop after a pulse with a sample (06 R152). -/
def ledLoop (ctl : Word) (isns gcode : Nat) : Nat :=
  let e : Int := (fld ctl 8 10 : Int) - isns
  (clampI 0 1023 (gcode + e.tdiv (2 ^ fld ctl 1 3))).toNat

/-- The cycle in which a channel's pulse starts (06 R151). -/
def Dev.ledFrom (d : Dev) (k : Fin 4) : Nat := (d.led[k]).trigAt + fld (d.ledReg k 4) 0 20

/-- The cycle in which a channel's pulse ends (06 R151). -/
def Dev.ledTo (d : Dev) (k : Fin 4) : Nat := d.ledFrom k + fld (d.ledReg k 8) 0 20

/-- A pulse's end: the loop updates GCODE from its sample; a pulse too short to sample sets SHORTP (06 R152). -/
def Dev.ledEnd (d : Dev) (k : Fin 4) : Dev :=
  let ctl := d.ledReg k 0
  d.updLed k fun l =>
    if l.on then
      let l1 := { l with on := false, armed := false, sampled := none }
      match l.sampled with
      | some s =>
        let g := ledLoop ctl s l.gcode
        { l1 with gcode := g, sat := l.sat || (g == 1023 && decide (s < fld ctl 8 10)) }
      | none => if fld (d.ledReg k 8) 0 20 < 160 then { l1 with shortp := true } else l1
    else l

/-- LED_PULSE_START (06 R151): START cycles after the period's trigger an armed channel drives its gate, where the outputs are driven. -/
def Dev.ledPulseStart (d : Dev) (k : Fin 4) : Dev :=
  if (d.led[k]).armed ∧ d.driven ∧ d.ledFrom k ≤ d.cycle then d.updLed k fun l => { l with on := true, armed := false, sampled := none } else d

/-- LED_PULSE_END (06 R151, R152): WIDTH cycles after its start a pulse ends. -/
def Dev.ledPulseEnd (d : Dev) (k : Fin 4) : Dev := if (d.led[k]).on ∧ d.ledTo k ≤ d.cycle then d.ledEnd k else d

/-- The LEDs at a period trigger (06 R151): what was due by now has happened, a pulse still on ends with TRUNC, and the channels of the mask are armed. A pulse that has not started by then (START is longer than the period) is dropped and shows in no status (DESIGN CHOICE, log 84). EN, the mask and a WIDTH other than 0 are judged here alone, START and WIDTH as they stand during the period (DESIGN CHOICE, log 98). -/
def Dev.ledTrigger (d : Dev) (maskv : Nat) : Dev :=
  (List.finRange 4).foldl (fun d k =>
    let d := (d.ledPulseStart k).ledPulseEnd k
    let d := if (d.led[k]).on then (d.ledEnd k).updLed k fun l => { l with trunc := true } else d
    let arm := bit (d.ledReg k 0) 0 && maskv.testBit k.val && decide (fld (d.ledReg k 8) 0 20 ≠ 0)
    d.updLed k fun l => { l with armed := arm, trigAt := d.cycle }) d

/-- LED_SAMPLE at mid-pulse (06 R152, R153): ISNS in 0.4 mV steps, the drain voltage in millivolts. -/
def Dev.ledSample (d : Dev) (k : Fin 4) (isns : BitVec 10) (dsns : Nat) : Dev :=
  let l := d.led[k]
  let w := fld (d.ledReg k 8) 0 20
  if l.on ∧ l.sampled.isNone ∧ 160 ≤ w ∧ d.ledFrom k + w / 2 ≤ d.cycle then
    let low := decide (dsns < 200 + 100 * min (fld (d.ledReg k 0) 4 4) 8)
    d.updLed k fun l => { l with sampled := some isns.toNat, meas := isns.toNat, headroom := l.headroom || low }
  else d

/-- The level of LEDk_GATE in nanovolts (06 R152, R154, 17 R389): GCODE × 5.0 V ÷ 1,023 in a pulse, within 2 % and the range of 0 to 5.0 V (where in it is a free value, log 11), and 0 otherwise; none is high impedance. -/
def Dev.gateOut (d : Dev) (k : Fin 4) : Option Nat :=
  let n := (d.led[k]).gcode * 5000000000 / 1023
  let lo := n * 98 / 100
  let hi := min 5000000000 (n * 102 / 100)
  if d.released then none
  else if d.driven && (d.led[k]).on then some (lo + Config.gateError k.val (d.led[k]).gcode % (hi - lo + 1)) else some 0

/-- The levels of a port's timing outputs SP, CP, RS and GS0 to GS5 (06 R154); none is high impedance, as at a port that the part lacks (17 R378). -/
def Dev.portOut (P : Part) (d : Dev) (p : PortId) : Option (BitVec 9) := if d.released || !portPresent P p then none else some (if d.driven then (d.port[p]).outs else 0)

/-! ### Periods -/

/-- A period of the line in progress is triggered: LEDs armed, and every port of the line waits for its start (06 R143, R146). -/
def Dev.startPeriod (d : Dev) (k : Nat) : Dev :=
  let d := { d with acq := { d.acq with period := k, started := d.cycle, done := d.acq.ports.isEmpty && decide (d.acq.periods ≤ k + 1) } }
  let d := d.acq.ports.foldl (fun d p => d.updPort p fun x => { x with
    running := false, ended := false, clk := 0, got := Vector.replicate 2 0, fifo := [], sol := 0, found := 0, search := false, lendAt := none }) d
  d.ledTrigger (d.periodLeds k)

/-- Anchor temperature a (07 R159). -/
def Dev.anchT (d : Dev) (a : Nat) : Int := sfld (d.reg (0x40010 + 4 * a)) 0 16

/-- NANCH (07 R158). -/
def Dev.nanch (d : Dev) : Nat := fld (d.reg 0x40000) 8 2 + 1

/-- The lower anchor and weight for a temperature (07 R162). -/
def Dev.bracket (d : Dev) (t : Int) : Nat × Nat :=
  let n := d.nanch
  if n = 1 ∨ t ≤ d.anchT 0 then (0, 0)
  else if d.anchT (n - 1) ≤ t then (n - 1, 0)
  else match (List.range (n - 1)).find? fun i => decide (d.anchT i ≤ t) && decide (t < d.anchT (i + 1)) with
    | some i => (i, ((t - d.anchT i) * 256 / (d.anchT (i + 1) - d.anchT i)).toNat)
    | none => (0, 0)

/-- TF and TVALID as they stood at the start of the present cycle (07 R161). -/
def Dev.tempStart (d : Dev) : Int × Bool :=
  match d.pix.tempWas with
  | some (c, v) => if c = d.cycle then v else (d.pix.temp, d.pix.tvalid)
  | none => (d.pix.temp, d.pix.tvalid)

/-- A line fire reaches the acquisition (06 R143, 07 R161): the shading temperature, bracket and seam offsets are latched and period 0 is triggered on every enabled port. With no port enabled the acquisition is always ready (R148): a fire while the LED periods of the line before still run leaves those that have not been triggered and begins at period 0 (DESIGN CHOICE, log 84). -/
def Dev.fireAcq (d : Dev) (kind : Capture) (line : Word) (slot : Fin 256) : Dev :=
  let inc := (List.range (d.nanch - 1)).all fun i => decide (d.anchT i < d.anchT (i + 1))
  let (temp, tvalid) := d.tempStart
  let (i, w) := if tvalid && inc then d.bracket temp else (0, 0)
  let d := d.updPix fun x => { x with
    anchErr := x.anchErr || !inc
    tstale := x.tstale || !tvalid
    shStat := (iword temp &&& 0xFFFF) ||| place i 16 ||| place w 24 }
  let d := { d with acq := { d.acq with
    line := line, kind := kind, slot := some slot, periods := d.linePeriods, ports := d.portsOn
    shT := temp, shI := i, shW := w, gains := [], clips := [], outs := [], old := false
    voff := if kind = Capture.numbered then d.hng.voff.toInt else 0
    hoff := if kind = Capture.numbered then d.hng.hoff.toInt else 0 } }
  let d := if d.width = 0 then d.updSlot slot fun s => { s with written := true, wroteAt := d.cycle } else d
  d.startPeriod 0

/-- PERIOD_TRIGGER (06 R146): every port has ended the period and 25 microseconds have passed since it started. -/
def Dev.periodTrigger (d : Dev) : Dev :=
  let a := d.acq
  if !a.done ∧ a.period + 1 < a.periods ∧ a.ports.all (fun p => (d.port[p]).ended) ∧ a.started + 10000 ≤ d.cycle then
    d.startPeriod (a.period + 1)
  else d

/-! ### Edge tables -/

/-- A word of an edge table (06 R141). -/
def Dev.edge (d : Dev) (p : PortId) (b i : Nat) : Word := d.portReg p (0x400 + 0x100 * b + 4 * i)

/-- The position of an entry in eighths of a pixel clock: its own, or its predecessor's where that lies later (06 R139). -/
def PortSt.entryPos (x : PortSt) (w : Word) : Nat := max x.pos (8 * fld w 0 16 + (if fld w 20 4 < 9 then fld w 16 3 else 0))

/-- One entry takes effect (06 R137, R139, R140). VALID and LEND act at whole clocks: one whose predecessor stands at a fractional position acts at the next whole clock (DESIGN CHOICE, log 84). A table without LEND ends one pixel clock after its last entry's position, with EDGEERR. A later SP edge of a period starts a new search, and the pixels that follow its start-of-line code go on where the count stands (DEDUCED, log 84). -/
def PortSt.entry (x : PortSt) (w : Word) : PortSt :=
  let sig := fld w 20 4
  let level := bit w 24
  let pos := x.entryPos w
  let early := decide (8 * fld w 0 16 + (if sig < 9 then fld w 16 3 else 0) < x.pos)
  let fin := bit w 31 || x.ent == 63
  let clk := (pos + 7) / 8
  let rise := sig == 0 && level && !x.outs.getLsbD 0
  { x with
    ent := x.ent + 1, pos := pos, walked := fin || sig == 10
    edgeErr := x.edgeErr || early || decide (11 ≤ sig) || (fin && sig != 10)
    outs := if sig < 9 then (if level then x.outs ||| (1#9 <<< sig) else x.outs &&& ~~~(1#9 <<< sig)) else x.outs
    search := x.search || rise
    sol := if rise then 0 else x.sol
    win := if sig = 9 ∧ pos % 8 = 0 then level else x.win
    winNext := if sig = 9 ∧ pos % 8 ≠ 0 then some (clk, level) else x.winNext
    lendAt := if sig = 10 then some clk else if fin then some (clk + 1) else x.lendAt }

/-- The entries up to a position take effect, in index order (06 R139). -/
def PortSt.edges (tab : Nat → Word) (upTo : Nat) : Nat → PortSt → PortSt
  | 0, x => x
  | fuel + 1, x =>
    if x.walked then x
    else if x.entryPos (tab x.ent) ≤ upTo then PortSt.edges tab upTo fuel (x.entry (tab x.ent))
    else x

/-- The edge engine of a port brought to a position, in eighths of a pixel clock after the period's start. -/
def Dev.edgesTo (d : Dev) (p : PortId) (upTo : Nat) : Dev :=
  d.updPort p fun x => x.edges (d.edge p x.actBank.val) upTo 64

/-- The period of a port has reached its LEND (06 R140). -/
def PortSt.atLend (x : PortSt) : Bool := match x.lendAt with | some c => decide (c ≤ x.clk) | none => false

/-- PERIOD_START (06 R139): the trigger has reached CK_PIXn and the edge engine begins its walk. -/
def Dev.periodStart (d : Dev) (p : PortId) : Dev :=
  let x := d.port[p]
  if p ∈ d.acq.ports ∧ !d.acq.done ∧ !x.ended ∧ !x.running ∧ x.ckLock then
    (d.updPort p fun x => { x with
      running := true, clk := 0, ent := 0, pos := 0, walked := false, win := false, winNext := none, lendAt := none, search := false }).edgesTo p 0
  else d

/-! ### Pixels -/

/-- PORTn_CTL.MODE = 1. -/
def Dev.digital (d : Dev) (p : PortId) : Bool := bit (d.portReg p 0) 1

/-- ARR of a port, 3 acting as SINGLE (06 R135). -/
def Dev.arr (d : Dev) (p : PortId) : Nat := let a := fld (d.portReg p 0) 2 2; if a = 3 then 0 else a

/-- Digital pixel width in bits (06 R155). -/
def Dev.pixBits (d : Dev) (p : PortId) : Nat := match fld (d.portReg p 0) 4 2 with | 0 => 10 | 1 => 12 | _ => 14

/-- Pixels of one plane block that input or lane j carries (06 R135). -/
def Dev.share (d : Dev) (p : PortId) (j : Nat) : Nat :=
  let w := d.portWidth p
  if d.arr p = 0 then (if j = 0 then w else 0)
  else if j = 0 then (w + 1) / 2 else w / 2

/-- The gain of an input's PGA at a code (06 R136), in units of 2^-32: 10 to the 200th part of a number at most 2 away from the code, for 17 R384 allows each code 0.2 dB of error (log 11). -/
def pgaGain (p : PortId) (j gain : Nat) : Nat :=
  let one := (2 ^ 32) ^ 200
  let lo := searchMax (fun u => decide (u ^ 200 * 100 < one * 10 ^ gain)) 38 0 (2 ^ 37) + 1
  let hi := searchMax (fun u => decide (u ^ 200 ≤ one * 10 ^ (gain + 2))) 38 0 (2 ^ 37)
  lo + Config.pgaError p.val j gain % (hi - lo + 1)

/-- The error of the threshold of a converter's code in thousandths of an LSB (17 R384): at most 4 LSB of INL, and from one code to the next at most 0.9 LSB of DNL, so that codes rise with the voltage and none is missing; the ends of the range are exact (06 R136). -/
def adcError (p : PortId) (j c : Nat) : Int :=
  let free := (List.range 17).map fun i => (Config.adcError p.val j (c + i - 8) % 8001 : Nat) - 4000 + 900 * ((i : Int) - 8).natAbs
  let e := free.foldl min 4000
  max (-min 4000 (900 * (c : Int))) (min e (900 * (min c (16383 - c) : Nat)))

/-- The code of a level in thousandths of an LSB: the codes whose thresholds it has reached. -/
def adcCode (p : PortId) (j x : Nat) : Nat :=
  let base := x / 1000 - 5
  min 16383 (base + ((List.range 11).filter fun i => decide ((1000 * (base + i + 1) : Nat) + adcError p j (base + i + 1) ≤ x)).length)

/-- The code an analogue input is converted to (06 R136), from its reset and data samples in half microvolts at the PGA input, where 2.0 V at a gain of 1 stand for code 16,383. The gain and the thresholds of the converter are free values inside the limits of 17 R384 (log 11). -/
def Dev.adc (d : Dev) (p : PortId) (j : Nat) (rst dat : Int) : Nat :=
  let offs := sfld (d.portReg p 0x10) (16 * j) 10
  let gain := min 240 (fld (d.portReg p 0xC) (8 * j) 8)
  let v := (if bit (d.portReg p 0) 7 then dat - rst else dat) + offs * 1000
  adcCode p j (min 16383000 (v.toNat * pgaGain p j gain * 16383000 / (4000000 * 2 ^ 32)))

/-- Pixels of an input or lane that the port has taken in this period. -/
def PortSt.count (x : PortSt) (j : Fin 2) : Nat := x.got[j] + (x.fifo.filter fun c => c / 2 ^ 14 % 2 == j.val).length

/-- One pixel offered to the port FIFO: ignored beyond the period's count, dropped for code 0 with OVR and event 4 + n once a line when the FIFO is full (06 R140, R150). -/
def Dev.pushPixel (d : Dev) (p : PortId) (j : Fin 2) (code : Nat) : Dev :=
  let x := d.port[p]
  let blocks := d.blocks d.acq.period
  if blocks ≠ 0 ∧ blocks * d.share p j.val ≤ x.count j then d
  else if (x.fifo.filter fun c => c < 2 ^ 15).length < 128 then d.updPort p fun x => { x with fifo := x.fifo ++ [code + 2 ^ 14 * j.val] }
  else
    let d1 := d.updPort p fun x => { x with fifo := x.fifo ++ [2 ^ 14 * j.val + 2 ^ 15], ovr := true, ovrRaised := true }
    if x.ovrRaised then d1 else d1.raise ⟨4 + p.val, by omega⟩ d.acq.line

/-- The video and lane inputs are connected (06 R154); where the outputs are released the inputs are too (DESIGN CHOICE, log 101). -/
def Dev.inputsOn (d : Dev) : Bool := !d.released && d.sys.outcome != 2

/-- One word of a digital lane: the start-of-line code while the lane searches, a pixel afterwards (06 R137); an input at high impedance gives a free word. -/
def Dev.laneWord (d : Dev) (p : PortId) (j : Fin 2) (v : Int) : Dev :=
  let n := d.pixBits p
  let (f, d) := if d.inputsOn then (v.toNat, d) else ((Config.floating d.free).toNat, d.takeFree.2)
  let x := d.port[p]
  let w := f % 2 ^ n
  if x.sol.getLsbD j.val then d.pushPixel p j (w * 2 ^ (14 - n))
  else if x.search ∧ w = fld (d.portReg p 0x14) 0 14 % 2 ^ n then
    d.updPort p fun x => { x with sol := x.sol ||| (1#2 <<< j.val), found := x.found ||| (1#2 <<< j.val) }
  else d

/-- One converted pixel of an analogue input; an input at high impedance gives a free code. -/
def Dev.videoIn (d : Dev) (p : PortId) (j : Fin 2) (rst dat : Int) : Dev :=
  if d.inputsOn then d.pushPixel p j (d.adc p j.val rst dat)
  else d.takeFree.2.pushPixel p j (Config.floating d.free).toNat

/-- A video sample in half microvolts: the clamp level while CP is at level 1 (06 R136), the input otherwise. -/
def Dev.clamped (d : Dev) (p : PortId) (v : Int) : Int :=
  if (d.port[p]).outs.getLsbD 1 then (fld (d.portReg p 0xC) 24 8 * 15625 : Nat) else 2 * v

/-- One pixel clock of a running period (06 R136, R137, R139, R140): the edges within the clock take effect, the analogue inputs are sampled SHR and SHD eighths after its start and give a pixel where VALID is open, and a digital port reads a word on every used lane; then the edges of the next clock's start. A lane's word counts as after an SP edge within its clock (DESIGN CHOICE, log 84). -/
def Dev.takeVid (d : Dev) (p : PortId) (v : Vid) : Dev :=
  let x := d.port[p]
  if x.atLend then d
  else
    let base := 8 * x.clk
    let shr := fld (d.portReg p 0xC) 16 3
    let shd := fld (d.portReg p 0xC) 19 3
    let dr := d.edgesTo p (base + shr)
    let dd := d.edgesTo p (base + shd)
    let e := d.edgesTo p (base + 7)
    let e :=
      if d.digital p then
        let e := e.laneWord p 0 v.da
        if d.arr p = 0 then e else e.laneWord p 1 v.db
      else if x.win then
        let e := e.videoIn p 0 (dr.clamped p v.ra) (dd.clamped p v.da)
        if d.arr p = 0 then e else e.videoIn p 1 (dr.clamped p v.rb) (dd.clamped p v.db)
      else e
    (e.updPort p fun y => { y with
      clk := x.clk + 1
      win := (match y.winNext with | some (c, l) => if c = x.clk + 1 then l else y.win | none => y.win)
      winNext := match y.winNext with | some (c, _) => if c = x.clk + 1 then none else y.winNext | none => none }).edgesTo p (base + 8)

/-- The plane block and the pixel of the port's own line that the k-th pixel of an input or lane is (06 R135, R144). With an odd WIDTH in ODD_EVEN each input carries its own share of a block, and in parallel-plane mode input B's sample of a block's last clock is the next block's first odd pixel (DESIGN CHOICE, log 84). -/
def Dev.placeOf (d : Dev) (p : PortId) (j k : Nat) : Nat × Nat :=
  let s := d.share p j
  (k / s, match d.arr p with
    | 1 => 2 * (k % s) + j
    | 2 => if j = 0 then k % s else d.share p 0 + k % s
    | _ => k % s)

/-- A port is disabled: its outputs go inactive and its clock stops (06 R148, R154). -/
def Dev.portDisable (d : Dev) (p : PortId) : Dev :=
  d.updPort p fun x => { x with disPend := false, outs := 0, ckLock := false }

/-- A port's line boundary: a pending ARM and a pending disable take effect (06 R142, R148). -/
def Dev.portBoundary (d : Dev) (p : PortId) : Dev :=
  let d := d.updPort p fun x => { x with actBank := x.arm.getD x.actBank, arm := none }
  if (d.port[p]).disPend then d.portDisable p else d

/-- A period may end for a port: it has been triggered and the port has not ended it. -/
def Dev.inPeriod (d : Dev) (p : PortId) : Bool := d.acq.ports.contains p && !d.acq.done && !(d.port[p]).ended

/-! ### Enabling and disabling -/

/-- The pixel clock setting is in range (06 R138). -/
def clockOk (ctl pllp : Word) : Bool :=
  if bit ctl 6 then bit ctl 1
  else
    let prod := 25 * (fld pllp 16 6 * 65536 + fld pllp 0 16)
    let div := fld pllp 24 8
    decide (div ≠ 0) && decide (800 * 65536 ≤ prod) && decide (prod ≤ 1600 * 65536) &&
      decide (5 * 65536 * div ≤ prod) && decide (prod ≤ 80 * 65536 * div)

/-- A write of PORTn_CTL with EN = 1 to a port that is off: the other fields are taken, and EN is set when the clock and the widths pass (06 R138, R147). A port that is still BUSY after EN = 0 counts in the sum of widths as an enabled one (DESIGN CHOICE, log 84). -/
def Dev.portTryEnable (P : Part) (d : Dev) (p : PortId) (v : Word) : Dev :=
  let d := d.writeReg P (portOff p 0) v
  let ck := clockOk (d.portReg p 0) (d.portReg p 8)
  let raw := fld (d.portReg p 4) 0 14
  let wd := decide (1 ≤ raw) && decide (raw ≤ 12288) && decide (d.portWidth p + d.width ≤ 6144 * P.ports)
  if ck && wd then
    let d := d.setReg (portOff p 0) (putBit (d.portReg p 0) 0 true)
    d.updPort p fun x => { x with
      actBank := x.arm.getD x.actBank, arm := none, running := false, ended := true, ovrRaised := false
      ckLock := bit (d.portReg p 0) 6 && x.ckLane }
  else
    let d := if ck then d else d.updPort p fun x => { x with ckErr := true }
    if wd then d else { d with widthErr := true }

/-- A write of PORTn_CTL (06 R147, R148). -/
def Dev.portCtlWrite (P : Part) (d : Dev) (p : PortId) (v : Word) : Dev :=
  let en := bit (d.portReg p 0) 0
  if bit v 0 then
    if en then d.writeReg P (portOff p 0) v
    else if (d.port[p]).disPend then
      let d := d.writeReg P (portOff p 0) v
      (d.setReg (portOff p 0) (putBit (d.portReg p 0) 0 true)).updPort p fun x => { x with disPend := false }
    else d.portTryEnable P p v
  else
    let d := d.writeReg P (portOff p 0) v
    if en then
      let d := d.setReg (portOff p 0) (putBit (d.portReg p 0) 0 false)
      if d.acq.ports.contains p && !d.acq.done then d.updPort p fun x => { x with disPend := true } else d.portDisable p
    else d

/-- CKLOCK under PLL-P (06 R138). -/
def Dev.pllpLock (d : Dev) (p : PortId) : Dev :=
  if d.portOn p ∧ !bit (d.portReg p 0) 6 then d.updPort p fun x => { x with ckLock := true } else d

/-- The sensor's clock lane starts or stops (06 R138). -/
def Dev.clockLane (d : Dev) (p : PortId) (present : Bool) : Dev :=
  let use := d.portOn p && bit (d.portReg p 0) 6
  d.updPort p fun x => { x with ckLane := present, ckLock := if use then present else x.ckLock }

/-- A write of an edge-table entry (06 R141). -/
def Dev.edgeWrite (P : Part) (d : Dev) (p : PortId) (b i : Nat) (v : Word) : Dev :=
  if bit (d.portReg p 0) 0 ∧ (d.port[p]).actBank.val = b then d.updPort p fun x => { x with wact := true }
  else d.writeReg P (portOff p (0x400 + 0x100 * b + 4 * i)) v

/-- A write of PORT_CMODE (06 R145, R148): identity 3 leaves its plane field on a part without the X plane, and a plane identity used twice sets PLDUP. -/
def Dev.cmodeWrite (P : Part) (d : Dev) (v : Word) : Dev :=
  if d.running then d
  else
    let old := d.reg 0x30000
    let x3 := (List.range 4).filter fun i => fld v (8 + 6 * i) 2 == 3 && !P.xplane
    let v := x3.foldl (fun w i => putFld w (8 + 6 * i) 6 (fld old (8 + 6 * i) 6)) v
    let d := d.writeReg P 0x30000 v
    let ids := (List.range d.npl).map d.planeId
    let d := if ids.dedup.length < ids.length then { d with pldup := true } else d
    if x3.isEmpty then d else d.setAbsent

/-- ARM (06 R142): Z tells that no earlier ARM was pending. -/
def Dev.armPort (d : Dev) (p : PortId) (b : Fin 2) : Bool × Dev :=
  ((d.port[p]).arm.isNone, d.updPort p fun x => { x with arm := some b })

/-- PORTn_STATE. -/
def Dev.portState (d : Dev) (p : PortId) : Word :=
  let x := d.port[p]
  place x.actBank.val 0 ||| flag x.arm.isSome 1 ||| flag x.disPend 2 ||| flag x.ckLock 3 ||| place x.laneLock.toNat 4

/-- PORTn_STATUS. -/
def Dev.portStatus (d : Dev) (p : PortId) : Word :=
  let x := d.port[p]
  flag x.ovr 0 ||| flag x.short 1 ||| flag x.edgeErr 2 ||| flag x.wact 3 ||| flag x.ckErr 4 ||| flag x.solMiss 5

/-- A W1C write of PORTn_STATUS. -/
def Dev.portStatusW1c (d : Dev) (p : PortId) (v : Word) : Dev :=
  d.updPort p fun x => { x with
    ovr := x.ovr && !bit v 0, short := x.short && !bit v 1, edgeErr := x.edgeErr && !bit v 2
    wact := x.wact && !bit v 3, ckErr := x.ckErr && !bit v 4, solMiss := x.solMiss && !bit v 5 }

/-- LEDk_STATUS. -/
def Dev.ledStatus (d : Dev) (k : Fin 4) : Word :=
  let l := d.led[k]
  flag l.headroom 0 ||| flag l.trunc 1 ||| flag l.shortp 2 ||| flag l.sat 3

/-- A write of an LED register below PORT+0x180, its offset within the channel (06 R152, R155). EN = 0 during a pulse ends it at once, with no update of the loop even where it has been sampled (DESIGN CHOICE, log 84). -/
def Dev.ledWrite (P : Part) (d : Dev) (k : Fin 4) (o : Nat) (v : Word) : Dev :=
  if o = 0 then
    let d := d.writeReg P (0x30100 + 0x20 * k.val) v
    if bit v 0 then d else d.updLed k fun l => { l with on := false, armed := false, sampled := none }
  else if o = 0xC then (if bit (d.ledReg k 0) 0 then d else d.updLed k fun l => { l with gcode := fld v 0 10 })
  else if o = 0x14 then
    d.updLed k fun l => { l with headroom := l.headroom && !bit v 0, trunc := l.trunc && !bit v 1, shortp := l.shortp && !bit v 2, sat := l.sat && !bit v 3 }
  else d.writeReg P (0x30100 + 0x20 * k.val + o) v

end Sys2Proof.Machine
end

