-- ==== Sys2Proof/Machine/Motion.lean ====
section
/-!
DEFINITION. Motion axes: settings, interpolated positions, encoders, the planner's rule and stop distance, backlash take-ups, stalls and stops, program moves, and the step generator with its currents (08 R177-R196).
-/
namespace Sys2Proof.Machine

/-! ### Settings -/

/-- MS = 2^MSLOG, MSLOG above 8 acting as 8 (08 R178). -/
def Dev.ms (d : Dev) (m : AxisId) : Nat := 2 ^ min 8 (fld (d.motReg m 0) 2 4)

/-- Microstep size with 16 fractional bits (08 R178). -/
def Dev.ustep (d : Dev) (m : AxisId) : Int := 65536 / d.ms m * 65536

/-- VMAX_eff with 16 fractional bits (08 R178). -/
def Dev.vmaxEff (d : Dev) (m : AxisId) : Nat := min (d.motReg m 0xC).toNat (16384 / d.ms m) * 65536

/-- AMAX with 24 fractional bits, 0 acting as 1 (08 R185). -/
def Dev.amax (d : Dev) (m : AxisId) : Nat := max 1 (d.motReg m 0x10).toNat * 256

/-- JMAX with 24 fractional bits, 0 acting as 1 (08 R185). -/
def Dev.jmax (d : Dev) (m : AxisId) : Nat := max 1 (d.motReg m 0x14).toNat

/-- ENCPU, 0 acting as 1 (08 R182). -/
def Dev.encpu (d : Dev) (m : AxisId) : Nat := max 1 (fld (d.motReg m 0x30) 0 24)

/-- BLOFF after motion in a direction, with 16 fractional bits (08 R193). -/
def Dev.blAfter (d : Dev) (m : AxisId) (back : Bool) : Int := if back then -(fld (d.motReg m 0x3C) 0 24 * 65536 : Nat) else 0

/-! ### Positions -/

/-- Cycles since the interval's boundary, at most 400 (08 R188). -/
def Dev.segCycle (d : Dev) (m : AxisId) : Nat := min 400 (d.cycle - (d.mot[m]).segAt)

/-- The interpolated commanded position with 16 fractional bits (08 R188). -/
def Dev.posNow (d : Dev) (m : AxisId) : Int :=
  let x := d.mot[m]
  x.pStart + (x.pMove * d.segCycle m).tdiv 400

/-- The interpolated backlash offset (08 R193). -/
def Dev.blNow (d : Dev) (m : AxisId) : Int :=
  let x := d.mot[m]
  let b := x.blStart + (x.blRate * d.segCycle m).tdiv 400
  if 0 < x.blRate then min b x.blOff else if x.blRate < 0 then max b x.blOff else x.blOff

/-- The microstep index of the motor position (08 R179). -/
def Dev.stepNow (d : Dev) (m : AxisId) : Int := (d.posNow m + d.blNow m) / d.ustep m

/-- Steps crossed and not yet emitted (08 R179). -/
def Dev.stepsPending (d : Dev) (m : AxisId) : Nat := (d.stepNow m - (d.mot[m]).stepIdx).natAbs

/-- The counted encoder position in pu (08 R182). -/
def Dev.counted (d : Dev) (m : AxisId) : Int := (d.mot[m]).encOrg + (d.mot[m]).encCnt.toInt * d.encpu m

/-- The encoder position of the trigger comparator with 16 fractional bits (08 R183). -/
def Dev.encNow (d : Dev) (m : AxisId) : Int :=
  let x := d.mot[m]
  let c := d.counted m * 65536
  if bit (d.motReg m 0) 7 then
    let e := min (x.pMove.natAbs * (d.cycle - x.lastCount) / 400) ((d.encpu m - 1) * 65536)
    c + sgn x.pMove * e
  else c

/-- The position the trigger comparator uses (02 R33). -/
def Dev.trigPos (d : Dev) : Int := if bit d.hngCtl 2 then d.encNow 0 else d.posNow 0

/-- The M0 position in whole pu, as POS of a line header shows it. -/
def Dev.trigPu (d : Dev) : Int := d.trigPos / 65536

/-! ### Planner arithmetic -/

/-- s(u) ≤ e of 08 R186, with u and e in 2^-16 and a and j in 2^-24 units. -/
def stopWithin (a j u e : Nat) : Bool :=
  if u * j * 256 < a * a then decide (u ^ 3 * 256 ≤ e * e * j) else decide (u * (u * j * 256 + a * a) ≤ 2 * e * a * j)

/-- vstop(e), limited to VMAX_eff (08 R186, R178). -/
def Dev.vstop (d : Dev) (m : AxisId) (e : Nat) : Nat := searchMax (fun u => stopWithin (d.amax m) (d.jmax m) u e) 64 0 (d.vmaxEff m)

/-- D_acc = ceil(s(u)) for a speed in whole pu per microsecond (08 R187). -/
def Dev.daccOf (d : Dev) (m : AxisId) (u : Nat) : Nat :=
  let a := d.amax m
  let j := d.jmax m
  if u * j * 2 ^ 24 < a * a then
    let n := u ^ 3 * 2 ^ 24
    let fl := isqrtLoop (n / j) 128 0 (n + 1)
    if fl * fl * j = n then fl else fl + 1
  else
    let num := u * (u * 2 ^ 24 * j + a * a)
    (num + 2 * a * j - 1) / (2 * a * j)

/-- The speed and acceleration rule of 08 R185. The product a × |a| is exact, the quotient by 2 × jmax has 24 fractional bits, and a is cut toward zero to 16 of them before v + a (DESIGN CHOICE, log 116). -/
def planRule (vt v a : Int) (amax jmax vmax : Nat) : Int × Int :=
  let dv := vt - v
  let brake := (a * a.natAbs).tdiv (2 * jmax)
  if dv.natAbs * 256 ≤ jmax ∧ a.natAbs ≤ jmax then (vt, 0)
  else
    let a1 := clampI (-amax) amax (a + sgn (dv * 256 - brake) * jmax)
    (clampI (-vmax) vmax (v + a1.tdiv 256), a1)

/-! ### Rest, ends of moves and stops -/

/-- Motion or a take-up in the interval (08 R180): IRUN again, and the rest before it is over. -/
def Dev.inMotion (d : Dev) (m : AxisId) : Dev :=
  d.updMot m fun x => if x.pMove ≠ 0 ∨ x.v ≠ 0 ∨ x.takeUp.isSome then { x with wasRest := false, hold := false } else x

/-- Rest judged again (08 R180, R192): entering rest records its position and time, motion restores IRUN. -/
def Dev.restUpdate (d : Dev) (m : AxisId) : Dev :=
  let r := d.atRest m
  d.updMot m fun x =>
    if r && !x.wasRest then { x with wasRest := true, restP := x.p, restSince := d.cycle, stepped := false }
    else if !r then { x with wasRest := false, hold := false }
    else x

/-- Mm_DONE (08 R190). -/
def Dev.motDone (d : Dev) (m : AxisId) (detail : Bool) : Dev := d.raise ⟨17 + m.val, by omega⟩ (flag detail 0)

/-- The interval's segment without travel. -/
def Dev.segHold (d : Dev) (m : AxisId) : Dev :=
  d.updMot m fun x => { x with segAt := d.cycle, pStart := x.p, pMove := 0, blStart := x.blOff, blRate := 0 }

/-- The step generator's index follows the position after p or MSLOG was set at rest. -/
def Dev.reindex (d : Dev) (m : AxisId) : Dev := d.updMot m fun x => { x with stepIdx := d.stepNow m }

/-- The program move that LINE START was to end has ended before the Hinge takes M0 over (08 R189). -/
def Dev.endedM0 (d : Dev) (m : AxisId) : Dev := if m = 0 then d.updHng fun h => { h with endM0 := false } else d

/-- The axis stops at once (08 R191, R192): pending steps discarded, p back to the last emitted step, or to the last rest where none has been emitted since and none stays pending by it, BLOFF kept, and the program move in progress ended, with the MSTOP that waits for it. -/
def Dev.stopNow (d : Dev) (m : AxisId) : Dev :=
  let x := d.mot[m]
  let bl := d.blNow m
  let p := if x.stepped ∨ (x.restP + bl) / d.ustep m ≠ x.stepIdx then x.stepIdx * d.ustep m - bl else x.restP
  let d := (d.updMot m fun x => { x with
    p := p, v := 0, a := 0, blOff := bl, takeUp := none, cmd := .none, next := if x.next = some .stop then none else x.next }).segHold m
  let d := if x.cmd = .none ∧ x.next ≠ some .stop then d else (d.endedM0 m).motDone m true
  d.restUpdate m

/-- A stall (08 R194). -/
def Dev.stall (d : Dev) (m : AxisId) (diff : Int) : Dev :=
  let d := (d.updMot m fun x => { x with stalled := true, stStall := true }).stopNow m
  d.raise ⟨19 + m.val, by omega⟩ (nword (min diff.natAbs 0xFFFFFFFF))

/-! ### The planner interval -/

/-- V_OVL in pu per microsecond (02 R54), without its fraction (DESIGN CHOICE, log 116). -/
def Dev.vovl (d : Dev) : Nat := min d.vscan (d.pitch / 100)

/-- DIR turns to a direction of motion, in this cycle or 1 microsecond after the last step (08 R179). That it turns with the interval in which the motor's motion turns is DEDUCED (log 74). -/
def Dev.aimDir (d : Dev) (m : AxisId) (s : Int) : Dev :=
  d.updMot m fun x =>
    if s = 0 ∨ x.stepBack = decide (s < 0) then x
    else { x with stepBack := decide (s < 0), dirAt := some (match x.stepAt with | some t => max d.cycle (t + 400) | none => d.cycle) }

/-- The direction of the motor's motion in the interval that begins. -/
def Axis.heading (x : Axis) : Int := if x.pMove ≠ 0 then sgn x.pMove else sgn x.blRate

/-- The target of an axis: the Hinge's on M0 while it holds it, else the program's (08 R189). -/
def Dev.target (d : Dev) (m : AxisId) : MoveCmd :=
  if m = 0 ∧ d.hng.ownsM0 then
    match d.hng.st with
    | .run => .vel d.hng.vtgt.toNat
    | .reverse => if d.hng.revDone then .stop else .pos (d.hng.pRev * 65536)
    | .rerun => .vel d.vovl
    | .overlap => .vel d.vovl
    | .guard => .vel d.vovl
    | _ => .stop
  else (d.mot[m]).cmd

/-- A take-up's interval: BLOFF moves at BLRATE while p holds; it lasts to the end of the interval in which BLOFF arrives (08 R193). -/
def Dev.takeUpStep (d : Dev) (m : AxisId) (goal : Int) : Dev :=
  let rate : Int := max 1 (fld (d.motReg m 0x40) 0 16) * 65536
  d.updMot m fun x =>
    let rem := goal - x.blOff
    let fin := decide (rem.natAbs ≤ rate.natAbs)
    { x with
      segAt := d.cycle, pStart := x.p, pMove := 0, blStart := x.blOff, blRate := sgn rem * rate
      blOff := if fin then goal else x.blOff + sgn rem * rate
      takeUp := some goal }

/-- A take-up whose BLOFF has arrived is over at the boundary (08 R193). -/
def Dev.takeUpOver (d : Dev) (m : AxisId) : Dev :=
  d.updMot m fun x => if x.takeUp = some x.blOff then { x with takeUp := none } else x

/-- A move ends (08 R186, R190). -/
def Dev.moveEnd (d : Dev) (m : AxisId) (detail : Bool) : Dev :=
  if m = 0 ∧ d.hng.ownsM0 then d.updHng fun h => { h with revDone := true }
  else (d.updMot m fun x => { x with cmd := .none }).motDone m detail

/-- The target speed of the interval with 16 fractional bits, the sign of the motion the target needs, and VCLIP where a commanded speed is clamped (08 R178, R186, R193). -/
def Dev.targetSpeed (d : Dev) (m : AxisId) : Int × Int × Bool :=
  let vm : Int := d.vmaxEff m
  match d.target m with
  | .pos t =>
    let e := t - (d.mot[m]).p
    (sgn e * d.vstop m e.natAbs, sgn e, false)
  | .vel u => (clampI (-vm) vm (u * 65536), sgn (clampI (-vm) vm (u * 65536)), decide (vm < (u * 65536).natAbs))
  | _ => (0, 0, false)

/-- The motion of one interval toward the target (08 R185, R186, R193). p grows beyond 48 bits, of which the registers show the low ones (DESIGN CHOICE, log 116). BLOFF keeps its value when MOT_Mm_BACKLASH is rewritten at rest, and the next motion takes up the difference (DESIGN CHOICE, log 117). -/
def Dev.planMove (d : Dev) (m : AxisId) : Dev :=
  let (vt, need, clip) := d.targetSpeed m
  let d := if clip then d.updMot m fun x => { x with vclip := true } else d
  let x := d.mot[m]
  let bl := d.blAfter m (decide (need < 0))
  if x.v = 0 ∧ x.a = 0 ∧ need ≠ 0 ∧ x.blOff ≠ bl then d.takeUpStep m bl
  else
    let (v, a) := planRule vt x.v x.a (d.amax m) (d.jmax m) (d.vmaxEff m)
    if v ≠ 0 ∧ sgn v ≠ sgn x.v ∧ x.blOff ≠ d.blAfter m (decide (v < 0)) then
      (d.updMot m fun x => { x with v := 0, a := 0 }).takeUpStep m (d.blAfter m (decide (v < 0)))
    else
      let p := x.p + v
      let (p, v, a, fin) := match d.target m with
        | .pos t => if (t - p).natAbs ≤ 256 * 65536 ∧ v.natAbs ≤ 16 * 65536 then (t, 0, 0, some false) else (p, v, a, none)
        | .stop => (p, v, a, if v = 0 ∧ a = 0 then some true else none)
        | _ => (p, v, a, none)
      let d := d.updMot m fun x => { x with
        segAt := d.cycle, pStart := x.p, pMove := p - x.p, blStart := x.blOff, blRate := 0
        dirBack := if p = x.p then x.dirBack else decide (p < x.p), p := p, v := v, a := a }
      match fin with
      | some detail => if (m = 0 ∧ d.hng.ownsM0) ∧ detail then d else d.moveEnd m detail
      | none => d

/-- The Hinge takes M0 over at the interval after LINE START, even where LINE STOP has come first: the program's move ends (08 R189). -/
def Dev.takeOverM0 (d : Dev) : Dev :=
  if d.hng.takeM0 then
    let d1 := (d.updHng fun h => { h with takeM0 := false, ownsM0 := true, endM0 := false }).updMot 0 fun x => { x with cmd := .none, takeUp := none }
    if d.hng.endM0 then d1.motDone 0 true else d1
  else d

/-- A program move on M0 is in progress or accepted (08 R189). -/
def Dev.progM0 (d : Dev) : Bool := (d.mot[(0 : AxisId)]).cmd != .none || (d.mot[(0 : AxisId)]).next.isSome

/-- After LINE STOP control of M0 returns to programs once it is at rest (08 R189). -/
def Dev.releaseM0 (d : Dev) : Dev :=
  if d.hng.ownsM0 ∧ d.hng.st = .off ∧ d.atRest 0 then d.updHng fun h => { h with ownsM0 := false } else d

/-- The stall comparison at an interval boundary (08 R194). -/
def Dev.stallCheck (d : Dev) (m : AxisId) : Dev :=
  let ctl := d.motReg m 0
  let x := d.mot[m]
  let diff := x.p / 65536 - d.counted m
  if bit ctl 9 ∧ bit ctl 7 ∧ x.takeUp.isNone ∧ !x.stalled ∧ max 65536 (d.motReg m 0x38).toNat < diff.natAbs then d.stall m diff else d

/-- One interval of one axis (08 R185-R194). A move that MSTOP ends has ended when the axis has come to rest, and raises no Mm_DONE where a MOVE is accepted before (DESIGN CHOICE, log 117). -/
def Dev.planAxis (d : Dev) (m : AxisId) : Dev :=
  let d := (if m = 0 then d.takeOverM0 else d).takeUpOver m
  let d := d.stallCheck m
  if d.held m then (d.segHold m).restUpdate m
  else
    let mine := !(m == 0 && d.hng.ownsM0)
    let d := if mine ∧ (d.mot[m]).takeUp.isNone then d.updMot m fun x => { x with cmd := x.next.getD x.cmd, next := none } else d
    let d := match (d.mot[m]).takeUp with
      | some g => d.takeUpStep m g
      | none => d.planMove m
    let d := (d.inMotion m).aimDir m (d.mot[m]).heading
    let d := if m = 0 then d.releaseM0 else d
    d.restUpdate m

/-! ### Program operations -/

/-- MOVE (08 R190, R191, 04 R112): Z and the target kept for the next interval. -/
def Dev.moveAxis (d : Dev) (m : AxisId) (c : MoveCmd) : Bool × Dev :=
  if m = 0 ∧ d.running then (false, d) else (true, d.updMot m fun x => { x with next := some c })

/-- The base of a MOVE in mode 1: the target of the position move in progress, else the present position; MSTOP has cancelled a target (08 R190). -/
def Dev.moveBase (d : Dev) (m : AxisId) : Int :=
  match (d.mot[m]).next, (d.mot[m]).cmd with
  | some .stop, _ => d.posNow m
  | _, .pos t => t
  | _, _ => d.posNow m

/-- MSTOP (08 R190, R191, R193): a move that a LINE START ends at the next interval already is not ended twice (R189). -/
def Dev.mstopAxis (d : Dev) (m : AxisId) : Bool × Dev :=
  if m = 0 ∧ d.running then (false, d)
  else
    let x := d.mot[m]
    let prog := x.next.isSome || (x.cmd != .none && !(m == 0 && d.hng.takeM0))
    if d.held m then (true, if x.next.isSome then (d.updMot m fun x => { x with next := none }).motDone m true else d)
    else if x.takeUp.isSome then
      let d1 := (d.updMot m fun x => { x with blOff := d.blNow m, takeUp := none, cmd := .none, next := none }).segHold m
      (true, (if prog then d1.motDone m true else d1).restUpdate m)
    else if prog then (true, d.updMot m fun x => { x with next := some .stop })
    else (true, d)

/-! ### Encoders -/

/-- Place of a pair of encoder levels in the cycle in which A leads B. -/
def quadrant (a b : Bool) : Nat := if a then (if b then 2 else 1) else (if b then 3 else 0)

/-- ENCODER_COUNT (08 R182). -/
def Dev.encCount (d : Dev) (m : AxisId) (la lb : Bool) : Dev :=
  let x := d.mot[m]
  let ctl := d.motReg m 0
  let step := (quadrant la lb + 4 - quadrant x.encA x.encB) % 4
  let d := d.updMot m fun x => { x with encA := la, encB := lb }
  if !bit ctl 7 ∨ step = 0 then d
  else if step = 2 then d.updMot m fun x => { x with encErr := true }
  else d.updMot m fun x => { x with encCnt := if (step == 1) != bit ctl 8 then x.encCnt + 1 else x.encCnt - 1, lastCount := d.cycle }

/-- ENCODER_INDEX (08 R184). -/
def Dev.encIndex (d : Dev) (m : AxisId) : Dev :=
  let c := (d.mot[m]).encCnt
  (d.updMot m fun x => { x with idxCnt := c }).raise ⟨21 + m.val, by omega⟩ c

/-! ### Steps and currents -/

/-- Half of pi times 2^64. -/
def halfPi : Int := 28976077832308491370

/-- Terms of the cosine series with 64 fractional bits: x2 is the square of the angle, n the next even power. -/
def cosSeries (x2 : Int) : Nat → Nat → Int → Int
  | 0, _, _ => 0
  | fuel + 1, n, t => t + cosSeries x2 fuel (n + 2) (-(t * x2 / 2 ^ 64) / ((n + 1) * (n + 2) : Nat))

/-- |cos| of k quarter turns divided by ms, with 64 fractional bits. -/
def cosAbs (k ms : Nat) : Int :=
  let k := k % (2 * ms)
  let j := if k ≤ ms then k else 2 * ms - k
  let x := halfPi * j / ms
  max 0 (cosSeries (x * x / 2 ^ 64) 20 0 (2 ^ 64))

/-- round(I * |cos|) (08 R180). -/
def current (i : Nat) (c : Int) : Nat := ((i * c * 2 + 2 ^ 64) / 2 ^ 65).toNat

/-- The current I of an axis (08 R180). -/
def Dev.motCurrent (d : Dev) (m : AxisId) : Nat := let c := d.motReg m 0x44; if (d.mot[m]).hold then fld c 16 10 else fld c 0 10

/-- IREFm_A and IREFm_B with the signs of the phases for a microstep index (08 R177, R180). -/
def Dev.phases (d : Dev) (m : AxisId) (idx : Int) : Nat × Nat × Bool × Bool :=
  let ms := d.ms m
  let k := (idx % (4 * ms : Nat)).toNat
  let i := d.motCurrent m
  (current i (cosAbs k ms), current i (cosAbs (k + ms) ms), decide (ms < k) && decide (k < 3 * ms), decide (2 * ms < k))

/-- A step may be emitted: 4 microseconds have passed since the last one (08 R179). -/
def Dev.stepFree (d : Dev) (m : AxisId) : Bool := match (d.mot[m]).stepAt with | some t => decide (t + 1600 ≤ d.cycle) | none => true

/-- DIR has had the direction of a step for 1 microsecond (08 R179); in IREF mode no DIR is driven. -/
def Dev.dirReady (d : Dev) (m : AxisId) (s : Int) : Bool :=
  let x := d.mot[m]
  bit (d.motReg m 0) 1 || (x.stepBack == decide (s < 0) && match x.dirAt with | some t => decide (t + 400 ≤ d.cycle) | none => true)

/-- STEP_EMIT (08 R179, R180): one crossing of the motor position is emitted; a step against DIR turns DIR first and waits. Outputs are silent where R181 holds them low. -/
def Dev.stepEmit (d : Dev) (m : AxisId) : Dev :=
  let x := d.mot[m]
  let s := sgn (d.stepNow m - x.stepIdx)
  if s = 0 ∨ !bit (d.motReg m 0) 0 ∨ !d.stepFree m then d
  else if !d.dirReady m s then d.aimDir m s
  else
    let d := d.updMot m fun x => { x with
      stepIdx := x.stepIdx + s, stepCnt := x.stepCnt + BitVec.ofInt 32 s, stepped := true, stepAt := some d.cycle, stepBack := decide (s < 0) }
    if !d.driven then d
    else if bit (d.motReg m 0) 1 then
      let (ia, ib, sa, sb) := d.phases m (x.stepIdx + s)
      d.emitOut (.phase m ia ib sa sb)
    else d.emitOut (.step m ((decide (0 < s)) != bit (d.motReg m 0) 6))

/-- The levels of an axis's outputs (08 R177): ENm, STEPm and DIRm, and the codes of IREFm_A and IREFm_B. -/
structure AxisOut where
  en : Bool := false
  step : Bool := false
  dir : Bool := false
  ia : Nat := 0
  ib : Nat := 0
  deriving DecidableEq, Repr

/-- What an axis drives (08 R177-R181): none is high impedance, at a device whose outputs are released (13 R310, R320). STEP stays high for 2 microseconds. DIRINV turns DIR in the cycle of its write (DESIGN CHOICE, log 117). -/
def Dev.axisOut (d : Dev) (m : AxisId) : Option AxisOut :=
  let x := d.mot[m]
  if d.released then none
  else if d.phase = .inReset ∨ d.sys.outcome = 2 ∨ !bit (d.motReg m 0) 0 then some {}
  else if bit (d.motReg m 0) 1 then
    let (ia, ib, sa, sb) := d.phases m x.stepIdx
    some { en := true, step := sb, dir := sa, ia := ia, ib := ib }
  else
    let high := match x.stepAt with | some t => decide (d.cycle < t + 800) | none => false
    let turning := match x.dirAt with | some t => decide (d.cycle < t) | none => false
    some { en := true, step := high, dir := ((!x.stepBack) != turning) != bit (d.motReg m 0) 6, ia := d.motCurrent m, ib := 0 }

/-- HOLD_CURRENT (08 R180): the axis has been at rest for HOLDT ms. -/
def Dev.holdCurrent (d : Dev) (m : AxisId) : Dev :=
  let ms := fld (d.motReg m 0) 16 8
  if d.atRest m ∧ ms ≠ 0 ∧ (d.mot[m]).restSince + ms * 400000 ≤ d.cycle then d.updMot m fun x => { x with hold := true } else d

/-! ### Registers -/

/-- An MSTOP that waits for the next interval when EN = 0 is written at rest: it leaves nothing to be kept, and the move that it stops has ended (08 R190, R191). -/
def Dev.dropStop (d : Dev) (m : AxisId) : Dev :=
  if (d.mot[m]).next = some .stop then (d.updMot m fun x => { x with next := none }).motDone m true else d

/-- A write of MOT_Mm_CTL (08 R192, R196): clearing EN of an axis that moves, or has steps pending, stops it; the flag tells whether it moved. -/
def Dev.motCtlWrite (P : Part) (d : Dev) (m : AxisId) (v : Word) : Bool × Dev :=
  let moving := !d.atRest m
  let pend := d.stepsPending m ≠ 0
  let was := bit (d.motReg m 0) 0
  let ms := d.ms m
  let k := regMask P d (motOff m 0)
  let d := if was ∧ !bit v 0 then (if moving ∨ pend then d.stopNow m else d.dropStop m) else d
  let d := d.setReg (motOff m 0) ((d.motReg m 0 &&& ~~~k) ||| (v &&& k))
  let d := if d.ms m = ms then d else d.reindex m
  (was && !bit v 0 && moving, d)

/-- SYNC and SETPOS apply now (08 R195). -/
def Dev.motOpOk (d : Dev) (m : AxisId) : Bool := d.atRest m && (m == 1 || d.hng.st == .off || d.hng.st == .frozenWait)

/-- p set at rest. -/
def Dev.setP (d : Dev) (m : AxisId) (p : Int) : Dev :=
  ((d.updMot m fun x => { x with p := p * 65536, restP := p * 65536, stepped := false }).segHold m).reindex m

/-- A write of MOT_Mm_OP (08 R195). -/
def Dev.motOp (d : Dev) (m : AxisId) (v : Word) : Dev :=
  let op := fld v 0 4
  if op ≠ 1 ∧ op ≠ 2 then d
  else if !d.motOpOk m then d.updMot m fun x => { x with opRej := true }
  else if op = 1 then d.setP m (d.counted m)
  else
    let p := pos48 (d.motReg m 0x58) (d.motReg m 0x54)
    (d.updMot m fun x => { x with encOrg := p - x.encCnt.toInt * d.encpu m }).setP m p

/-- MOT_Mm_STATE. -/
def Dev.motState (d : Dev) (m : AxisId) : Word :=
  let x := d.mot[m]
  let own := m == 0 && d.hng.ownsM0
  let mode := if x.takeUp.isSome then 5
    else if d.held m then (if x.next.isSome || own then 6 else 0)
    else if own then 4
    else match x.cmd with
      | .none => 0
      | .pos _ => 1
      | .vel _ => 2
      | .stop => 3
  place mode 0 ||| flag (d.motBusy m) 3 ||| flag x.stalled 4 ||| flag x.hold 5 ||| flag x.dirBack 6

/-- MOT_Mm_STATUS. -/
def Axis.status (x : Axis) : Word := flag x.stStall 0 ||| flag x.encErr 1 ||| flag x.vclip 2 ||| flag x.opRej 3

/-- A W1C write of MOT_Mm_STATUS; STALL clears STALLED too (08 R195). -/
def Dev.motStatusW1c (d : Dev) (m : AxisId) (v : Word) : Dev :=
  d.updMot m fun x => { x with
    stStall := x.stStall && !bit v 0, stalled := x.stalled && !bit v 0, encErr := x.encErr && !bit v 1
    vclip := x.vclip && !bit v 2, opRej := x.opRej && !bit v 3 }

end Sys2Proof.Machine
end

