-- ==== Sys2Proof/Machine/Pixel.lean ====
section
/-!
DEFINITION. The pixel pipeline: temperature filter, shading, defects, clip, seam resampler, LUT and line-store write, the end of a line, and the Hinge correlator's arithmetic (07 R156-R176, 09 R198).
-/
namespace Sys2Proof.Machine

/-! ### Temperature -/

/-- An update of the shading temperature filter, in 0.1 degrees (07 R160). A TF beyond 16 signed bits is kept whole, and shows its low 16 bits (DESIGN CHOICE, log 115). -/
def Dev.tempUpdate (d : Dev) (t : Int) : Dev :=
  let k := fld (d.reg 0x40000) 0 3
  d.updPix fun x =>
    let s := if x.reload then t * 256 else x.filt + (t * 256 - x.filt) / 2 ^ k
    let was := match x.tempWas with
      | some (c, v) => if c = d.cycle then (c, v) else (d.cycle, (x.temp, x.tvalid))
      | none => (d.cycle, (x.temp, x.tvalid))
    { x with filt := s, temp := (s + 128) / 256, tvalid := true, reload := false, tempWas := some was }

/-- A result of the temperature entry that cannot serve (07 R160). -/
def Dev.tempStale (d : Dev) : Dev := d.updPix fun x => { x with tstale := true }

/-- A write of PIX_CTL (07 R159, R160, R176). -/
def Dev.pixCtlWrite (P : Part) (d : Dev) (v : Word) : Dev :=
  let old := d.reg 0x40000
  let big := decide (P.anchors < fld v 8 2 + 1) && !d.running
  let v1 := if big then putFld v 8 2 (fld old 8 2) else v
  let v2 := if P.hkin = 0 then putBit v1 3 true else v1
  let d1 := d.writeReg P 0x40000 v2
  let d2 := if fld (d1.reg 0x40000) 3 5 ≠ fld old 3 5 then d1.updPix fun x => { x with reload := true } else d1
  if big then d2.setAbsent else d2

/-! ### Shading -/

/-- Address of a coefficient word (07 R158). -/
def coefAddr (a id x : Nat) : Nat := 0x1000000 + a * 0x80000 + id * 0x20000 + x * 4

/-- Anchors read for a line (07 R162). -/
def Acq.anchors (a : Acq) : List Nat := if a.shW = 0 then [a.shI] else [a.shI, a.shI + 1]

/-- ECC of one coefficient read (07 R163, R164): events as R22 states, and SHECC for an uncorrectable word; a word written in this cycle is read as it stood before. -/
def Dev.coefEcc1 (P : Part) (d : Dev) (a : Nat) : Dev :=
  let k := d.markWas a
  let d1 := if k = d.mark a then d.eccRead1 P a
    else match k with
      | some (.single false) => d.raise 52 (nword a)
      | some .double => d.raise 53 (nword a)
      | _ => d
  if k = some .double then d1.updPix fun x => { x with shEcc := true } else d1

/-- ECC of a pixel's coefficient reads (07 R164). -/
def Dev.coefEcc (P : Part) (d : Dev) (id x : Nat) : Dev :=
  (d.acq.anchors.map fun a => coefAddr a id x).foldl (fun d a => d.coefEcc1 P a) d

/-- D and G of a pixel, from the bracketing anchors (07 R162, R164); a word written in this cycle is read as it stood before (R163). -/
def Dev.coef (d : Dev) (id x : Nat) : Int × Int :=
  let a := d.acq
  if a.anchors.any fun i => d.markWas (coefAddr i id x) == some .double then (0, 16384)
  else
    let c0 := d.wordWas (coefAddr a.shI id x)
    let d0 := sfld c0 0 16
    let g0 : Int := fld c0 16 16
    if a.shW = 0 then (d0, g0)
    else
      let c1 := d.wordWas (coefAddr (a.shI + 1) id x)
      (d0 + (sfld c1 0 16 - d0) * a.shW / 256, g0 + ((fld c1 16 16 : Int) - g0) * a.shW / 256)

/-- PIX_PLp_CTL. -/
def Dev.plCtl (d : Dev) (id : Nat) : Word := d.reg (0x40100 + 16 * id)

/-- Dark subtraction and gain of one code with given coefficients (07 "Pipeline stage arithmetic"). -/
def darkGain (c : Nat) (dk g : Int) : Int := ((16 * (c : Int) - dk) * g + 32768) / 65536

/-- Gain output of one pixel (07 R157). -/
def Dev.gainOut (d : Dev) (id x c : Nat) : Int :=
  let (dk, g) := d.coef id x
  let ctl := d.plCtl id
  darkGain c (if bit ctl 0 then dk else 0) (if bit ctl 1 then g else 16384)

/-- The ascending head of a list of defects, and whether an entry ended it early (07 R165). -/
def ascending : Option Nat → List Nat → List Nat × Bool
  | _, [] => ([], false)
  | prev, x :: xs =>
    if (match prev with | some p => decide (x ≤ p) | none => false) then ([], true)
    else
      let (r, e) := ascending (some x) xs
      (x :: r, e)

/-- The defect list of a plane identity (07 R165). -/
def Dev.defects (d : Dev) (id : Nat) : List Nat × Bool :=
  ascending none ((List.range (min 1024 (fld (d.reg (0x40104 + 16 * id)) 0 11))).map fun i => fld (d.reg (0x44000 + 0x1000 * id + 4 * i)) 0 15)

/-- The index of the nearest unlisted neighbour of a pixel on one side, up to 4 pixels away and within a plane of w pixels (07 R165). -/
def neighbourAt (w : Nat) (lst : List Nat) (x : Nat) (left : Bool) : Option Nat :=
  (([1, 2, 3, 4] : List Nat).find? fun k => if left then decide (k ≤ x) && !lst.contains (x - k) else decide (x + k < w) && !lst.contains (x + k)).map
    fun k => if left then x - k else x + k

/-- The gain output of the nearest unlisted neighbour on one side. -/
def neighbour (gs : List Int) (lst : List Nat) (x : Nat) (left : Bool) : Option Int := (neighbourAt gs.length lst x left).bind fun k => gs[k]?

/-- Defect replacement of one pixel: its value and whether no neighbour was found (07 R165). -/
def replace1 (gs : List Int) (lst : List Nat) (x : Nat) (own : Int) : Int × Bool :=
  if lst.contains x then
    match neighbour gs lst x true, neighbour gs lst x false with
    | some a, some b => ((a + b) / 2, false)
    | some a, none => (a, false)
    | none, some b => (b, false)
    | none, none => (own, true)
  else (own, false)

/-- CLIPLO and CLIPHI (07 R166). -/
def Dev.clipRange (d : Dev) : Int × Int :=
  let lo := fld (d.reg 0x40020) 0 16
  let hi := fld (d.reg 0x40020) 16 16
  ((min lo hi : Nat), (hi : Int))

/-- Clip to CLIPLO and CLIPHI. -/
def Dev.clip (d : Dev) (x : Int) : Int := clampI d.clipRange.1 d.clipRange.2 x

/-! ### Resampler -/

/-- Catmull-Rom weights w-1, w0, w1, w2 for phase h/8, times 128 (07 R169). -/
def weights (h : Int) : Int × Int × Int × Int :=
  let a := rdiv (-h ^ 3 + 16 * h ^ 2 - 64 * h) 8
  let b := rdiv (-3 * h ^ 3 + 32 * h ^ 2 + 64 * h) 8
  let c := rdiv (h ^ 3 - 8 * h ^ 2) 8
  (a, 128 - a - b - c, b, c)

/-- A pixel of a plane, an index outside it replaced by the nearest edge pixel. -/
def edgeAt (pl : List Int) (j : Int) : Int := pl.getD (clampI 0 (pl.length - 1) j).toNat 0

/-- The horizontal part of the resampler, hr(m). -/
def hres (pl : List Int) (x hoff : Int) : Int :=
  let p := 8 * x - hoff
  let b := p / 8
  let (wm, w0, w1, w2) := weights (p % 8)
  (wm * edgeAt pl (b - 1) + w0 * edgeAt pl b + w1 * edgeAt pl (b + 1) + w2 * edgeAt pl (b + 2) + 64) / 128

/-- One output of the resampler (07 R169): `caps m` is the plane of the capture m before the present one. -/
def resample (caps : Nat → List Int) (x voff hoff : Int) : Int :=
  let f := (-voff) % 16
  let back := -((-voff) / 16)
  let ha := hres (caps back.toNat) x hoff
  let hb := hres (caps (back - 1).toNat) x hoff
  ((16 - f) * ha + f * hb + 8) / 16

/-- Plane i of the capture m before the present one; the present one where none has been fired since LINE START (07 R169). -/
def Dev.capture (d : Dev) (i : Nat) (now : List Int) (m : Nat) : List Int :=
  match m with
  | 0 => now
  | m + 1 => let pl := (d.pix.hist.getD m []).getD i []
    if pl.isEmpty then now else pl

/-! ### Output -/

/-- Entry e of a plane identity's LUT, e4096 read as e4095 (07 R167). -/
def Dev.lut (d : Dev) (id e : Nat) : Int :=
  let e := min e 4095
  fld (d.reg (0x48000 + 0x2000 * id + 4 * (e / 2))) (16 * (e % 2)) 16

/-- The LUT's output for an input (07 R167). -/
def Dev.lutOut (d : Dev) (id y : Nat) : Int :=
  let a := d.lut id (y / 16)
  a + (d.lut id (y / 16 + 1) - a) * (y % 16 : Nat) / 16

/-- Main output and tap of a clipped value (07 R157). -/
def Dev.outputs (d : Dev) (id : Nat) (y : Int) : Nat × Nat :=
  let ctl := d.plCtl id
  let o := (if bit ctl 3 then d.lutOut id y.toNat else y).toNat
  (if bit ctl 3 && bit ctl 4 then o else y.toNat, o / 256)

/-- Plane i of PORT_CMODE is the one written for its identity (06 R145). -/
def Dev.planeWritten (d : Dev) (i : Nat) : Bool :=
  (List.range d.npl).all fun j => decide (j ≤ i) || d.planeId j != d.planeId i

/-! ### The pixels of a period -/

/-- Key of a pixel of a plane. -/
def pixKey (i x : Nat) : Nat := i * 2 ^ 16 + x

/-- Pixels of a plane of the capture: the ports' planes side by side (06 R147). -/
def Dev.capWidth (d : Dev) : Nat := (d.acq.ports.map d.portWidth).sum

/-- The first pixel of a port within the line (06 R147). -/
def Dev.portFrom (d : Dev) (p : PortId) : Nat := ((d.acq.ports.filter fun q => decide (q.val < p.val)).map d.portWidth).sum

/-- One code leaves its FIFO (07 R156, R163): dark subtraction and gain with the coefficients and enables as they stand; the codes of a discarded period go no further (06 R143). -/
def Dev.pixelIn (P : Part) (d : Dev) (p : PortId) (c : Nat) : Dev :=
  let j : Fin 2 := if c / 2 ^ 14 % 2 = 0 then 0 else 1
  let k := (d.port[p]).got[j]
  let d := d.updPort p fun x => { x with got := x.got.set j (k + 1) }
  if d.blocks d.acq.period * d.share p j.val ≤ k then d
  else
    let (q, x) := d.placeOf p j.val k
    let x := d.portFrom p + x
    let i := if d.parallel then q else d.acq.period - d.lag
    let id := d.planeId i
    let g := d.gainOut id x (if c < 2 ^ 15 then c % 2 ^ 14 else 0)
    let d := d.coefEcc P id x
    { d with acq := { d.acq with gains := tabIns (pixKey i x) g d.acq.gains } }

/-- The pixels of the present capture that the resampler reads for one output (07 R169). -/
def lookAhead (w : Nat) (x hoff : Int) : List Nat :=
  ([-1, 0, 1, 2] : List Int).map fun k => (clampI 0 (w - 1) ((8 * x - hoff) / 8 + k)).toNat

/-- A run of 8 pixels, one beat of main outputs, is there. -/
def groupReady (outs : Tab (Nat × Nat)) (w i g : Nat) : Bool :=
  (List.range 8).all fun b => decide (w ≤ 8 * g + b) || (outs.lookup (pixKey i (8 * g + b))).isSome

/-- A run of 8 pixels written to the slot: main outputs, and taps where TAPEN is in force (09 R198). -/
def Dev.groupWrite (P : Part) (d : Dev) (n : Fin 256) (w i g : Nat) : Dev :=
  let os := (List.range 8).filterMap fun b => if 8 * g + b < w then d.acq.outs.lookup (pixKey i (8 * g + b)) else none
  let m := d.ls.geom
  let base := d.slotBase n.val
  let d1 := d.store P (base + i * m.pstr + 16 * g) (os.flatMap fun o => lowBytes (nword o.1) 2)
  if d.tapOn P then d1.store P (base + d.npl * m.pstr + i * m.tstr + 8 * g) (os.map fun o => BitVec.ofNat 8 o.2) else d1

/-- The stages after the gain for the pixels of a plane that have all they need (07 "Stages", R165-R169): defect replacement, clip, resampler and LUT with the registers as they stand, and the write of every run of 8 pixels that is complete. -/
def Dev.planeWork (P : Part) (d : Dev) (i : Nat) : Dev :=
  let id := d.planeId i
  let w := d.capWidth
  let a := d.acq
  let gain := fun x => a.gains.lookup (pixKey i x)
  let fresh := (List.range w).filter fun x => (gain x).isSome && (a.clips.lookup (pixKey i x)).isNone
  let (lst, bad) := if bit (d.plCtl id) 2 then d.defects id else ([], false)
  let gs := (List.range w).map fun x => (gain x).getD 0
  let ready := fresh.filter fun x => !lst.contains x || [true, false].all fun l => match neighbourAt w lst x l with | some k => (gain k).isSome | none => true
  let reps := ready.map fun x => (x, replace1 gs lst x (gs.getD x 0))
  let d := if fresh.isEmpty then d else d.updPix fun x => { x with defOrd := x.defOrd || bad, defRun := x.defRun || reps.any fun r => r.2.2 }
  let clips := reps.foldl (fun t r => tabIns (pixKey i r.1) (d.clip r.2.1) t) a.clips
  let now := (List.range w).map fun x => (clips.lookup (pixKey i x)).getD 0
  let still := decide (a.voff = 0 ∧ a.hoff = 0)
  let due := (List.range w).filter fun x =>
    (clips.lookup (pixKey i x)).isSome && (a.outs.lookup (pixKey i x)).isNone &&
      (still || (lookAhead w x a.hoff).all fun k => (clips.lookup (pixKey i k)).isSome)
  let outs := due.foldl (fun t x =>
    tabIns (pixKey i x) (d.outputs id (if still then now.getD x 0 else d.clip (resample (d.capture i now) x a.voff a.hoff))) t) a.outs
  let d := { d with acq := { d.acq with clips := clips, outs := outs } }
  match a.slot with
  | some n =>
    if d.planeWritten i then
      ((List.range ((w + 7) / 8)).filter fun g => groupReady outs w i g && !groupReady a.outs w i g).foldl (fun d g => d.groupWrite P n w i g) d
    else d
  | none => d

/-- Codes of a port taken by the pipeline, with the pixels that can go on (07 R156). -/
def Dev.takePixels (P : Part) (d : Dev) (p : PortId) (codes : List Nat) : Dev :=
  let d := codes.foldl (fun d c => d.pixelIn P p c) d
  if codes.isEmpty then d else (List.range d.npl).foldl (fun d i => d.planeWork P i) d

/-- PIPELINE_PIXELS: pixel clocks of a running period fill the port FIFO, and the pipeline takes `take` pixels from it (07 R156). -/
def Dev.pipelinePixels (P : Part) (d : Dev) (p : PortId) (vids : List Vid) (take : Nat) : Dev :=
  let x := d.port[p]
  let d := if x.running ∧ x.ckLock then vids.foldl (fun d v => d.takeVid p v) d else d
  if !d.acq.done ∧ p ∈ d.acq.ports then
    (d.updPort p fun x => { x with fifo := x.fifo.drop take }).takePixels P p ((d.port[p]).fifo.take take)
  else d

/-- Codes 0 for the pixels that a period has not brought (06 R150). -/
def Dev.zeroFill (d : Dev) (p : PortId) : List Nat :=
  let x := d.port[p]
  let b := d.blocks d.acq.period
  List.replicate (b * d.share p 0 - x.count 0) 0 ++ List.replicate (b * d.share p 1 - x.count 1) (2 ^ 14)

/-- A port ends its period (06 R140, R149, R150): the FIFO is read out, missing pixels are supplied as code 0, and after the last period of a numbered line PORTn_LINE is raised and the boundary passes. A digital period whose start-of-line code was found and which brings fewer pixels than required is short like one whose VALID window closes early (DESIGN CHOICE, log 84), which is judged at the end of the period alone (DESIGN CHOICE, log 100). -/
def Dev.endPort (P : Part) (d : Dev) (p : PortId) (timeout : Bool) : Dev :=
  let x := d.port[p]
  let blocks := d.blocks d.acq.period
  let used := if d.arr p = 0 then 1#2 else 3#2
  let miss := d.digital p && x.found &&& used != used
  let short := timeout || miss || decide (x.count 0 < blocks * d.share p 0) || decide (x.count 1 < blocks * d.share p 1)
  let d := (d.updPort p fun x => { x with fifo := [] }).takePixels P p (x.fifo ++ d.zeroFill p)
  let d := d.updPort p fun x => { x with
    running := false, ended := true
    solMiss := x.solMiss || (miss && x.ckLock), short := x.short || short
    laneLock := if d.digital p then x.found else x.laneLock
    ovrRaised := x.ovrRaised || short }
  let d := if short && !x.ovrRaised then d.raise ⟨4 + p.val, by omega⟩ d.acq.line else d
  if d.acq.period + 1 = d.acq.periods then
    let d := if d.acq.kind = .numbered then
        (d.updPort p fun x => { x with lineCnt := x.lineCnt + 1 }).raise ⟨p.val, by omega⟩ d.acq.line
      else d
    (d.updPort p fun x => { x with ovrRaised := false }).portBoundary p
  else d

/-- The clipped values of a plane of the capture. -/
def Dev.clipped (d : Dev) (i : Nat) : List Int := (List.range d.capWidth).map fun x => (d.acq.clips.lookup (pixKey i x)).getD 0

/-- Every port of the line has ended the period: the last period finishes the line for the writer, and the resampler keeps the capture when it was fired since LINE START (06 R146, 07 R169, 09 R201). -/
def Dev.periodDone (d : Dev) : Dev :=
  let a := d.acq
  if (a.ports.all fun p => (d.port[p]).ended) ∧ a.period + 1 = a.periods then
    let planes := (List.range d.npl).map d.clipped
    let d := match a.slot with
      | some n => d.updSlot n fun s => { s with written := true, wroteAt := d.cycle }
      | none => d
    { d with acq := { d.acq with done := true }, pix := { d.pix with hist := if a.old then d.pix.hist else planes :: d.pix.hist.take 1 } }
  else d

/-- PERIOD_END (06 R140): the running period of a port reaches LEND. -/
def Dev.periodEnd (P : Part) (d : Dev) (p : PortId) : Dev :=
  let x := d.port[p]
  if d.inPeriod p ∧ x.running ∧ x.ckLock ∧ x.atLend then (d.endPort P p false).periodDone else d

/-- Cycles after a period's trigger at which it times out (06 R150): LTMO microseconds, 0 acting as 65,536. -/
def Dev.ltmo (d : Dev) (p : PortId) : Nat := let u := fld (d.portReg p 0x18) 0 16; 400 * (if u = 0 then 65536 else u)

/-- PERIOD_TIMEOUT (06 R150): LTMO has passed since the period's trigger, and the period ends without its LEND. -/
def Dev.periodTimeout (P : Part) (d : Dev) (p : PortId) : Dev :=
  if d.inPeriod p ∧ d.acq.started + d.ltmo p ≤ d.cycle then (d.endPort P p true).periodDone else d

/-! ### Correlator -/

/-- The result of a correlation (07 R173): offsets, score, EDGE, and whether A is 0. -/
structure CorrRes where
  mv : Int
  mh : Int
  score : Nat
  edge : Bool
  flat : Bool
  deriving DecidableEq, Repr

/-- The index of the written plane of identity HNG_CTL.PLANE (07 R171). -/
def Dev.corrPlane (d : Dev) : Option Nat :=
  (List.range d.npl).find? fun i => d.planeWritten i && d.planeId i == fld d.hngCtl 8 2

/-- The slot of a pinned or overlap line that the correlator needs. -/
def Dev.corrSlot (d : Dev) (line : Word) (kind : Capture) : Option (Fin 256) :=
  d.slotIds.find? fun n =>
    let s := d.ls.slots[n]
    !s.old && s.line == line && s.kind == kind && (if kind = .overlap then s.st == .full else s.st == .pinned || s.st == .drain || s.st == .full)

/-- The line numbers the correlation pairs, in grid order (02 R53, 07 R171). -/
def Dev.corrLines (d : Dev) : List Word := (List.range d.hng.kp).map fun j => d.hng.lLast - nword (d.hng.kp + 2) + nword j

/-- The plane width of the lines the correlator reads, as they were captured (07 R171, 13 R306). -/
def Dev.corrWidth (d : Dev) : Nat :=
  ((d.corrLines.flatMap fun l => [d.corrSlot l .numbered, d.corrSlot l .overlap]).filterMap id |>.map fun n => (d.ls.slots[n]).width).min?.getD 0

/-- START values of windows 0 to NWIN, with whether each is usable in the plane width of the lines (07 R171). -/
def Dev.corrWindows (d : Dev) : List (Nat × Bool) :=
  (List.range (fld d.hngCtl 10 2 + 1)).map fun w =>
    let s := fld (d.reg (0x40040 + 4 * w)) 0 15
    (s, d.corrPlane.isSome && decide (8 ≤ s) && decide (s + 519 + 1 ≤ d.corrWidth))

/-- Bits [15:4] of the main output of the pixels that a window and its shifts take in a slot's plane, from 8 before its START on (07 R171, R172). -/
def Dev.corrRow (d : Dev) (n : Fin 256) (i start : Nat) : List Nat :=
  (List.range 528).map fun k => leNat (d.bytes (d.slotBase n.val + i * d.ls.geom.pstr + 2 * (start - 8 + k)) 2) / 16

/-- The candidates in the order in which a tie prefers them (07 R172): among equal magnitudes the negative dv first, then the negative dh (DESIGN CHOICE, log 104). -/
def candidates : List (Int × Int) :=
  ([0, 1, 2] : List Int).flatMap fun av => ([0, 1, 2, 3, 4, 5, 6, 7, 8] : List Int).flatMap fun ah =>
    (if av = 0 then [0] else [-av, av]).flatMap fun v => (if ah = 0 then [0] else [-ah, ah]).map fun h => (v, h)

/-- The sum of absolute differences of one window of an overlap line and a pinned line, shifted by h (07 R172). -/
def rowSad (h : Int) (ovl pin : List Nat) : Nat := (List.zipWith (fun a b => a - b + (b - a)) ((ovl.drop 8).take 512) (pin.drop (8 + h).toNat)).sum

/-- MAD of a candidate over lines given by the rows of their windows, a line that is missing by none; none when N = 0 (07 R172). A pixel counts once in every window that holds it (DESIGN CHOICE, log 104). -/
def mad (pin ovl : List (List (List Nat))) (v h : Int) : Option Nat :=
  let pairs := ovl.zipIdx.map fun o =>
    let j := (o.2 : Int) + v
    (o.1, if j < 0 then [] else pin.getD j.toNat [])
  let n := 512 * (pairs.map fun q => min q.1.length q.2.length).sum
  if n = 0 then none else some (16 * (pairs.map fun q => (List.zipWith (rowSad h) q.1 q.2).sum).sum / n)

/-- Refinement of one axis: round(scale * (v0 + delta)) from the neighbours' MAD values (07 R173). -/
def refine (scale v0 : Int) (mm m0 mp : Option Nat) : Int :=
  match mm, m0, mp with
  | some a, some b, some c =>
    let num : Int := (a : Int) - c
    let den : Int := 2 * ((a : Int) - 2 * b + c)
    if den = 0 then scale * v0
    else
      let (num, den) := if den < 2 * num then (1, 2) else if 2 * num < -den then (-1, 2) else (num, den)
      rdiv (scale * (v0 * den + num)) den
  | _, _, _ => scale * v0

/-- The least MAD over the candidates, the first one on a tie. -/
def leastMad : List ((Int × Int) × Option Nat) → Option ((Int × Int) × Nat)
  | [] => none
  | (c, some m) :: r =>
    match leastMad r with
    | some (c', m') => if m' < m then some (c', m') else some (c, m)
    | none => some (c, m)
  | (_, none) :: r => leastMad r

/-- The result from the MAD of each candidate (07 R172, R173). -/
def correlation (ms : List ((Int × Int) × Option Nat)) : CorrRes :=
  let at_ := fun (v h : Int) => ((ms.find? fun m => m.1 == (v, h)).bind fun m => m.2)
  let counted := ms.filterMap fun m => m.2
  match leastMad ms with
  | none => ⟨0, 0, 0, true, true⟩
  | some ((v, h), m0) =>
    let sum := counted.sum
    if v.natAbs = 2 ∨ h.natAbs = 8 then ⟨16 * v, 8 * h, 0, true, sum == 0⟩
    else
      { mv := refine 16 v (at_ (v - 1) h) (some m0) (at_ (v + 1) h)
        mh := refine 8 h (at_ v (h - 1)) (some m0) (at_ v (h + 1))
        score := if sum = 0 then 0 else 255 * (sum - m0 * counted.length) / sum
        edge := false
        flat := sum == 0 }

/-- The correlation over KP line pairs (07 R171-R173). -/
def Dev.correlate (d : Dev) (pin ovl : List (Option (Fin 256))) : CorrRes :=
  let wins := (d.corrWindows.filter fun w => w.2).map fun w => w.1
  match d.corrPlane with
  | none => ⟨0, 0, 0, true, true⟩
  | some i =>
    let rows := fun (ls : List (Option (Fin 256))) => ls.map fun o => match o with
      | some n => wins.map (d.corrRow n i)
      | none => []
    strictEach (strictEach (strictEach strict)) (rows pin) fun pin =>
    strictEach (strictEach (strictEach strict)) (rows ovl) fun ovl =>
    correlation (candidates.map fun c => (c, mad pin ovl c.1 c.2))

/-- The bytes of the windows that the correlator reads in a slot: where each begins; 1,056 of them lie in a row. -/
def Dev.corrSpans (d : Dev) (n : Fin 256) (i : Nat) : List Nat :=
  (d.corrWindows.filter fun w => w.2).map fun w => d.slotBase n.val + i * d.ls.geom.pstr + 2 * (w.1 - 8)

/-- Slots of the lines that a correlation pairs: the pinned lines, then the overlap lines, each in grid order. -/
def Dev.corrSlots (d : Dev) : List (Fin 256) :=
  (d.corrLines.map (fun l => d.corrSlot l .numbered) ++ d.corrLines.map (fun l => d.corrSlot l .overlap)).filterMap id

/-- The beats by which the correlator reads (01 R17, R399), in an order of the model's own (DESIGN CHOICE, log 112): slot by slot, window by window, at rising addresses; a beat that two windows of a slot share is read once. -/
def Dev.corrBeats (d : Dev) : List Nat :=
  match d.corrPlane with
  | some i => d.corrSlots.flatMap fun n => ((d.corrSpans n i).flatMap fun a => (List.range (beatSpan a 1056 / 16)).map fun j => beatBase a + 16 * j).dedup
  | none => []

/-- Beats that the correlator has still to read. -/
def Dev.corrLeft (d : Dev) : List Nat := d.corrBeats.drop d.pix.corrGot

/-- An ECC word holds bytes of the windows that the correlator reads. -/
def Dev.corrInRange (P : Part) (d : Dev) (w : Nat) : Bool :=
  match d.corrPlane with
  | some i => d.corrSlots.any fun n => (d.corrSpans n i).any fun a => decide (a < w + eccSize (regionOf P w) ∧ w < a + 1056)
  | none => false

/-- The correlator asks for the line store: its run has beats left to read, and no freeze has ended it (01 R17, 03 R78). -/
def Dev.corrAsks (d : Dev) : Bool :=
  d.hng.corr == .running && d.hng.st == .guard && !d.pix.corrFail && !d.frozen .corr && !d.corrLeft.isEmpty

/-- Beats of a list that make up one burst: at most so many, side by side (01 R17). -/
def burstOf : Nat → List Nat → List Nat
  | 0, _ => []
  | _, [] => []
  | k + 1, b :: bs => b :: (if bs.head? = some (b + 16) then burstOf k bs else [])

/-- One beat read by the correlator (01 R22, R399, 03 R78): every word of it is checked, and an uncorrectable error in a word of the windows freezes master 84, which reads no further. -/
def Dev.corrBeat (P : Part) (d : Dev) (b : Nat) : Dev :=
  if d.pix.corrFail then d
  else
    let ws := eccWords P b 16
    let e := (ws.foldl (fun d w => d.eccRead1 P w) d).updPix fun x => { x with corrGot := x.corrGot + 1 }
    match ws.find? fun w => d.mark w == some .double && d.corrInRange P w with
    | some w => (e.updPix fun x => { x with corrFail := true }).freezeMst P .corr 0x09 0 { addr := nword w, size := 16 } 0
    | none => e

/-- A burst granted to the correlator (01 R17); its next one asks from now on. -/
def Dev.corrBurst (P : Part) (d : Dev) : Dev :=
  ((burstOf 16 d.corrLeft).foldl (Dev.corrBeat P) d).updPix fun x => { x with corrAsk := d.cycle }

/-- The correlator reads on while the port grants it (`granted` of the cycle since which it asks; 01 R17): a burst, and then, where nothing else waits, all others, for what they change asks for no port. -/
def Dev.corrRead (P : Part) (granted : Dev → Nat → Bool) (d : Dev) : Dev :=
  if d.corrAsks && granted d d.pix.corrAsk then
    let d := d.corrBurst P
    if d.corrAsks && granted d d.cycle then d.corrLeft.foldl (Dev.corrBeat P) d else d
  else d

/-- The correlator's result when it has read what it needs (07 R171-R175, 03 R78): none when master 84 is frozen or has been in this run. PLANE, NWIN and the windows are taken as they stand at its end (DESIGN CHOICE, log 104). -/
def Dev.corrRun (d : Dev) : Option CorrRes × Dev :=
  if d.frozen .corr ∨ d.pix.corrFail then (none, d)
  else
    let d := if d.corrWindows.any fun w => !w.2 then d.updPix fun x => { x with cwin := true } else d
    let r := d.correlate (d.corrLines.map fun l => d.corrSlot l .numbered) (d.corrLines.map fun l => d.corrSlot l .overlap)
    (some r, d.updPix fun x => { x with
      cres := (iword r.mv &&& 0xFF) ||| ((iword r.mh &&& 0xFF) <<< 8) ||| place r.score 16 ||| flag r.edge 24 ||| flag true 25
      ctime := nword (d.cycle - x.corrAt) })

/-- PIX_STATUS. -/
def Pix.status (x : Pix) : Word :=
  flag x.tstale 0 ||| flag x.anchErr 1 ||| flag x.defOrd 2 ||| flag x.defRun 3 ||| flag x.vclamp 4 ||| flag x.cwin 5 ||| flag x.shEcc 6

/-- A W1C write of PIX_STATUS. -/
def Dev.pixStatusW1c (d : Dev) (v : Word) : Dev :=
  d.updPix fun x => { x with
    tstale := x.tstale && !bit v 0, anchErr := x.anchErr && !bit v 1, defOrd := x.defOrd && !bit v 2, defRun := x.defRun && !bit v 3
    vclamp := x.vclamp && !bit v 4, cwin := x.cwin && !bit v 5, shEcc := x.shEcc && !bit v 6 }

/-- PIX_TEMP. -/
def Pix.tempWord (x : Pix) : Word := (iword x.temp &&& 0xFFFF) ||| flag x.tvalid 16

end Sys2Proof.Machine
end

