-- ==== Sys2Proof/Machine/Hinge.lean ====
section
/-!
DEFINITION. Lines, credits and the Hinge: streams and the pacing law, fires, freeze and restart, LINE START and LINE STOP, and the planner interval (02 R33-R63, 08 R185-R191, 13 R297, R305, R309).
-/
namespace Sys2Proof.Machine

/-! ### Streams and the pacing set -/

/-- The streams of the pacing set (02 R38). -/
def Dev.pacing (d : Dev) : List (Fin 64) := (List.finRange 64).filter fun s => (d.hng.streams[s]).opened && (d.hng.streams[s]).pace

/-- C, none when it is unlimited (02 R38). -/
def Dev.cNow (d : Dev) : Option Nat := (d.pacing.map fun s => (d.hng.streams[s]).avail.toNat).min?

/-- A stream's available count as it stood at the start of a cycle (02 R42). -/
def Stream.atStart (x : Stream) (cycle : Nat) : Nat := x.avail.toNat - (if x.newAt = cycle then x.newIn else 0)

/-- Every stream of the pacing set held a credit at the start of the cycle (02 R33, R42). -/
def Dev.credits (d : Dev) : Bool := d.pacing.all fun s => decide ((d.hng.streams[s]).atStart d.cycle ≠ 0)

/-- CR_LOW and CR_HIGH in force (02 R46). -/
def Dev.crTh (d : Dev) : Nat × Nat :=
  let lo := max 1 (fld (d.reg 0x50024) 0 16)
  let hi := fld (d.reg 0x50024) 16 16
  (lo, if hi ≤ lo then lo + 1 else hi)

/-- CR_RESUME, 0 acting as 1 (02 R55). -/
def Dev.crRes (d : Dev) : Nat := max 1 (fld (d.reg 0x50028) 0 16)

/-- C has reached CR_RESUME, or the pacing set is empty (02 R55). -/
def Dev.creditBack (d : Dev) : Bool := match d.cNow with | some c => decide (d.crRes ≤ c) | none => true

/-- Event 11 judged after C moved from `before` (02 R47). -/
def Dev.creditCheck (d : Dev) (before : Option Nat) : Dev :=
  let (lo, hi) := d.crTh
  match d.cNow with
  | none => d.updHng fun h => { h with lowArmed := true }
  | some c =>
    if hi < c then d.updHng fun h => { h with lowArmed := true }
    else
      let above : Bool := match before with | some b => decide (lo < b) | none => true
      if d.hng.lowArmed && above && decide (c ≤ lo) then
        let s := (d.pacing.find? fun s => (d.hng.streams[s]).avail.toNat == c).getD 0
        (d.updHng fun h => { h with lowArmed := false }).raise 11 (nword s.val)
      else d

/-- A grant of n lines to a stream (02 R41): whether it was accepted whole. With a fire that has taken C to zero in the same cycle both apply, and no freeze follows (R42). -/
def Dev.grant (d : Dev) (s : Fin 64) (n : Nat) : Bool × Dev :=
  let x := d.hng.streams[s]
  if !x.opened then (false, d)
  else
    let k := min n (0xFFFFFF - x.avail.toNat)
    let d1 := d.updStream s fun x => { x with
      granted := x.granted + nword k, avail := x.avail + nword k, recent := x.recent + k
      newIn := (if x.newAt = d.cycle then x.newIn else 0) + k, newAt := d.cycle }
    let d1 := if k < n then d1.updHng fun h => { h with crovf := true } else d1
    let d1 := d1.creditCheck d.cNow
    (k == n, if d1.cNow = some 0 then d1 else d1.updHng fun h => { h with stopDue := none })

/-- A stream closed (02 R43): whether it was open. -/
def Dev.closeStream (d : Dev) (s : Fin 64) : Bool × Dev :=
  if (d.hng.streams[s]).opened then
    (true, (d.updStream s fun x => { x with opened := false, granted := x.granted - x.avail, avail := 0, after := [] }).creditCheck d.cNow)
  else (false, d)

/-- CRED OPEN (02 R43): whether the stream was closed. -/
def Dev.openStream (d : Dev) (s : Fin 64) : Bool × Dev :=
  if (d.hng.streams[s]).opened then (false, d)
  else
    (true, (d.updStream s fun x => { x with opened := true, granted := 0, delivered := 0, avail := 0, gap := 0, gapAdd := 0, gapOut := 0, newIn := 0, after := [] }).creditCheck d.cNow)

/-- CAS_MUXMASK names a data VC. -/
def Dev.muxNamed (d : Dev) (s : Nat) : Bool := (d.reg 0xC001C ++ d.reg 0xC0018 : BitVec 64).getLsbD s

/-- The eight lowest data VCs of CAS_MUXMASK: those on which it acts (13 R300). -/
def Dev.muxSet (d : Dev) : List Nat := ((List.range 64).filter d.muxNamed).take 8

/-- CAS_MUXMASK acts on a data VC. -/
def Dev.muxed (d : Dev) (s : Nat) : Bool := d.muxSet.contains s

/-- CAS_STATUS.CFGERR set. -/
def Dev.cfgErr (d : Dev) : Dev := d.updCas fun c => { c with cfgErr := true }

/-- A write of HNG_STRs_CFG (02 R43, R63); a MULTIPLY master ignores one with OPEN = 1 for a stream of its CAS_MUXMASK, with CFGERR (13 R303). -/
def Dev.strCfgWrite (P : Part) (d : Dev) (s : Fin 64) (v : Word) : Dev :=
  let before := d.cNow
  if bit v 0 ∧ d.role P = 1 ∧ P.casc ∧ d.chainMode P = 0 ∧ d.muxed s.val then d.cfgErr
  else
  let d := d.updStream s fun x => { x with owner := v.extractLsb' 8 6, pace := if d.running then x.pace else bit v 1 }
  if bit v 0 then (d.updStream s fun x => { x with opened := true }).creditCheck before
  else (d.closeStream s).2.creditCheck before

/-- HNG_STRs_CFG as it reads; GAP counts the lines skipped or abandoned whose count no delivered line has carried yet (02 R40, 09 R217). -/
def Stream.cfg (x : Stream) : Word :=
  flag x.opened 0 ||| flag x.pace 1 ||| (x.owner.setWidth 32 <<< 8) ||| place (min 0xFFFF (x.gap.toNat + x.gapAdd.toNat + x.gapOut.toNat)) 16

/-! ### The pacing law -/

/-- The target speed of RUN in pu per microsecond (02 R45). -/
def Dev.paceSpeed (d : Dev) : Nat :=
  match d.cNow with
  | none => d.vscan
  | some c =>
    let (lo, hi) := d.crTh
    let rr := (d.pacing.map fun s => (d.hng.streams[s]).rrate.toNat).min?.getD 0
    let vret := min d.vscan (d.pitch * rr / 1000000)
    if hi ≤ c then d.vscan
    else if lo < c then vret + (d.vscan - vret) * (c - lo) / (hi - lo)
    else vret * c / lo

/-- The averaging of the credit returns over one interval (02 R45). -/
def Dev.rateStep (d : Dev) : Dev :=
  d.pacing.foldl (fun d s => d.updStream s fun x => { x with rrate := Config.rrate x.rrate (fld d.hngCtl 12 3) x.recent, recent := 0 }) d

/-! ### LSYNC pulses and chain messages -/

/-- The device drives LSYNC: a chain master, or the active device of a pair (13 R297). -/
def Dev.drivesLsync (P : Part) (d : Dev) : Bool :=
  d.assembling P || d.cas.pair == .active || d.cas.pair == .activeSolo

/-- An LSYNC pulse driven, with TBSYNC for every 256th pulse and for the first after CHAIN_START (13 R297, R309). -/
def Dev.drivePulse (d : Dev) (width : Nat) : Dev :=
  let n := d.cas.lsyncCnt + 1
  let first := d.cas.sentStart
  let d := (d.updCas fun c => { c with lsyncCnt := n, sentStart := false }).emitOut (.lsync width)
  if first ∨ n.toNat % 256 = 0 then
    d.stageMsg 2 0x16 0 [n.setWidth 32, d.stb.extractLsb' 0 32, (d.stb.extractLsb' 32 16).setWidth 32] false
  else d

/-- A pulse driven where this device drives LSYNC. -/
def Dev.linePulse (P : Part) (d : Dev) (width : Nat) : Dev := if d.drivesLsync P then d.drivePulse width else d

/-- Seam offsets loaded by the Hinge; a chain master sends SEAMSET (13 R305). -/
def Dev.loadOffsets (P : Part) (d : Dev) (v h : Byte) : Dev :=
  let d := d.updHng fun x => { x with voff := v, hoff := h }
  if d.tellsMembers P then d.stageMsg 2 0x15 0 [v.setWidth 32 ||| (h.setWidth 32 <<< 8)] false else d

/-! ### Fires -/

/-- The position is at or beyond a grid position while the axis moves forward (02 R33). -/
def Dev.atGrid (d : Dev) (g : Int) : Bool := decide (0 < (d.mot[(0 : AxisId)]).pMove) && decide (g * 65536 ≤ d.trigPos)

/-- The cycle since which the trigger position follows the law it follows now: the interval's boundary, or with POSSRC = 1 the last count where that is later (08 R183, R188). -/
def Dev.lawSince (d : Dev) : Nat :=
  let x := d.mot[(0 : AxisId)]
  if bit d.hngCtl 2 then max x.segAt x.lastCount else x.segAt

/-- The cycle in which the interpolated position reaches a grid position ahead of where that law began (02 R35, 08 R183, R188). -/
def Dev.reachCycle (d : Dev) (g : Int) : Nat :=
  let x := d.mot[(0 : AxisId)]
  let (since, from_) : Nat × Int := if bit d.hngCtl 2 then (x.lastCount, d.counted 0 * 65536) else (x.segAt, x.pStart)
  since + (((g * 65536 - from_) * 400 + x.pMove - 1) / x.pMove).toNat

/-- The last position that is noted as reached; one before the next grid position where none is. -/
def Hinge.noted (h : Hinge) : Int := (h.reached.getLast?.map Prod.fst).getD (h.next - 1)

/-- What M0 has reached beyond what is noted (02 R33, R35): the position it stood at when the present law began, in that cycle, then every grid position up to the present one, each in its own cycle. -/
def Dev.passed (d : Dev) : List (Int × Nat) :=
  let h := d.hng
  let begun := { d with cycle := d.lawSince }.trigPu
  let first := if h.noted < begun then [(begun, d.lawSince)] else []
  let top := max h.noted begun
  let j := (top - h.next) / d.pitch + 1
  first ++ (List.range ((d.trigPu - h.next) / d.pitch + 1 - j).toNat).map fun i =>
    let g := h.next + (j + i) * d.pitch
    (g, d.reachCycle g)

/-- The reach of grid positions recorded while the Hinge is in RUN and the axis moves forward (02 R33, R35). -/
def Dev.noteReach (d : Dev) : Dev :=
  if d.hng.st = .run ∧ 0 < (d.mot[(0 : AxisId)]).pMove ∧ d.hng.next ≤ d.trigPu then
    d.updHng fun h => { h with reached := h.reached ++ d.passed }
  else d

/-- What was reached up to the cycle before this one, recorded before a count or a new interval changes the law of the position. -/
def Dev.notePast (d : Dev) : Dev :=
  d.updHng fun h => { h with reached := ({ d with cycle := d.cycle - 1 }.noteReach).hng.reached }

/-- The cycle in which a grid position was reached. -/
def Hinge.reachOf (h : Hinge) (g : Int) : Option Nat := (h.reached.find? fun r => decide (g ≤ r.1)).map Prod.snd

/-- Conditions of R33 that hold whatever the kind of capture: no fire in this cycle, credit at its start (R42), a FREE slot, acquisition ready, and LHOLD_N on a chain master (13 R305). -/
def Dev.mayFire (P : Part) (d : Dev) : Bool :=
  d.hng.firedAt != some d.cycle && d.credits && d.freeSlot.isSome && d.acqReady && (!d.chainMaster P || d.pins.lholdN)

/-- Lines fired since LINE START that the restart pairs (02 R52, R53). -/
def Dev.kpNow (P : Part) (d : Dev) : Nat := if d.corrInUse P then min d.hng.keff (d.hng.fired - 3) else 0

/-- Overlap captures in FULL go to FREE (02 R57, 09 R202). -/
def Dev.freeOverlaps (d : Dev) : Dev :=
  d.slotIds.foldl (fun d n =>
    if (d.ls.slots[n]).kind = .overlap ∧ (d.ls.slots[n]).st = .full then d.moveSlot n fun s => { s with st := .free } else d) d

/-- A freeze (02 R48-R53): from RUN it records P_last, L_last and KP, with NOPIN where KP is below 2; from a later state it keeps them. HNG_VTGT, whose law R45 gives for RUN alone, shows 0 from here to the next RUN and does not show V_OVL (DESIGN CHOICE, log 83). -/
def Dev.freeze (P : Part) (d : Dev) (r : Reason) : Dev :=
  let h := d.hng
  let kp := d.kpNow P
  let d := if h.st = .run then
      d.updHng fun h => { h with
        pLast := if h.fired = 0 then h.origin - d.pitch else h.last
        lLast := h.lineNo - 1, kp := if 2 ≤ kp then kp else 0
        noPin := h.noPin || decide (kp < 2) }
    else d.freeOverlaps
  let d := d.updHng fun h => { h with
    st := .freezing, reason := r, resumed := false, vtgt := 0, corr := .idle, ovl := 0, ovlDone := 0, grd := 0, reached := [], revDone := false }
  d.unpin P

/-- What a fire moves in the pacing books (02 R39): streams with a credit commit one, lossy ones without skip; the header takes the skips and the gap counts. -/
def Dev.fireBooks (d : Dev) : BitVec 64 × Tab Nat × Dev :=
  (List.finRange 64).foldl (fun (acc : BitVec 64 × Tab Nat × Dev) s =>
    let (sk, gaps, d) := acc
    let x : Stream := d.hng.streams[s]
    if !x.opened then (sk ||| (1#64 <<< s.val), gaps, d)
    else if x.atStart d.cycle = 0 then (sk ||| (1#64 <<< s.val), gaps, d.updStream s fun x => { x with gap := if x.gap = 0xFFFF then x.gap else x.gap + 1 })
    else (sk, if x.gap = 0 then gaps else gaps ++ [(s.val, x.gap.toNat)], d.updStream s fun x => { x with avail := x.avail - 1, gap := 0, gapOut := gapSum x.gapOut x.gap })) ((0 : BitVec 64), ([] : Tab Nat), d)

/-- A numbered line fires at its grid position (02 R33-R40, R47, R48, R58, R61). -/
def Dev.fireLine (P : Part) (d : Dev) (n : Fin 256) : Dev :=
  let h := d.hng
  let before := d.cNow
  let late := match h.reachOf h.next with | some r => decide (r + 1 < d.cycle) | none => false
  let (sk, gaps, d) := d.fireBooks
  let d := d.updHng fun h => { h with
    seamCnt := if h.newLine then h.seamCnt + 1 else h.seamCnt
    valid := h.valid || h.newLine
    weakSeen := h.weakSeen || (h.newLine && h.weak) }
  let hdr : LineHdr := {
    seam := h.newLine, weak := h.newLine && h.weak, dup := h.dup, late := late, pos := d.trigPu, seamCnt := d.hng.seamCnt, ts := d.stb
    voff := h.voff, hoff := h.hoff, score := h.score, skipped := sk &&& d.openSet, committed := ~~~sk, gaps := gaps }
  let d := (d.takeSlot P n .numbered h.lineNo hdr).fireAcq .numbered h.lineNo n
  let d := d.linePulse P 8
  let d := if d.pairRole P then (d.updKl fun k => { k with lineOut := k.lineOut ++ [⟨h.lineNo, h.next, d.counted 0, d.cas.lsyncCnt, ~~~sk, 0⟩] }).secureLines else d
  let d := if h.newLine then d.raise 15 h.lineNo else d
  let d := d.updHng fun h => { h with
    last := h.next, next := h.next + d.pitch, lineNo := h.lineNo + 1, fired := h.fired + 1, newLine := false, dup := false
    reached := h.reached.filter fun r => decide (h.next + d.pitch ≤ r.1), fullRaised := h.fullRaised - 1, late := h.late || late, lateCnt := if late then h.lateCnt + 1 else h.lateCnt
    firedAt := some d.cycle }
  let d := ((d.unpin P).creditCheck before).noteReach
  if d.cNow = some 0 then d.updHng fun x => { x with stopDue := some h.lineNo } else d

/-- The end of the cycle of a fire that has taken C to zero (02 R42, R48, R61): event 12, and the freeze where EN = 1 and the Hinge is still in RUN. A SEAM FREEZE or stall in that cycle has given its own REASON already, and several events 12 before C is back are answered by one event 13 (DESIGN CHOICE, log 64). -/
def Dev.creditStop (P : Part) (d : Dev) : Dev :=
  match d.hng.stopDue with
  | none => d
  | some line =>
    let d := (d.updHng fun h => { h with stopDue := none, resumeOwed := true }).raise 12 line
    if bit d.hngCtl 0 ∧ d.hng.st = .run then d.freeze P .credit else d

/-- LINE_FIRE (02 R33). -/
def Dev.lineFire (P : Part) (d : Dev) : Dev :=
  let d := d.noteReach
  match d.freeSlot with
  | some n => if d.hng.st = .run ∧ d.atGrid d.hng.next ∧ d.mayFire P then d.fireLine P n else d
  | none => d

/-- STORE_FULL: a grid position is reached with no FREE slot; event 10 once for each line that waits, the earliest first (09 R200, R401). -/
def Dev.storeFull (d : Dev) : Dev :=
  let d := d.noteReach
  let k := d.hng.fullRaised
  let reached := (d.hng.reachOf (d.hng.next + k * d.pitch)).isSome
  if d.hng.st = .run ∧ reached ∧ d.freeSlot.isNone then
    (d.updHng fun h => { h with fullRaised := k + 1 }).raise 10 (d.hng.lineNo + nword k)
  else d

/-- A capture without a number fires at the grid position of an earlier line (02 R37, R57). -/
def Dev.fireCapture (P : Part) (d : Dev) (kind : Capture) (back : Nat) : Option Dev :=
  match d.freeSlot with
  | some n =>
    let line := d.hng.lLast - nword back
    if d.atGrid (d.hng.pLast - back * d.pitch) ∧ d.mayFire P then
      some ((((d.takeSlot P n kind line { pos := d.trigPu, ts := d.stb }).fireAcq kind line n).linePulse P (if kind = .overlap then 16 else 24)).updHng
        fun h => { h with firedAt := some d.cycle })
    else none
  | none => none

/-- Back to RUN: the grid goes on from P_last + LINE_PITCH with the first new line (02 R58). -/
def Dev.enterRun (P : Part) (d : Dev) : Dev :=
  let d := d.updHng fun h => { h with st := .run, newLine := true, corr := .idle, reached := [], fullRaised := 0 }
  d.unpin P

/-- GUARD ends when its last capture has fired and the offsets are loaded. -/
def Dev.guardEnd (P : Part) (d : Dev) : Dev := if d.hng.st = .guard ∧ d.hng.grd = 3 ∧ d.hng.corr = .loaded then d.enterRun P else d

/-- OVERLAP_CAPTURE_FIRE (02 R57). -/
def Dev.overlapFire (P : Part) (d : Dev) : Dev :=
  if d.hng.st = .overlap ∧ d.hng.ovl < d.hng.kp then
    match d.fireCapture P .overlap (d.hng.kp + 2 - d.hng.ovl) with
    | some d => d.updHng fun h => { h with ovl := h.ovl + 1 }
    | none => d
  else d

/-- GUARD_CAPTURE_FIRE (02 R57). -/
def Dev.guardFire (P : Part) (d : Dev) : Dev :=
  if d.hng.st = .guard ∧ d.hng.grd < 3 then
    match d.fireCapture P .guard (2 - d.hng.grd) with
    | some d => (d.updHng fun h => { h with grd := h.grd + 1 }).guardEnd P
    | none => d
  else d

/-- The end of a correlation that has read what it needs (02 R59, 07 R174): the offsets of an accepted result are loaded, zero ones and event 16 otherwise. -/
def Dev.corrEnd (P : Part) (d : Dev) : Dev :=
  if d.hng.st = .guard ∧ d.hng.corr = .running then
    let (r, d) := d.corrRun
    let (ok, score, mv, mh) := match r with
      | some r => (!r.edge && !r.flat && decide (fld d.hngCtl 24 8 ≤ r.score), r.score, r.mv, r.mh)
      | none => (false, 0, 0, 0)
    let d := if ok then (if mv < 0 then d.updPix fun x => { x with vclamp := true } else d) else d.raise 16 (nword score)
    let d := d.updHng fun h => { h with corr := .loaded, weak := !ok, score := BitVec.ofNat 8 score }
    let d := d.loadOffsets P (if ok then BitVec.ofInt 8 (max mv 0) else 0) (if ok then BitVec.ofInt 8 mh else 0)
    d.freeOverlaps.guardEnd P
  else d

/-- CORRELATION_DONE: the correlator reads on where the line store grants it, and ends when nothing is left to read; its row does nothing else while another master's request keeps it waiting (01 R17). -/
def Dev.correlationDone (P : Part) (granted : Dev → Nat → Bool) (d : Dev) : Dev :=
  let d := d.corrRead P granted
  if d.corrAsks then d else d.corrEnd P

/-! ### Run control -/

/-- KEFF as HNG_STATE shows it (02 R52). -/
def Dev.keffShown (P : Part) (d : Dev) : Nat := if P.corr && bit d.hngCtl 1 then d.hng.keff else 0

/-- LINE START (02 R33, R52, 08 R189, 09 R197, 13 R304-R306): Z tells whether a run started. The standby of a pair, which has no acquisition in progress (13 R315), starts none (DEDUCED, log 85). -/
def Dev.lineStart (P : Part) (d : Dev) (p0 : Int) (n0 : Word) : Bool × Dev :=
  if d.hng.st ≠ .off ∨ d.slaved P ∨ d.cas.pair = .standby ∨ d.cas.pair = .takeover then (false, d)
  else
    let g := d.newGeom P
    let d := d.startGeom P
    let k := max 2 (min 8 (fld d.hngCtl 4 4))
    let d := d.updHng fun h => { h with
      st := .run, seamCnt := 0, valid := false, weak := false, score := 0, keff := min k ((g.nslot - 2) / 2)
      origin := p0, next := p0, last := p0 - d.pitch, lineNo := n0, fired := 0, kp := 0, lLast := n0 - 1, pLast := p0 - d.pitch
      resumed := false, newLine := false, dup := false, ovl := 0, ovlDone := 0, grd := 0, corr := .idle
      reached := [], fullRaised := 0, takeM0 := true, endM0 := d.progM0 || h.endM0, revDone := false, vtgt := nword d.paceSpeed }
    let d := (d.updMot 0 fun x => { x with next := none }).agePrevious.updPix fun x => { x with hist := [] }
    let d := if d.assembling P ∧ bit (d.reg 0x70000) 0 then d.cfgErr else d
    let d := if d.tellsMembers P then
        (d.stageMsg 2 0x13 0 [n0, nword (g.pstr % 2 ^ 18)] false).updCas fun c => { c with sentStart := true }
      else d
    (true, d.noteReach)

/-- LINE STOP (02 "Hinge transitions", 09 R202, 13 R304, R305): Z tells whether a run was ended. -/
def Dev.lineStop (P : Part) (d : Dev) : Bool × Dev :=
  if d.hng.st = .off then (false, d)
  else
    let d := d.updHng fun h => { h with
      st := .off, vtgt := 0, kp := 0, corr := .idle, reached := [], newLine := false, dup := false }
    let d := ((d.unpin P).freeOverlaps).geometryApply
    let d := if d.tellsMembers P then d.stageMsg 2 0x14 0 [] false else d
    (true, d.releaseM0)

/-- SEAM FREEZE (02 R49, R61). -/
def Dev.seamFreeze (P : Part) (d : Dev) : Bool × Dev :=
  if d.hng.st = .run ∧ bit d.hngCtl 0 then (true, d.freeze P .soft) else (false, d)

/-- SEAM RESUME (02 R55, 04 R112). -/
def Dev.seamResume (d : Dev) : Bool × Dev :=
  if (d.hng.st = .freezing ∨ d.hng.st = .frozenWait) ∧ (d.hng.reason = .stall ∨ d.hng.reason = .soft) then
    (true, d.updHng fun h => { h with resumed := true })
  else (false, d)

/-- Event 19 acts on the Hinge in its states RUN to GUARD while EN = 1 (02 R49, 05 R127). -/
def Dev.stallFreeze (P : Part) (d : Dev) : Dev :=
  if d.hng.st ≠ .off ∧ bit d.hngCtl 0 then d.freeze P .stall else d

/-! ### The planner interval -/

/-- The restart condition of FROZEN_WAIT (02 R55, 13 R318). -/
def Dev.restartOk (d : Dev) : Bool :=
  d.creditBack && (match d.hng.reason with
    | .stall => d.hng.resumed
    | .soft => d.hng.resumed
    | _ => true)

/-- Entry to REVERSE: D_acc and P_rev (02 R54, R56, 08 R187). MOT_M0_DACC shows 0xFFFFFFFF for a distance that does not fit it (DESIGN CHOICE, log 105). -/
def Dev.enterReverse (d : Dev) : Dev :=
  let acc := d.daccOf 0 d.vovl
  let n := if d.hng.kp = 0 then 0 else d.hng.kp + 3
  let d := d.updMot 0 fun x => { x with dacc := nword (min acc 0xFFFFFFFF) }
  d.updHng fun h => { h with
    st := .reverse, revDone := false
    pRev := h.pLast - (n * d.pitch : Nat) - acc - (d.reg 0x50034).toNat }

/-- The Hinge's part of an interval before the planners run (02 R45, R55). -/
def Dev.hngBefore (d : Dev) : Dev :=
  let d := d.rateStep
  let d := if d.hng.resumeOwed ∧ d.creditBack then
      (d.updHng fun h => { h with resumeOwed := false }).raise 13 (nword (min (d.cNow.getD 0xFFFFFF) 0xFFFFFF))
    else d
  match d.hng.st with
  | .run => d.updHng fun h => { h with vtgt := nword d.paceSpeed }
  | .frozenWait => if d.restartOk then d.enterReverse else d
  | _ => d

/-- RERUN has reached the overlap speed the planner allows (02 "Hinge transitions"). -/
def Dev.atOverlapSpeed (d : Dev) : Bool := decide ((min (d.vovl * 65536) (d.vmaxEff 0) : Nat) ≤ (d.mot[(0 : AxisId)]).v)

/-- The Hinge's part of an interval after the planners have run (02 "Hinge transitions", R59, R60). -/
def Dev.hngAfter (P : Part) (d : Dev) : Dev :=
  match d.hng.st with
  | .freezing =>
    if d.atRest 0 then
      (d.updHng fun h => { h with st := .frozenWait }).raise 14 (place (match d.hng.reason with | .none => 0 | .credit => 1 | .stall => 2 | .soft => 3 | .takeover => 4) 0)
    else d
  | .reverse => if d.hng.revDone ∧ d.atRest 0 then d.updHng fun h => { h with st := .rerun } else d
  | .rerun =>
    if d.atOverlapSpeed then
      if d.hng.kp ≠ 0 then d.updHng fun h => { h with st := .overlap, ovl := 0, ovlDone := 0, grd := 0 }
      else ((d.updHng fun h => { h with weak := true }).loadOffsets P 0 0).enterRun P
    else d
  | _ => d

/-- PLANNER_INTERVAL (08 R185): the Hinge sets its targets, both axes run their rule, and the Hinge judges its state. -/
def Dev.plannerInterval (P : Part) (d : Dev) : Dev := ((((d.notePast.hngBefore).planAxis 0).planAxis 1).hngAfter P).noteReach

/-- ENCODER_COUNT (08 R182): a count may bring the trigger position to the next grid position, and what interpolation had reached before it stays noted (02 R35). -/
def Dev.encoderCount (d : Dev) (m : AxisId) (la lb : Bool) : Dev := (d.notePast.encCount m la lb).noteReach

/-! ### Registers -/

/-- HNG_STATE. -/
def Dev.hngState (P : Part) (d : Dev) : Word :=
  let st := match d.hng.st with
    | .off => 0 | .run => 1 | .freezing => 2 | .frozenWait => 3 | .reverse => 4 | .rerun => 5 | .overlap => 6 | .guard => 7
  let r := match d.hng.reason with | .none => 0 | .credit => 1 | .stall => 2 | .soft => 3 | .takeover => 4
  place st 0 ||| place r 4 ||| place (d.keffShown P) 8 ||| flag d.running 15 ||| (d.hng.seamCnt.setWidth 32 <<< 16)

/-- HNG_STATUS. -/
def Hinge.status (h : Hinge) : Word := flag h.late 0 ||| flag h.crovf 1 ||| flag h.weakSeen 2 ||| flag h.noPin 3

/-- HNG_SEAM. -/
def Hinge.seam (h : Hinge) : Word :=
  h.voff.setWidth 32 ||| (h.hoff.setWidth 32 <<< 8) ||| (h.score.setWidth 32 <<< 16) ||| flag h.weak 24 ||| flag h.valid 25

/-- A W1C write of HNG_STATUS. -/
def Dev.hngStatusW1c (d : Dev) (v : Word) : Dev :=
  d.updHng fun h => { h with late := h.late && !bit v 0, crovf := h.crovf && !bit v 1, weakSeen := h.weakSeen && !bit v 2, noPin := h.noPin && !bit v 3 }

/-- A write of HNG_CTL; lines no longer kept are unpinned (02 R52, R62, R63). -/
def Dev.hngCtlWrite (P : Part) (d : Dev) (v : Word) : Dev := (d.writeReg P 0x50000 v).unpin P

/-- A write of MOT_Mm_CTL (08 R192): a stop of M0 in HNG state RUN acts as a stall on the Hinge. -/
def Dev.axisCtlWrite (P : Part) (d : Dev) (m : AxisId) (v : Word) : Dev :=
  let (stopped, d) := d.motCtlWrite P m v
  if stopped ∧ m = 0 ∧ d.hng.st = .run then d.stallFreeze P else d

end Sys2Proof.Machine
end

