-- ==== Sys2Proof/Machine/Dma.lean ====
section
/-!
DEFINITION. The DMA engine: starts, descriptors and their checks, reshuffles, bursts and beats, the tail of a chain, paced lines, aborts and freezes (09 R205-R219).
-/
namespace Sys2Proof.Machine

/-- The end of what a channel's window grants from an address on: the address itself when the window does not cover it or lacks a permission (09 R207, R220). -/
def Dev.windowEnd (d : Dev) (n : DmaId) (perms : List Nat) (a k : Nat) : Nat :=
  let b := d.reg (0x88010 + 0x40 * n.val + 8 * k)
  let l := d.reg (0x88014 + 0x40 * n.val + 8 * k)
  if perms.all (bit b) ∧ fld b 6 26 ≤ a / 64 ∧ a / 64 ≤ fld l 6 26 then (fld l 6 26 + 1) * 64 else a

/-- The first address of a range outside the window that covers most of it from its start; none when one window grants the whole range (09 R207). -/
def Dev.dmaOutside (d : Dev) (n : DmaId) (perms : List Nat) (a len : Nat) : Option Nat :=
  let e := max (d.windowEnd n perms a 0) (d.windowEnd n perms a 1)
  if a + len ≤ e ∨ len = 0 then none else some e

/-- Source and destination element widths, planes and reshuffle of a CTL word (09 DMA_CHn_CTL); a plane reshuffle of one plane acts as NONE, and BITPLANE writes bytes (R209). -/
structure Xfer where
  sw : Nat
  dw : Nat
  msb : Bool
  rsh : Nat
  planes : Nat
  bpp2 : Bool
  cnt : Nat
  src : Nat
  dst : Nat
  pstr : Nat
  deriving DecidableEq, Repr

/-- A channel's PACED bit. -/
def Dev.paced (d : Dev) (n : DmaId) : Bool := bit (d.dmaCfg n) 0

/-- SLOTREL in force for a transfer: SOFT channels ignore it (09 R213). -/
def Dev.slotRel (d : Dev) (n : DmaId) (w : Vector Word 7) : Bool := d.paced n && bit w[4] 11

/-- The transfer that a channel's words describe, with SRC made absolute. -/
def Dev.xferOf (d : Dev) (n : DmaId) (w : Vector Word 7) : Xfer :=
  let c := w[4]
  let pl := fld c 8 2 + 1
  let r := fld c 6 2
  let r := if pl = 1 ∧ (r = 1 ∨ r = 2) then 0 else r
  let base := if d.slotRel n w then (match (d.dma[n]).bound with | some s => d.slotBase s.val | none => 0) else 0
  { sw := 2 ^ fld c 1 2, dw := if r = 3 then 1 else 2 ^ fld c 3 2, msb := bit c 5, rsh := r, planes := if r = 1 ∨ r = 2 then pl else 1,
    bpp2 := bit c 10, cnt := fld w[3] 0 24, src := (base + w[1].toNat) % 2 ^ 32, dst := w[2].toNat, pstr := w[5].toNat }

/-- Bytes the transfer writes (09 R209). -/
def Xfer.size (x : Xfer) : Nat :=
  if x.rsh = 3 then (x.cnt + 7) / 8 * (if x.bpp2 then 2 else 1) else x.planes * x.cnt * x.dw

/-- Source ranges, each as start and length. -/
def Xfer.sources (x : Xfer) : List (Nat × Nat) :=
  if x.rsh = 1 then (List.range x.planes).map fun i => ((x.src + i * x.pstr) % 2 ^ 32, x.cnt * x.sw)
  else [(x.src, x.planes * x.cnt * x.sw)]

/-- Destination ranges, each as start and length. -/
def Xfer.dests (x : Xfer) : List (Nat × Nat) :=
  if x.rsh = 2 then (List.range x.planes).map fun i => ((x.dst + i * x.pstr) % 2 ^ 32, x.cnt * x.dw)
  else [(x.dst, x.size)]

/-- Address of source element e, in destination order. -/
def Xfer.srcAt (x : Xfer) (e : Nat) : Nat :=
  if x.rsh = 1 then (x.src + e % x.planes * x.pstr + e / x.planes * x.sw) % 2 ^ 32 else (x.src + e * x.sw) % 2 ^ 32

/-- Bytes of plane i of a PIXEL_TO_PLANAR destination that lie before its r-th beat (09 R210). -/
def Xfer.planeBefore (x : Xfer) (r i : Nat) : Nat := min (x.cnt * x.dw) (16 * r - (x.dst + i * x.pstr) % 16)

/-- Bytes of all planes that lie before their r-th beats. -/
def Xfer.roundBefore (x : Xfer) (r : Nat) : Nat := ((List.range x.planes).map (x.planeBefore r)).sum

/-- Byte j of a round of beats, one of each plane from plane i on: its plane and its byte in the plane. -/
def Xfer.inRound (x : Xfer) (r : Nat) : Nat → Nat → Nat → Nat × Nat
  | 0, i, j => (i, x.planeBefore r i + j)
  | fuel + 1, i, j =>
    let n := x.planeBefore (r + 1) i - x.planeBefore r i
    if j < n then (i, x.planeBefore r i + j) else x.inRound r fuel (i + 1) (j - n)

/-- The plane of destination byte j and its byte there, in the order the bytes are committed: planes of PIXEL_TO_PLANAR are written in turn, a beat each (09 R210). -/
def Xfer.place (x : Xfer) (j : Nat) : Nat × Nat :=
  if x.rsh = 2 then
    let q := j / (16 * x.planes)
    let r := if x.roundBefore (q + 1) ≤ j then q + 1 else q
    x.inRound r x.planes 0 (j - x.roundBefore r)
  else (0, j)

/-- The element, in destination order, that destination byte j belongs to. -/
def Xfer.elemOf (x : Xfer) (j : Nat) : Nat := if x.rsh = 2 then (x.place j).2 / x.dw * x.planes + (x.place j).1 else j / x.dw

/-- The first address of the destination range of byte j. -/
def Xfer.rangeOf (x : Xfer) (j : Nat) : Nat := (x.dst + (x.place j).1 * x.pstr) % 2 ^ 32

/-- Address of destination byte j, in the order the bytes are committed. -/
def Xfer.dstAt (x : Xfer) (j : Nat) : Nat := (x.rangeOf j + (x.place j).2) % 2 ^ 32

/-- An element converted to a width (09 R208). -/
def convert (msb : Bool) (dw : Nat) (bs : List Byte) : List Byte :=
  let n := bs.length
  if dw ≤ n then (if msb then bs.drop (n - dw) else bs.take dw)
  else if msb then List.replicate (dw - n) 0 ++ bs else bs ++ List.replicate (dw - n) 0

/-- Element e read and narrowed to a byte; an element past the last is zero (09 R209). -/
def Xfer.elemByte (x : Xfer) (g : Nat → Byte) (e : Nat) : Byte :=
  if e < x.cnt then (convert x.msb 1 ((List.range x.sw).map fun r => g (x.srcAt e + r))).headD 0 else 0

/-- A byte spelled by bits, the first one most significant. -/
def bitsByte (bs : List Bool) : Byte := BitVec.ofNat 8 (bs.foldl (fun a b => 2 * a + b.toNat) 0)

/-- Destination byte j of a transfer from the bytes of its source (09 R208, R209). -/
def Xfer.byteAt (x : Xfer) (g : Nat → Byte) (j : Nat) : Byte :=
  if x.rsh = 3 then
    if x.bpp2 then bitsByte ((List.range 4).flatMap fun q =>
      let b := x.elemByte g (j / 2 * 8 + j % 2 * 4 + q)
      [b.getLsbD 7, b.getLsbD 6])
    else bitsByte ((List.range 8).map fun q => (x.elemByte g (j * 8 + q)).getLsbD 7)
  else (convert x.msb x.dw ((List.range x.sw).map fun r => g (x.srcAt (x.elemOf j) + r))).getD ((x.place j).2 % x.dw) 0

/-- Source addresses that destination bytes j to j + n - 1 read. -/
def Xfer.reads (x : Xfer) (j n : Nat) : List Nat :=
  let es := if x.rsh = 3 then
      (if x.bpp2 then (List.range n).flatMap fun i => (List.range 4).map fun q => (j + i) / 2 * 8 + (j + i) % 2 * 4 + q
       else (List.range n).flatMap fun i => (List.range 8).map fun q => (j + i) * 8 + q).filter fun e => decide (e < x.cnt)
    else ((List.range n).map fun i => x.elemOf (j + i)).dedup
  es.flatMap fun e => (List.range x.sw).map fun r => x.srcAt e + r

/-- The stream whose egress window a destination lies in (09 R214). -/
def egressStream (a : Nat) : Option (Fin 64) :=
  if 0x8098000 ≤ a ∧ a < 0x80A0000 then some ⟨(a - 0x8098000) / 0x200 % 64, Nat.mod_lt _ (by decide)⟩ else none

/-- A destination in the cascade window (13 R307). -/
def inCascade (a : Nat) : Bool := decide (0x80C8000 ≤ a) && decide (a < 0x80D0000)

/-- An address in an egress window for a channel: that of its own stream, or the cascade window, while it holds a bound line (09 R214, 13 R307). -/
def Dev.egressOk (P : Part) (d : Dev) (n : DmaId) (a : Nat) : Bool :=
  (d.dma[n]).bound.isSome && ((egressStream a).isSome && egressStream a == d.chanStream n || (P.casc && inCascade a))

/-- Destination byte j of a transfer goes to the framer: its range lies in an egress window, in which offsets are ignored (01 R18, 09 R214). -/
def Dev.framed (P : Part) (d : Dev) (n : DmaId) (x : Xfer) (j : Nat) : Bool := d.egressOk P n (x.rangeOf j)

/-- Tag of the transfer in hand (09 R218). -/
def Chan.tag (k : Chan) : Word := match k.desc with | some w => w[6] | none => 0

/-- w4 of the transfer in hand. -/
def Chan.ctl4 (k : Chan) : Word := match k.desc with | some w => w[4] | none => 0

/-- The number of a target port. -/
def portNo : Port → Nat
  | .pd => 0
  | .sh => 1
  | .ls => 2
  | .lsw => 3
  | .aon => 4
  | .nvm => 5
  | .mmio => 6

/-- A burst of b beats granted to a channel at a port: its next request there waits for the share limit (09 R211). -/
def Dev.shareUsed (d : Dev) (n : DmaId) (p : Port) (b : Nat) : Dev :=
  let share := fld (d.dmaCfg n) 1 6 + 1
  if d.paced n ∧ share < 64 then d.updDma n fun k => { k with readyAt := tabSet 0 k.readyAt (portNo p) (d.cycle + (b * 64 + share - 1) / share) }
  else d

/-- The cycle since which a channel's request at a port stands there (01 R17, 09 R211). -/
def Dev.dmaAge (d : Dev) (n : DmaId) (p : Port) : Nat := max (d.dma[n]).askAt (tabGet 0 (d.dma[n]).readyAt (portNo p))

/-- w7 of the descriptor in hand (09 R207): DONEB, and how it ended. -/
def Chan.w7 (k : Chan) (ok cut : Bool) : Word := place (k.done % 2 ^ 28) 0 ||| flag ok 28 ||| flag cut 29

/-- w7 written for a descriptor that is complete, a burst of one beat (09 R207, R211). -/
def Dev.writeW7 (P : Part) (d : Dev) (n : DmaId) : Dev :=
  let k := d.dma[n]
  if k.chain then (d.store P (k.cur.toNat + 28) (wordBytes (k.w7 true false))).shareUsed n (portOf (regionOf P k.cur.toNat)) 1
  else d

/-- Event 37 with a reason (09 R217, R218). -/
def Dev.dmaErr (d : Dev) (n : DmaId) (reason : Nat) : Dev :=
  d.raise 37 (place n.val 0 ||| place reason 8 ||| ((d.dma[n]).tag <<< 16))

/-- A channel stops at its beat boundary: w7 with CUT, put out when its descriptor passed its checks, and event 37 (01 R17, 09 R217). -/
def Dev.dmaStop (P : Part) (d : Dev) (n : DmaId) (reason : Nat) : Dev :=
  let k := d.dma[n]
  let d := if k.st = .run ∧ k.chain then d.putLate P (.dma n) (k.cur.toNat + 28) (wordBytes (k.w7 false true)) else d
  (d.updDma n fun k => { k with buf := [], seen := [], burst := 0 }).dmaErr n reason

/-- A violation by a channel freezes it; the record carries w4 of the descriptor in hand (03 R78, R81, 09 R217). -/
def Dev.dmaFreeze (P : Part) (d : Dev) (n : DmaId) (cause : Nat) (a : Nat) (write : Bool) : Dev :=
  let k := d.dma[n]
  (d.freezeMst P (.dma n) cause k.cur { addr := nword a, size := 16, write := write } (if k.chain then k.ctl4 else 0)).dmaStop P n 2

/-- The checks of R207 on the words in hand: none when all pass, otherwise the address and direction of the first byte outside the channel's windows. -/
def Dev.dmaCheck (P : Part) (d : Dev) (n : DmaId) (w : Vector Word 7) : Option (Nat × Bool) :=
  let x := d.xferOf n w
  match x.sources.findSome? fun r => d.dmaOutside n [0] r.1 r.2 with
  | some a => some (a, false)
  | none =>
    (x.dests.findSome? fun r => if bit w[4] 12 && d.egressOk P n r.1 then none else d.dmaOutside n [1] r.1 r.2).map fun a => (a, true)

/-- The 16-byte beats that the reads of one destination byte take. -/
def Xfer.beatsAt (x : Xfer) (j : Nat) : List Nat := ((x.reads j 1).map beatBase).dedup

/-- Destination bytes from j on whose source is read already or fits in a burst of 16 beats at one port, with the beats of that burst (09 R210). -/
def Xfer.fits (P : Part) (x : Xfer) (seen : List Nat) : Nat → Nat → List Nat → Nat × List Nat
  | 0, _, acc => (0, acc)
  | fuel + 1, j, acc =>
    let new := acc ++ (x.beatsAt j).filter fun b => !seen.contains b && !acc.contains b
    let port := fun b => portOf (regionOf P b)
    if acc = [] ∨ (new.length ≤ 16 ∧ new.all fun b => port b == port (acc.headD b)) then
      let r := x.fits P seen fuel (j + 1) new
      (r.1 + 1, r.2)
    else (0, acc)

/-- Bytes of a transfer that have been read. -/
def Chan.gotten (k : Chan) : Nat := k.done + k.buf.length

/-- The next read burst of a channel: the destination bytes that it completes, and its beats. -/
def Chan.chunk (P : Part) (k : Chan) (x : Xfer) : Nat × List Nat :=
  x.fits P (k.seen.map fun b => b.1) (min (x.size - k.gotten) 2048) k.gotten []

/-- The beats of a destination, as start and enabled bytes: bytes that lie side by side in one 16-byte beat. -/
def beatsOf (at_ : Nat → Nat) : Nat → List Byte → List (Nat × List Byte)
  | _, [] => []
  | j, b :: bs =>
    match beatsOf at_ (j + 1) bs with
    | (a, cs) :: rest => if at_ j + 1 = a ∧ a % 16 ≠ 0 then (at_ j, b :: cs) :: rest else (at_ j, [b]) :: (a, cs) :: rest
    | [] => [(at_ j, [b])]

/-- Destination beats of a channel that have all their bytes (09 R210): a last beat that more bytes belong to waits for them. -/
def Chan.wholeBeats (k : Chan) (x : Xfer) : List (Nat × List Byte) :=
  let bs := beatsOf x.dstAt k.done k.buf
  if x.size ≤ k.gotten then bs
  else match bs.getLast? with
    | some (a, cs) => if x.dstAt k.gotten = a + cs.length ∧ (a + cs.length) % 16 ≠ 0 then bs.dropLast else bs
    | none => bs

/-- Beats of a channel's next write burst: whole ones, at most 16, at one port (09 R210). -/
def Chan.writeBeats (P : Part) (k : Chan) (x : Xfer) : List (Nat × List Byte) :=
  let bs := (k.wholeBeats x).take 16
  bs.takeWhile fun c => portOf (regionOf P c.1) == portOf (regionOf P (bs.headD (0, [])).1)

/-- A running channel's next burst is a write: a burst is full, or ends where the port changes, or every byte has been read. -/
def Chan.writesNext (P : Part) (k : Chan) (x : Xfer) : Bool :=
  decide (x.size ≤ k.gotten) || decide (16 ≤ (k.wholeBeats x).length) || decide ((k.writeBeats P x).length < (k.wholeBeats x).length)

/-- The next burst of a running channel presented: an address that the channel cannot reach is a decode violation (01 R18, R19). -/
def Dev.dmaOffer (P : Part) (d : Dev) (n : DmaId) : Dev :=
  let k := d.dma[n]
  match k.desc with
  | some w =>
    let x := d.xferOf n w
    let bad := fun a => !reaches (.dma n) (regionOf P a)
    if k.st ≠ .run ∨ d.frozen (.dma n) then d
    else
      let wr := k.writesNext P x
      let as := if x.size ≤ k.done then [] else if !wr then x.reads k.gotten (k.chunk P x).1
        else ((List.range k.buf.length).filter fun i => !d.framed P n x (k.done + i)).map fun i => x.dstAt (k.done + i)
      match as.find? bad with
      | some a => d.dmaFreeze P n 0x0A a wr
      | none => d.updDma n fun k => { k with askAt := d.cycle }
  | none => d

/-- A transfer taken in hand and checked: a channel in register mode is checked in RUN, one in chain mode enters RUN when the checks pass (09 "DMA channel transitions"). -/
def Dev.dmaBegin (P : Part) (d : Dev) (n : DmaId) (w : Vector Word 7) : Dev :=
  let d := d.updDma n fun k => { k with
    desc := some w, done := 0, buf := [], seen := [], burst := 0, halfRaised := false, st := if k.chain then k.st else .run }
  match d.dmaCheck P n w with
  | none => (d.updDma n fun k => { k with st := .run }).dmaOffer P n
  | some (a, wr) => d.dmaFreeze P n 0x08 a wr

/-- The words of a register-mode transfer (09 R205). No register holds a TAG, which reads 0 in its events (DESIGN CHOICE, log 103). -/
def Dev.regWords (d : Dev) (n : DmaId) : Vector Word 7 :=
  #v[0, d.dmaReg n 4, d.dmaReg n 8, d.dmaReg n 0xC, d.dmaReg n 0, d.dmaReg n 0x10, 0]

/-- A channel may be started: IDLE and not frozen (09 R205). -/
def Dev.dmaIdle (d : Dev) (n : DmaId) : Bool := (d.dma[n]).st == .idle && !d.frozen (.dma n)

/-- A start finds a line still bound at the tail of a chain: it is again the oldest of the list. -/
def Dev.dmaRequeue (d : Dev) (n : DmaId) : Dev := d.updDma n fun k => { k with list := k.bound.toList ++ k.list, bound := none }

/-- A start in register mode (09 R205). -/
def Dev.dmaStartReg (P : Part) (d : Dev) (n : DmaId) : Dev :=
  let d := (d.setReg (dmaOff n 0) (putBit (d.dmaReg n 0) 0 true)).dmaRequeue n
  let d := d.updDma n fun k => { k with chain := false, atTail := false, cur := 0, goClear := false, reread := false, ringLat := false }
  if d.paced n then d.updDma n fun k => { k with st := .lineWait, desc := none } else d.dmaBegin P n (d.regWords n)

/-- A start in chain mode at a descriptor (09 R205). -/
def Dev.dmaStartChain (d : Dev) (n : DmaId) (a : Word) : Dev :=
  let a := a &&& 0xFFFFFFE0
  let d := (d.setReg (dmaOff n 0x14) a).dmaRequeue n
  d.updDma n fun k => { k with
    chain := true, atTail := false, goClear := false, reread := false, ringLat := false, desc := none, nextAt := a, done := 0
    askAt := d.cycle, flight := [], st := if d.paced n then .lineWait else .fetch }

/-- XFER and the starts by MMIO: the channel starts when it is IDLE (09 R205). -/
def Dev.dmaXfer (P : Part) (d : Dev) (n : DmaId) (a : Word) : Bool × Dev :=
  if d.dmaIdle n then (true, if a = 0 then d.dmaStartReg P n else d.dmaStartChain n a) else (false, d)

/-- A ring of the doorbell (09 R216): in FETCH it comes before the read of the descriptor is issued, unless that read has frozen the channel there. -/
def Dev.dmaRing (d : Dev) (n : DmaId) : Dev :=
  d.updDma n fun k =>
    match k.st with
    | .fetch => if d.frozen (.dma n) then { k with ringLat := true } else k
    | .run => { k with ringLat := true }
    | .tailWait => { k with reread := true, askAt := if k.reread then k.askAt else d.cycle }
    | .idle => if k.atTail then { k with st := .tailWait, reread := true, askAt := d.cycle } else k
    | .lineWait => k

/-- A channel reads n bytes of a descriptor at an address: whole beats, the first read of a held slot, an absent part of LS, and the share of its port (01 R21, R399, 09 R202, R211). -/
def Dev.descRead (P : Part) (d : Dev) (n : DmaId) (a len : Nat) : Dev :=
  let d := ((d.beatRead P a len).readSlots n [a]).shareUsed n (portOf (regionOf P a)) (beatSpan a len / 16)
  if regionOf P a = .lsAbsent then d.setAbsent else d

/-- A fetch that fails its checks is no request at a port: the first address outside the channel's windows, or one the channel cannot reach, with the cause (01 R18, R19, 09 R207). -/
def Dev.fetchBar (P : Part) (d : Dev) (n : DmaId) : Option Nat :=
  let a := (d.dma[n]).nextAt.toNat
  if (d.dmaOutside n [0, 1] a 32).isSome then some 0x08 else if !reaches (.dma n) (regionOf P a) then some 0x0A else none

/-- The read of a descriptor (09 R207): every byte the channel will touch is checked. -/
def Dev.fetchNow (P : Part) (d : Dev) (n : DmaId) : Dev :=
  let k := d.dma[n]
  if dmaPresent P n ∧ k.st = .fetch ∧ !d.frozen (.dma n) then
    let a := k.nextAt.toNat
    let d := d.updDma n fun k => { k with ringLat := false, cur := k.nextAt, desc := none, done := 0 }
    match d.fetchBar P n with
    | some c => d.dmaFreeze P n c a false
    | none =>
      let d1 := d.descRead P n a 32
      if d.eccBad P a 32 then d1.dmaFreeze P n 0x09 a false
      else d1.dmaBegin P n (Vector.ofFn fun i : Fin 7 => d1.fetchLE P (a + 4 * i.val) 4)
  else d

/-- A channel waits for its first or next line. -/
def Dev.dmaLineWait (d : Dev) (n : DmaId) : Dev :=
  let k := d.dma[n]
  if k.goClear ∧ !k.chain then d.updDma n fun k => { k with st := .idle, goClear := false } else d.updDma n fun k => { k with st := .lineWait }

/-- A channel asks for its next descriptor. -/
def Dev.dmaToFetch (d : Dev) (n : DmaId) : Dev := d.updDma n fun k => { k with st := .fetch, askAt := d.cycle }

/-- DMA_LINE_BIND (09 R212): the oldest line received becomes the bound line. -/
def Dev.lineBind (P : Part) (d : Dev) (n : DmaId) : Dev :=
  let k := d.dma[n]
  match k.st, k.list with
  | .lineWait, s :: rest =>
    if dmaPresent P n ∧ !d.frozen (.dma n) then
      let d := d.updDma n fun k => { k with bound := some s, list := rest, done := 0, cur := if k.chain then k.nextAt else 0 }
      if k.chain then d.dmaToFetch n else d.dmaBegin P n (d.regWords n)
    else d
  | _, _ => d

/-- A line for which a channel has the stream, or the cascade window (64), open. -/
def Dev.openedBy (d : Dev) (k : Nat) (n : DmaId) : Bool := match d.kl.opened.lookup k with | some o => o.chan == n | none => false

/-- The end of a channel's bound line closes the cascade window's line. -/
def Dev.endsCascade (d : Dev) (n : DmaId) (w : Vector Word 7) : Bool := d.openedBy 64 n || (bit w[4] 12 && inCascade w[2].toNat)

/-- The end of a channel's bound line closes the line of the channel's stream. -/
def Dev.endsStream (d : Dev) (n : DmaId) (w : Vector Word 7) (t : Fin 64) : Bool := d.openedBy t.val n || (bit w[4] 12 && !inCascade w[2].toNat)

/-- The transfer in hand is the last of its bound line (09 R212, R213). -/
def Dev.lineLast (d : Dev) (n : DmaId) (w : Vector Word 7) : Bool := d.paced n && (!(d.dma[n]).chain || bit w[4] 13)

/-- The end of the bound line finds room at the framer, which it waits for (10 R240). -/
def Dev.endRoom (d : Dev) (n : DmaId) (w : Vector Word 7) : Bool :=
  let k := d.dma[n]
  !d.lineLast n w || k.bound.isNone || k.shut == k.bound ||
    ((!d.endsCascade n w || d.closeRoom 64 n) &&
      match d.chanStream n with
      | some t => !d.endsStream n w t || d.closeRoom t.val n
      | none => true)

/-- The port at which a channel now presents a request or has a burst in progress (09 R207, R210, R215): for its descriptor, its tail or its w7; for source bytes; for whole destination beats; egress beats wait at the framer. -/
def Dev.dmaPort (P : Part) (d : Dev) (n : DmaId) : Option Port :=
  let k := d.dma[n]
  let at_ := fun a => portOf (regionOf P a)
  if d.frozen (.dma n) || !dmaPresent P n then none
  else match k.st, k.desc with
    | .fetch, _ => if (d.fetchBar P n).isSome then none else some (at_ k.nextAt.toNat)
    | .tailWait, _ => if k.reread then some (at_ k.cur.toNat) else none
    | .run, some w =>
      let x := d.xferOf n w
      if 0 < k.burst then some (at_ (x.dstAt k.done))
      else if x.size ≤ k.done then (if k.chain && d.endRoom n w then some (at_ k.cur.toNat) else none)
      else if !k.writesNext P x then some (at_ ((k.chunk P x).2.headD x.src))
      else if d.framed P n x k.done then none
      else some (at_ (x.dstAt k.done))
    | _, _ => none

/-- ECC words of the read burst that a channel now presents. -/
def Dev.inFlight (P : Part) (d : Dev) (n : DmaId) : List Nat :=
  let k := d.dma[n]
  match k.st, k.desc with
  | .run, some w =>
    let x := d.xferOf n w
    if d.frozen (.dma n) || decide (x.size ≤ k.done) || k.writesNext P x then [] else ((k.chunk P x).2.flatMap fun b => eccWords P b 16).dedup
  | _, _ => []

/-- A read burst granted to a channel (09 R210, 01 R22, R399): whole beats are read, each once; an uncorrectable error in a word that holds a byte of the range freezes, whichever burst uses that byte, and the first read of a held slot takes it to DRAIN (09 R202). -/
def Dev.dmaRead (P : Part) (d : Dev) (n : DmaId) (w : Vector Word 7) : Dev :=
  let k := d.dma[n]
  let x := d.xferOf n w
  let (c, beats) := k.chunk P x
  let as := x.reads k.gotten c
  let words := (beats.flatMap fun b => eccWords P b 16).dedup
  let inRange := fun w => x.sources.any fun r => decide (r.1 < w + eccSize (regionOf P w) ∧ w < r.1 + r.2)
  let badAt := words.find? fun w => d.mark w == some .double && inRange w
  let d1 := (words.foldl (fun d a => d.eccRead1 P a) d).readSlots n as
  let d1 := d1.shareUsed n (portOf (regionOf P (beats.headD x.src))) beats.length
  match badAt with
  | some a => d1.dmaFreeze P n 0x09 a false
  | none =>
    let d1 := if as.any fun a => regionOf P a == .lsAbsent then d1.setAbsent else d1
    let seen := k.seen ++ beats.map fun b => (b, (List.range 16).map fun i => d.readByte P (b + i))
    let g := fun a => match seen.lookup (beatBase a) with | some bs => bs.getD (a % 16) 0 | none => d.readByte P a
    let j := k.gotten + c
    let later := ((List.range (min (x.planes * x.dw) (x.size - j))).flatMap fun i => x.beatsAt (j + i))
    let d1 := d1.updDma n fun k => { k with
      buf := k.buf ++ (List.range c).map fun i => x.byteAt g (k.gotten + i)
      seen := seen.filter fun b => later.contains b.1 }
    d1.dmaOffer P n

/-- Bytes counted as committed, with event 35 when the half is reached (09 R218). -/
def Dev.dmaCommit (d : Dev) (n : DmaId) (w : Vector Word 7) (b : Nat) : Dev :=
  let x := d.xferOf n w
  let k := d.dma[n]
  let done := k.done + b
  let half := bit w[4] 14 && !k.halfRaised && decide (2 ≤ x.size) && decide (x.size / 2 ≤ done)
  let d := d.updDma n fun k => { k with done := done, buf := k.buf.drop b, halfRaised := k.halfRaised || half }
  if half then d.raise 35 (place n.val 0 ||| (w[6] <<< 8)) else d

/-- One beat of a channel's write burst accepted by its port (09 R210, R217); the last one lets the channel present its next burst. -/
def Dev.dmaBeat (P : Part) (d : Dev) (n : DmaId) : Dev :=
  let k := d.dma[n]
  match k.desc with
  | some w =>
    match k.burst, beatsOf (d.xferOf n w).dstAt k.done k.buf with
    | left + 1, (a, bs) :: _ =>
      let d := ((d.store P a bs).dmaCommit n w bs.length).updDma n fun k => { k with burst := left }
      if left = 0 then d.dmaOffer P n else d
    | _, _ => d
  | none => d

/-- The rest of a channel's write burst is accepted. -/
def Dev.dmaFlush (P : Part) (d : Dev) (n : DmaId) : Dev := (List.range (d.dma[n]).burst).foldl (fun d _ => d.dmaBeat P n) d

/-- A cycle passes: each write burst in progress has its next beat accepted (01 R17). -/
def Dev.dmaTick (P : Part) (d : Dev) : Dev := (List.finRange 16).foldl (fun d n => d.dmaBeat P n) d

/-- A write burst granted to a channel: its first beat is accepted in this cycle, the others follow one a cycle. -/
def Dev.dmaWrite (P : Part) (d : Dev) (n : DmaId) (w : Vector Word 7) : Dev :=
  let k := d.dma[n]
  let x := d.xferOf n w
  let b := (k.writeBeats P x).length
  ((d.shareUsed n (portOf (regionOf P (x.dstAt k.done))) b).updDma n fun k => { k with burst := b }).dmaBeat P n

/-- Bytes that a channel writes in an egress window are taken by the framer for its bound line, when its stream or the cascade window has room; those of a line that it has closed are dropped (09 R214, 10 R240, 13 R307, R320). -/
def Dev.toFramer (P : Part) (d : Dev) (n : DmaId) (s : Fin 256) (a : Nat) (bs : List Byte) : Option Dev :=
  if (d.dma[n]).shut = some s then some d
  else if inCascade a then d.egressCascade n s bs
  else match d.chanStream n with
    | some t => d.egress P t n s bs
    | none => none

/-- EGRESS_BEAT_ACCEPT (10 R240): a whole beat enters staging when its stream, or the cascade window, has room. -/
def Dev.egressBeat (P : Part) (d : Dev) (n : DmaId) : Dev :=
  let k := d.dma[n]
  match k.desc, k.bound with
  | some w, some s =>
    let x := d.xferOf n w
    match k.wholeBeats x with
    | (_, bs) :: _ =>
      if k.st = .run ∧ !d.frozen (.dma n) ∧ k.burst = 0 ∧ d.framed P n x k.done then
        match d.toFramer P n s (x.rangeOf k.done) bs with
        | some d => (d.dmaCommit n w bs.length).dmaOffer P n
        | none => d
      else d
    | [] => d
  | _, _ => d

/-- The framer closes a bound line for a channel's stream or the cascade window, to which the transfer in hand or one before it wrote, unless it has closed it already (09 R214, 13 R307, R320). -/
def Dev.dmaClose (P : Part) (d : Dev) (n : DmaId) (w : Vector Word 7) (s : Fin 256) (aborted : Bool) : Dev :=
  if (d.dma[n]).shut = some s then d
  else
    let d := if d.endsCascade n w then (if aborted then (if d.openedBy 64 n then d.setOpen 64 none else d) else d.closeCascade n s) else d
    match d.chanStream n with
    | some t => if d.endsStream n w t then d.closeLine P t n s aborted else d
    | none => d

/-- Every beat of a descriptor is committed (09 R207, R212-R215, R218): w7, event 36, the end of a line, which waits for room at the framer, and the next state. -/
def Dev.completeNow (P : Part) (d : Dev) (n : DmaId) : Dev :=
  let k := d.dma[n]
  match k.desc with
  | some w =>
    if k.st = .run ∧ !d.frozen (.dma n) ∧ (d.xferOf n w).size ≤ k.done ∧ d.endRoom n w then
      let d := d.writeW7 P n
      let d := if bit w[4] 15 then d.raise 36 (place n.val 0 ||| (w[6] <<< 8)) else d
      let last := d.lineLast n w
      let d := match k.bound with
        | some s => if last then ((d.dmaClose P n w s false).clearHold P s n.val).updDma n fun k => { k with bound := none, shut := none } else d
        | none => d
      if !k.chain then (if d.paced n then d.dmaLineWait n else d.updDma n fun k => { k with st := .idle })
      else if bit w[0] 0 then d.updDma n fun k => { k with st := .tailWait, reread := k.ringLat, askAt := d.cycle }
      else
        let d := d.updDma n fun k => { k with nextAt := w[0] &&& 0xFFFFFFE0 }
        if last then d.dmaLineWait n else d.dmaToFetch n
    else d
  | none => d

/-- TAIL_WAIT_EXPIRY (09 R215). -/
def Dev.tailExpiry (d : Dev) (n : DmaId) : Dev :=
  if (d.dma[n]).st = .tailWait ∧ !d.frozen (.dma n) ∧ !(d.dma[n]).reread then d.updDma n fun k => { k with reread := true, askAt := d.cycle } else d

/-- The tail's w0 read again decides between NEXT and IDLE with event 38 (09 R215). -/
def Dev.rereadNow (P : Part) (d : Dev) (n : DmaId) : Dev :=
  let k := d.dma[n]
  if k.st = .tailWait ∧ k.reread ∧ !d.frozen (.dma n) then
    let a := k.cur.toNat
    let d1 := (d.descRead P n a 4).updDma n fun k => { k with reread := false, ringLat := false }
    if d.eccBad P a 4 then d1.dmaFreeze P n 0x09 a false
    else
      let w0 := d1.fetchLE P a 4
      if bit w0 0 then
        (d1.updDma n fun k => { k with st := .idle, tailIdle := true, atTail := true }).raise 38 (place n.val 0 ||| (fld k.cur 5 24 |> nword) <<< 8)
      else
        let d1 := d1.updDma n fun k => { k with nextAt := w0 &&& 0xFFFFFFE0 }
        if d1.paced n ∧ bit k.ctl4 13 then d1.dmaLineWait n else d1.dmaToFetch n
  else d

/-- A burst granted to a channel: of its descriptor, of its tail, of its w7, or of data. -/
def Dev.dmaBurst (P : Part) (d : Dev) (n : DmaId) : Dev :=
  let k := d.dma[n]
  match k.st, k.desc with
  | .fetch, _ => d.fetchNow P n
  | .tailWait, _ => d.rereadNow P n
  | .run, some w =>
    let x := d.xferOf n w
    if x.size ≤ k.done then d.completeNow P n else if k.writesNext P x then d.dmaWrite P n w else d.dmaRead P n w
  | _, _ => d

/-- A line abandoned (09 R217): its hold bit clears, its stream's line ends aborted and the next gap grows by one, and event 37 tells it. -/
def Dev.dmaAbandon1 (P : Part) (n : DmaId) (d : Dev) (s : Fin 256) : Dev :=
  let w := ((d.dma[n]).desc).getD (d.regWords n)
  let written := (d.dma[n]).shut == some s || match d.chanStream n with
    | some t => d.endsStream n w t
    | none => false
  let d := d.dmaClose P n w s true
  let d := match d.chanStream n with
    | some t =>
      let g := if written then 0 else tabGet 0 (d.ls.slots[s]).hdr.gaps t.val
      d.updStream t fun x =>
        let g := min g x.gapOut.toNat
        { x with gapAdd := gapSum (gapSum x.gapAdd 1) (BitVec.ofNat 16 g), gapOut := x.gapOut - BitVec.ofNat 16 g }
    | none => d
  (d.clearHold P s n.val).dmaErr n 3

/-- The channel enters IDLE and abandons its bound line and its list (09 R217). -/
def Dev.dmaAbandon (P : Part) (d : Dev) (n : DmaId) : Dev :=
  let k := d.dma[n]
  let ls := k.bound.toList ++ k.list
  let d := ls.foldl (fun d s => d.dmaAbandon1 P n s) d
  d.updDma n fun k => { k with
    st := .idle, cut := true, bound := none, shut := none, list := [], buf := [], seen := [], flight := [], burst := 0, ringLat := false, reread := false, goClear := false, atTail := false
    abandon := k.abandon || !ls.isEmpty }

/-- DMA_CHn_CMD.ABORT (09 R217). -/
def Dev.dmaAbort (P : Part) (d : Dev) (n : DmaId) : Dev := (d.dmaStop P n 1).dmaAbandon P n

/-- A write of GO = 0 (09 R213). -/
def Dev.dmaGoClear (d : Dev) (n : DmaId) : Dev :=
  let d := d.setReg (dmaOff n 0) (putBit (d.dmaReg n 0) 0 false)
  let k := d.dma[n]
  if k.chain ∨ !d.paced n ∨ k.st = .idle then d
  else if k.st = .lineWait then d.updDma n fun k => { k with st := .idle } else d.updDma n fun k => { k with goClear := true }

end Sys2Proof.Machine
end

