-- ==== Sys2Proof/Machine/Contexts.lean ====
section
/-!
DEFINITION. Contexts under command: instruction boundaries, start, stop, reset, privilege and thaw (03 R65, R71, R82-R84, 12 R280, R285).
-/
namespace Sys2Proof.Machine

/-- The context has no instruction between issue and completion. -/
def Ctx.atBoundary (x : Ctx) : Bool := x.load.isNone && x.held.isNone

/-- A context that stands READY becomes issuable, so its sequencer's clock runs (14 R322). -/
def Dev.nowIssuable (P : Part) (d : Dev) (c : CtxId) : Dev := if (d.ctx[c]).awake then d.ungate P (sequencerOf c) else d

/-- Step 2 to 4 of a CTX RESET (03 R83): when the store buffer is empty the context's state is cleared. -/
def Dev.finishReset (P : Part) (d : Dev) (c : CtxId) : Dev :=
  if (d.ctx[c]).resetting ∧ (d.ctx[c]).sbuf = [] then
    Dev.nowIssuable P (d.updCtx c fun x => { x with
      g := Vector.replicate 16 0, z := false, n := false, c := false, v := false, abs := false, pc := x.entry
      emask := 0, queue := [], wrec := Vector.replicate 4 0, wake := none, cold := false, firstDue := false, fetched := false, resetting := false
      issuableSince := d.cycle }) c
  else d

/-- The oldest store of a context's buffer accepted by its target (03 R85). -/
def Dev.drainOne (P : Part) (d : Dev) (c : CtxId) : Dev :=
  match (d.ctx[c]).sbuf with
  | [] => d
  | e :: r =>
    let full := 8 ≤ (d.ctx[c]).sbuf.length
    let d := ((d.store P e.addr.toNat (lowBytes e.data e.size)).updCtx c fun x => { x with sbuf := r, sbAt := d.cycle }).finishReset P c
    if full then (d.updCtx c fun x => { x with issuableSince := d.cycle }).nowIssuable P c else d

/-- So many stores of a context drained in order. -/
def Dev.drainN (P : Part) (c : CtxId) : Nat → Dev → Dev
  | 0, d => d
  | n + 1, d => Dev.drainN P c n (d.drainOne P c)

/-- Every store buffer drained (14 R324). -/
def Dev.drainAll (P : Part) (d : Dev) : Dev := (List.finRange 64).foldl (fun d c => Dev.drainN P c (d.ctx[c]).sbuf.length d) d

/-- A CTX RESET at the target's instruction boundary (03 R83). -/
def Dev.resetNow (P : Part) (d : Dev) (c : CtxId) : Dev :=
  (d.setRun P c fun x => { x with run := .stopped, urgent := 0, resetting := true }).finishReset P c

/-- The context moves to STOPPED (03 R65, R84); its urgency ends (R68). -/
def Dev.ctxHalt (P : Part) (d : Dev) (c : CtxId) : Dev :=
  d.setRun P c fun x => { x with run := .stopped, urgent := 0, firstDue := false }

/-- The record of a WDT-A service write that arrived before the window (12 R280): WHERE and INSN are those of its STW. -/
def Dev.ownerRecord (P : Part) (d : Dev) (pc insn : Word) : Dev :=
  let k := d.ctx[(0 : CtxId)]
  d.record P 0 6 true pc { addr := 0x080B0008, size := 4, write := true } k.priv insn (stWord k)

/-- The freeze of context 0 that such a write brings about (12 R280). -/
def Dev.ownerFreeze (P : Part) (d : Dev) : Dev := d.setRun P 0 fun k => { k with frozen := true, lastCause := 6, urgent := 0, cold := true }

/-- The Tumbler's FREEZE (12 R285): FROZEN alone, with no record. -/
def Dev.tumblerFreeze (P : Part) (d : Dev) (c : CtxId) : Dev := d.setRun P c fun k => { k with frozen := true, urgent := 0, cold := true }

/-- What waited for an instruction boundary of the context takes effect. -/
def Dev.boundary (P : Part) (d : Dev) (c : CtxId) : Dev :=
  let b := (d.ctx[c]).due
  let d := d.updCtx c fun x => { x with due := {} }
  let d := match b.priv with
    | some s => d.updCtx c fun x => { x with priv := s }
    | none => d
  let d := if b.owner then d.ownerFreeze P else d
  let d := if b.freeze then d.tumblerFreeze P c else d
  let d := if b.stop then d.ctxHalt P c else d
  if b.reset then d.resetNow P c else d

/-- A change that takes effect at the context's next instruction boundary: at once when it stands at one. -/
def Dev.atNextBoundary (P : Part) (d : Dev) (c : CtxId) (f : Boundary → Boundary) : Dev :=
  let d := d.updCtx c fun x => { x with due := f x.due }
  if (d.ctx[c]).atBoundary then d.boundary P c else d

/-- CTX START (03 R84): no effect on any context after a RECOVERY boot (R64). R83 has a START during a CTX RESET take the context to READY; one that comes before the reset's first boundary, while the context is not yet STOPPED, has no effect (DESIGN CHOICE, log 82). -/
def Dev.ctxStart (P : Part) (d : Dev) (c : CtxId) : Dev :=
  if (d.ctx[c]).run = .stopped ∧ d.sys.outcome ≠ 3 then
    d.setRun P c fun x => { x with run := .ready, urgent := 0, firstDue := false, fetched := false, issuableSince := d.cycle }
  else d

/-- CTX STOP (03 R83, R84). -/
def Dev.ctxStop (P : Part) (d : Dev) (c : CtxId) : Dev :=
  if (d.ctx[c]).run = .stopped ∨ (d.ctx[c]).resetting then d else d.atNextBoundary P c fun b => { b with stop := true }

/-- CTX RESET (03 R83). -/
def Dev.ctxReset (P : Part) (d : Dev) (c : CtxId) : Dev := d.atNextBoundary P c fun b => { b with reset := true }

/-- CTX set U and set S (03 R71). -/
def Dev.ctxPriv (P : Part) (d : Dev) (c : CtxId) (s : Bool) : Dev := d.atNextBoundary P c fun b => { b with priv := some s }

/-- CTX operation op on a context: 1 START, 2 STOP, 3 RESET, 4 set U, 5 set S; other codes have no effect (03 R91). -/
def Dev.ctxOp (P : Part) (d : Dev) (op : Nat) (c : CtxId) : Dev :=
  match op with
  | 1 => d.ctxStart P c
  | 2 => d.ctxStop P c
  | 3 => d.ctxReset P c
  | 4 => d.ctxPriv P c false
  | 5 => d.ctxPriv P c true
  | _ => d

/-- A write of CTX_CMD (03 R91). -/
def Dev.ctxCmd (P : Part) (d : Dev) (v : Word) : Dev :=
  let n := fld v 0 8
  if h : n < 64 then
    if n < P.contexts then d.ctxOp P (fld v 8 4) ⟨n, h⟩ else d.setAbsent
  else d.setAbsent

/-- A master number that names an absent context or DMA channel (03 R82). -/
def masterAbsent (P : Part) (n : Nat) : Bool :=
  (decide (n < 64) && decide (P.contexts ≤ n)) || (decide (64 ≤ n ∧ n < 80) && decide (P.dmach ≤ n - 64))

/-- THAW of a master that may freeze (03 R82, 09 R217): whether it was frozen. -/
def Dev.thawMaster (P : Part) (d : Dev) (m : Master) : Bool × Dev :=
  if d.frozen m then
    (true, match m with
      | .ctx c => d.setRun P c fun x => { x with frozen := false, fetched := false, issuableSince := d.cycle }
      | .dma n => ({ d with mfrozen := d.mfrozen &&& ~~~(1#21 <<< n.val) }).dmaAbandon P n
      | m => { d with mfrozen := d.mfrozen &&& ~~~(1#21 <<< (mnum m - 64)) })
  else (false, d)

/-- THAW of a master number: whether a master was thawed. -/
def Dev.thawNum (P : Part) (d : Dev) (n : Nat) : Bool × Dev :=
  if masterAbsent P n then (false, d)
  else match masterOf n with
    | some m => d.thawMaster P m
    | none => (false, d)

/-- A master whose write of CTX_THAW thaws: a context, which is an S context there, and the management master (03 R70, R82). -/
def mayThaw : Master → Bool
  | .ctx _ => true
  | .mgmt => true
  | _ => false

/-- A write of CTX_THAW by a master (03 R82). -/
def Dev.ctxThaw (P : Part) (d : Dev) (m : Master) (v : Word) : Dev :=
  if masterAbsent P (fld v 0 8) then d.setAbsent else if mayThaw m then (d.thawNum P (fld v 0 8)).2 else d

/-- The device is in RECOVERY, where no context starts (14 R338). -/
def Dev.recovery (d : Dev) : Bool := d.sys.outcome == 3

end Sys2Proof.Machine
end

