-- ==== Sys2Proof/Machine/Reset.lean ====
section
/-!
DEFINITION. Resets: the watchdog evidence block, what a reset keeps, and the unit or sector an interrupted NVM operation leaves torn (12 R290, 14 R330, R331, R343).
-/
namespace Sys2Proof.Machine

/-- The evidence block in AON (12 R290). -/
def evidenceAt : Nat := 0x3000800

/-- The evidence block's words from w0 to w2, with CHECK and zeros (12 R290). -/
def evidenceWords (w0 w1 w2 : Word) : List Word := [w0, w1, w2, ~~~w0, 0, 0, 0, 0]

/-- The cause counts in WDRST (12 R290). -/
def isWdtCause (code : Nat) : Bool := decide (3 ≤ code ∧ code ≤ 5)

/-- The evidence block written before a reset with a cause (12 R290, 14 R330). -/
def Dev.writeEvidence (P : Part) (d : Dev) (code : Nat) : Dev :=
  let n := fld (d.word evidenceAt) 0 16
  let n := if isWdtCause code then min 0xFFFF (n + 1) else n
  let w1 := if code = 3 then (d.ctx[(0 : CtxId)]).pc else 0
  let w2 := if code = 4 then d.wdt.bMissed.setWidth 32 else 0
  d.store P evidenceAt ((evidenceWords (place n 0 ||| place code 16) w1 w2).flatMap wordBytes)

/-- Bytes of an NVM range replaced by undefined ones (14 R343, log 15). -/
def tear (free : Nat) (m : Mem) (a : Nat) : Nat → Mem
  | 0 => m
  | n + 1 => tear free (memPut m a (Config.tornByte free a)) (a + 1) n

/-- An NVM operation cut short leaves its unit or sector undefined, possibly with uncorrectable ECC (14 R343). -/
def Dev.tornNvm (d : Dev) : Dev :=
  match d.pwr.nvmOp with
  | none => d
  | some op =>
    let (a, n) := match op with
      | .program u _ => (0x4000000 + 16 * u, 16)
      | .erase s => (0x4000000 + 4096 * s, 4096)
    let (f, d) := d.takeFree
    let d := { d with mem := tear f d.mem a n }
    (List.range (n / 16)).foldl (fun d i => d.setMark (a + 16 * i) (if Config.tornEcc f (a + 16 * i) then some .double else none)) d

/-- A region whose contents a reset keeps; POWER_ON keeps NVM alone (14 R331). -/
def resetKeeps (P : Part) (powerOn : Bool) (a : Nat) : Bool :=
  match regionOf P a with
  | .nvm => true
  | .aon => !powerOn
  | _ => false

/-- The state a reset leaves (14 R331): every register at its reset value, with the WDT-B evidence, the fault-ring indices, AON and NVM kept; POWER_ON keeps only NVM. Levels of input balls and of the supplies, and the model's own counters and record of outputs go on; the TAP selects IDCODE (17 R393). -/
def Dev.resetTo (P : Part) (d : Dev) (code : Nat) : Dev :=
  let po := decide (code = 1)
  let fresh : Dev := {}
  { fresh with
    cycle := d.cycle
    free := d.free
    out := d.out
    pins := d.pins
    mem := d.mem.atReset po
    ecc := d.ecc.filter fun c => resetKeeps P po c.1
    sys := if po then {} else { frW := d.sys.frW, frSeq := d.sys.frSeq, frR := d.sys.frR, frPend := d.sys.frPend, frOver := d.sys.frOver }
    wdt := if po then {} else { bMissed := d.wdt.bMissed, evPc := d.wdt.evPc, evTs := d.wdt.evTs, evNone := d.wdt.evNone }
    pwr := { rstCause := BitVec.ofNat 8 code, supOut := d.pwr.supOut } }

/-- A reset with a cause (14 R330): while the device is already held in reset only POWER_ON changes it (DEDUCED, log 21). -/
def Dev.resetDev (P : Part) (d : Dev) (code : Nat) : Dev :=
  if d.phase = .inReset then (if code = 1 then d.resetTo P 1 else d)
  else if code = 1 then d.tornNvm.resetTo P 1
  else (d.tornNvm.writeEvidence P code).resetTo P code

end Sys2Proof.Machine
end

