-- ==== Sys2Proof/Machine/Wdt.lean ====
section
/-!
DEFINITION. The watchdogs and the clock monitor: WDT-A and its service, the Tumbler WDT-B with its evidence and actions, and the slow clock's monitor (12 R276-R294).
-/
namespace Sys2Proof.Machine

/-! ### WDT-A -/

/-- WDT_A_CFG: option fuses of fuse word 8 (12 R276, 16 R366). -/
def Part.wdtCfg (P : Part) : Word := P.fuse 8

/-- WDT-A starts in reset (12 R276). -/
def Part.autostart (P : Part) : Bool := bit P.wdtCfg 0

/-- The WDT-A period in CK_AON ticks (12 R276). -/
def Part.aPeriod (P : Part) : Nat := 2 ^ (10 + fld P.wdtCfg 1 3)

/-- The count at which the service window opens (12 R277). -/
def Part.aWindow (P : Part) : Nat := P.aPeriod / 4 * fld P.wdtCfg 4 2

/-- A WDT-A period begins: at start and at each service (12 R277, R281). -/
def Part.aBegin (P : Part) (w : Wdt) : Wdt :=
  { w with aCount := 0, aOpen := P.aWindow == 0, aEarly := false, seqArm := false }

/-- WDT-A starts; nothing stops it before the next reset (12 R276). -/
def Dev.wdtAStart (P : Part) (d : Dev) : Dev :=
  if d.wdt.aRun then d else d.updWdt fun w => { P.aBegin w with aRun := true }

/-- WDTA_WINDOW_OPEN (12 R277). -/
def Dev.wdtaOpen (P : Part) (d : Dev) : Dev :=
  if d.wdt.aRun then d.updWdt fun w => { w with aCount := max w.aCount P.aWindow, aOpen := true } else d

/-- WDTA_EARLY (12 R278). -/
def Dev.wdtaEarly (P : Part) (d : Dev) : Dev :=
  if d.wdt.aRun ∧ !d.wdt.aEarly then
    (d.updWdt fun w => { w with aCount := max w.aCount (P.aPeriod / 8 * 7), aOpen := true, aEarly := true }).raise 48 0
  else d

/-- WDTA_EXPIRY (12 R278). -/
def Dev.wdtaExpiry (P : Part) (d : Dev) : Dev := if d.wdt.aRun then d.resetDev P 3 else d

/-- A WDT_A_SVC write that the MMIO port has accepted from context 0 crosses to CK_AON with the PC and word of its store; it is ignored while WDT-A does not run (12 R279, R280). -/
def Dev.svcSend (d : Dev) (v : Byte) (pc insn : Word) : Dev :=
  if d.wdt.aRun then d.updWdt fun w => { w with svc := w.svc ++ [(v, pc, insn)] } else d

/-- WDTA_SERVICE_ARRIVAL (12 R280, R281). -/
def Dev.svcArrive (P : Part) (d : Dev) : Dev :=
  match d.wdt.svc with
  | [] => d
  | (v, pc, insn) :: rest =>
    let d := d.updWdt fun w => { w with svc := rest }
    if !d.wdt.aOpen then
      ((d.updWdt fun w => { w with seqArm := false }).ownerRecord P pc insn).atNextBoundary P 0 fun b => { b with owner := true }
    else if v = 0xA5 ∧ !d.wdt.seqArm then d.updWdt fun w => { w with seqArm := true }
    else if v = 0x5A ∧ d.wdt.seqArm then d.updWdt P.aBegin
    else d.updWdt fun w => { w with seqArm := false, seqErr := true }

/-- WDT_A_STAT. -/
def Wdt.aStat (w : Wdt) : Word := flag w.aRun 0 ||| flag w.aOpen 1 ||| flag w.aEarly 2 ||| flag w.seqArm 3 ||| flag w.seqErr 4

/-! ### WDT-B -/

/-- WDT_B_CTL without EN and LOCK: CLKSEL and ACTION. -/
def Dev.wdtBCtl (d : Dev) : Word := d.reg 0xB0100

/-- WDT_B_CTL as it reads. -/
def Dev.wdtBCtlShown (d : Dev) : Word := flag d.wdt.bRun 0 ||| (d.wdtBCtl &&& 0xE) ||| flag d.wdt.bLock 4

/-- WDT_B_SLOTs. -/
def Dev.slotReg (d : Dev) (s : Fin 8) : Word := d.reg (0xB0120 + 4 * s.val)

/-- The slot takes part: EN and BOUND (12 R283). -/
def Dev.slotIn (d : Dev) (s : Fin 8) : Bool := bit (d.slotReg s) 7 && bit (d.slotReg s) 6

/-- The context a slot names. -/
def Dev.slotCtx (d : Dev) (s : Fin 8) : CtxId := ⟨fld (d.slotReg s) 0 6 % 64, Nat.mod_lt _ (by decide)⟩

/-- The period in ticks of the selected clock, limited to its range (12 R282). -/
def Dev.bPeriod (d : Dev) : Nat :=
  let n := fld (d.reg 0xB0104) 0 27
  if bit d.wdtBCtl 1 then clampN 1 327680 n else clampN 82 81920000 n
where
  /-- A number limited to a range. -/
  clampN (lo hi n : Nat) : Nat := max lo (min hi n)

/-- WDT-B starts (12 R282). -/
def Dev.wdtBStart (d : Dev) : Dev :=
  if d.wdt.bRun then d else d.updWdt fun w => { w with bRun := true, bCount := 0, bSeen := 0, keys := [], lastKey := Vector.replicate 8 none }

/-- The key sequence of R287 is whole and no older than 256 cycles. -/
def Dev.keyDone (d : Dev) : Bool :=
  d.wdt.bKeyOk && (match d.wdt.bKeyAt with | some t => decide (d.cycle ≤ t + 256) | none => false)

/-- A write of WDT_B_CTL (12 R287, R294): EN = 1 starts, EN = 0 needs the key sequence, LOCK is set by 1. -/
def Dev.wdtBCtlWrite (P : Part) (d : Dev) (v : Word) : Dev :=
  let locked := d.wdt.bLock
  let d := (d.writeReg P 0xB0100 v).updWdt fun w => { w with bLock := w.bLock || bit v 4 }
  if bit v 0 then d.wdtBStart
  else if !d.wdt.bRun then d
  else
    let ok := d.keyDone && !locked
    if ok then d.updWdt fun w => { w with bRun := false, bKeyAt := none, bKeyOk := false }
    else d.updWdt fun w => { w with bKeyFail := true }

/-- A write of WDT_B_KEY (12 R287): 0x3C, then 0xC3; a write that breaks the order sets KEYFAIL. -/
def Dev.wdtBKey (d : Dev) (v : Word) : Dev :=
  let b := fld v 0 8
  let w := d.wdt
  if b = 0x3C ∧ (w.bKeyAt.isNone ∨ w.bKeyOk) then d.updWdt fun w => { w with bKeyAt := some d.cycle, bKeyOk := false }
  else if b = 0xC3 ∧ w.bKeyAt.isSome ∧ !w.bKeyOk then d.updWdt fun w => { w with bKeyOk := true }
  else d.updWdt fun w => { w with bKeyAt := if b = 0x3C then some d.cycle else none, bKeyOk := false, bKeyFail := true }

/-- A write of WDT_B_SLOTs; a context beyond the variant's leaves CTX and sets ABSENT (12 R294). -/
def Dev.wdtSlotWrite (P : Part) (d : Dev) (s : Fin 8) (v : Word) : Dev :=
  let o := 0xB0120 + 4 * s.val
  if P.contexts ≤ fld v 0 6 ∧ regMask P d o ≠ 0 then (d.writeReg P o (putFld v 0 6 (fld (d.slotReg s) 0 6))).setAbsent
  else d.writeReg P o v

/-- KEY s (04 R112, R113): none when it is a violation, otherwise Z and the device. -/
def Dev.keySend (d : Dev) (c : CtxId) (s : Fin 8) : Option (Bool × Dev) :=
  let r := d.slotReg s
  if bit r 6 ∧ d.slotCtx s ≠ c then none
  else if !d.wdt.bRun ∨ !d.slotIn s then some (false, d)
  else some (true, d.updWdt fun w => { w with keys := w.keys ++ [s], lastKey := w.lastKey.set s (some d.stb) })

/-- KEY_CHECKIN (12 R283): the oldest check-in is counted. -/
def Dev.keyArrive (d : Dev) : Dev :=
  match d.wdt.keys with
  | [] => d
  | s :: rest => d.updWdt fun w => { w with keys := rest, bSeen := if w.bRun && d.slotIn s then w.bSeen ||| (1#8 <<< s.val) else w.bSeen }

/-- Slots that take part and have not been seen (12 R284). -/
def Dev.missedNow (d : Dev) : Byte :=
  (List.finRange 8).foldl (fun m s => if d.slotIn s && !d.wdt.bSeen.getLsbD s.val then m ||| (1#8 <<< s.val) else m) 0

/-- WDTB_PERIOD_END (12 R284, R293). -/
def Dev.wdtbPeriod (d : Dev) : Dev :=
  if d.wdt.bRun ∧ !d.wdt.bHold then
    let m := d.missedNow
    d.updWdt fun w => { w with
      bCount := 0, bSeen := 0
      bMissed := if m = 0 then w.bMissed else m
      captures := if m = 0 then w.captures else w.captures ++ [m] }
  else d

/-- Evidence of a missed slot (12 R284). -/
def Dev.slotEvidence (d : Dev) (s : Fin 8) : Dev :=
  d.updWdt fun w => { w with
    evPc := w.evPc.set s (d.ctx[d.slotCtx s]).pc
    evTs := w.evTs.set s ((w.lastKey[s]).getD 0)
    evNone := w.evNone.set s (w.lastKey[s]).isNone }

/-- WDTB_EVIDENCE_CAPTURE (12 R284, R285). -/
def Dev.wdtbCapture (P : Part) (d : Dev) : Dev :=
  match d.wdt.captures with
  | [] => d
  | m :: rest =>
    let d := d.updWdt fun w => { w with captures := rest }
    let missed := (List.finRange 8).filter fun s => m.getLsbD s.val
    let d := missed.foldl (fun d s => d.slotEvidence s) d
    match fld d.wdtBCtl 2 2 with
    | 0 => d.raise 49 (m.setWidth 32)
    | 1 =>
      (missed.foldl (fun d s =>
        let c := d.slotCtx s
        if (d.ctx[c]).frozen then d
        else if (d.ctx[c]).run = .ready then d.atNextBoundary P c fun b => { b with freeze := true }
        else d.tumblerFreeze P c) d).raise 49 (m.setWidth 32)
    | _ => d.resetDev P 4

/-- WDT_B_STAT. -/
def Wdt.bStat (w : Wdt) : Word :=
  flag w.bRun 0 ||| flag w.bKeyFail 1 ||| flag w.bHold 2 ||| (w.bMissed.setWidth 32 <<< 8) ||| (w.bSeen.setWidth 32 <<< 16)

/-- WDT_B_EVIDs_TSHI. -/
def Wdt.evHi (w : Wdt) (s : Fin 8) : Word := ((w.evTs[s]).extractLsb' 32 16).setWidth 32 ||| flag w.evNone[s] 16

/-- DBG_WDT_HOLD (12 R293): written by master 83 during a session that the debug fuse permits. -/
def Dev.dbgHold (P : Part) (d : Dev) (hold : Bool) : Dev :=
  if d.wdt.attached ∧ !P.dbgdis then d.updWdt fun w => { w with bHold := hold } else d

/-- DEBUG_SESSION (12 R293): the hold clears when the session ends. -/
def Dev.debugSession (P : Part) (d : Dev) (opened : Bool) : Dev :=
  d.updWdt fun w => { w with attached := opened && !P.dbgdis, bHold := w.bHold && opened }

/-! ### The clock monitor -/

/-- LFXO_START (12 "The clock monitor"): CK_AON runs from the LFXO; after a failure it stays on the LFRC until a reset (R288). -/
def Dev.lfxoStart (d : Dev) : Dev := if d.wdt.lfxoFail then d else d.updWdt fun w => { w with onLfrc := false }

/-- LFXO_FAIL (12 R288). -/
def Dev.lfxoFail (d : Dev) : Dev :=
  if d.wdt.onLfrc then d else (d.updWdt fun w => { w with lfxoFail := true, onLfrc := true }).raise 50 1

/-- LFRC_FAIL (12 R289). -/
def Dev.lfrcFail (P : Part) (d : Dev) : Dev := if d.wdt.onLfrc then d.resetDev P 5 else d

/-- WDT_CM_STAT. -/
def Wdt.cmStat (w : Wdt) : Word := flag w.lfxoFail 0 ||| flag w.onLfrc 1

/-! ### Counts -/

/-- The largest WDT-A count that CK_AON ticks reach: one short of the early mark, and after it one short of expiry, since each of the two is a command (log 5). -/
def Part.aLimit (P : Part) (w : Wdt) : Nat := if w.aEarly then P.aPeriod - 1 else P.aPeriod / 8 * 7 - 1

/-- One tick of CK_AON (12 R277, R282): the watchdog counts rise, and stop one short of the mark their own command stands for (log 5); the window opens when the count reaches it; edges after S_entry are counted (01 R30). -/
def Dev.aonTick (P : Part) (d : Dev) : Dev :=
  (d.updPwr fun p => { p with aonEdges := p.aonEdges + 1 }).updWdt fun w => { w with
    aCount := if w.aRun then min (P.aLimit w) (w.aCount + 1) else w.aCount
    aOpen := w.aOpen || (w.aRun && decide (P.aWindow ≤ min (P.aLimit w) (w.aCount + 1)))
    bCount := if w.bRun && bit d.wdtBCtl 1 && !w.bHold then min (d.bPeriod - 1) (w.bCount + 1) else w.bCount }

/-- Ticks of CK_HK on WDT-B's count. -/
def Dev.hkTick (d : Dev) : Dev :=
  d.updWdt fun w => { w with bCount := if w.bRun && !bit d.wdtBCtl 1 && !w.bHold then min (d.bPeriod - 1) (w.bCount + 1) else w.bCount }

/-- The slow clocks over one CK_CORE cycle, at their nominal 32.768 kHz and 8.192 MHz against 400 MHz (12 R288, log 5). -/
def Dev.slowTick (P : Part) (d : Dev) : Dev :=
  let a := d.wdt.aonAcc + 32768
  let h := d.wdt.hkAcc + 8192000
  let d := d.updWdt fun w => { w with aonAcc := a % 400000000, hkAcc := h % 400000000 }
  let d := if 400000000 ≤ a then d.aonTick P else d
  if 400000000 ≤ h then d.hkTick else d

end Sys2Proof.Machine
end

