-- ==== Sys2Proof/Machine/Events.lean ====
section
/-!
DEFINITION. The event fabric: issue and delivery of records, the wake ports, INT_N, timers and software events (05 R117-R134).
-/
namespace Sys2Proof.Machine

/-! ### Issue and delivery -/

/-- The flags of a record at a destination (05 R120). -/
def Dev.recFlags (d : Dev) (n : Fin 64) (dest : Nat) : Half :=
  let lost := tabGet 0 d.ev.lost (destKey n dest)
  BitVec.ofNat 16 ((if lost = 0 then 0 else 1 + 256 * min 255 lost) + (if d.ev.resync.contains dest then 2 else 0) +
    (if d.ev.fresh.contains (destKey n dest) then 4 else 0))

/-- The flags that a delivered record has carried are no longer owed. -/
def Dev.flagsPaid (d : Dev) (n : Fin 64) (dest : Nat) : Dev :=
  d.updEv fun e => { e with
    lost := tabSet 0 e.lost (destKey n dest) 0
    resync := e.resync.filter fun k => k != dest
    fresh := e.fresh.filter fun k => k != destKey n dest }

/-- A pending record as it arrives at a destination. -/
def Dev.recAt (d : Dev) (n : Fin 64) (p : Pend) (dest : Nat) : EvRec := ⟨n, p.seq, p.detail, p.ts, d.recFlags n dest⟩

/-- Delivery to a context (05 R122): to the wake latch of one that waits for it, else to its queue, else it is lost. Contexts woken in one cycle by different records stand in the order of the issues, lower contexts first for one record (DESIGN CHOICE, log 113). -/
def Dev.deliverCtx (d : Dev) (n : Fin 64) (p : Pend) (c : CtxId) : Dev :=
  let x := d.ctx[c]
  let r := d.recAt n p c.val
  if x.run = .waiting ∧ x.wake.isNone ∧ x.emask.getLsbD n.val then
    ((d.updCtx c fun x => { x with wake := some (r, d.ev.wakes), cold := x.frozen }).flagsPaid n c.val).updEv fun e => { e with wakes := e.wakes + 1 }
  else if x.queue.length < 8 then (d.updCtx c fun x => { x with queue := x.queue ++ [r] }).flagsPaid n c.val
  else d.lose n c.val

/-- Delivery to the host event queue (05 R123). -/
def Dev.deliverHost (d : Dev) (n : Fin 64) (p : Pend) : Dev :=
  if bit (d.reg 0x20000) 0 ∧ d.ev.hq.length < 256 then
    (d.updEv fun e => { e with hq := e.hq ++ [d.recAt n p 64] }).flagsPaid n 64
  else d.lose n 64

/-- The bit of a source set in EVT_INTPEND, noted for its cycle (05 R124). -/
def Dev.intSet (d : Dev) (n : Fin 64) : Dev :=
  d.updEv fun e => { e with
    intPend := e.intPend ||| (1#64 <<< n.val)
    intNew := (if e.intAt = d.cycle then e.intNew else 0) ||| (1#64 <<< n.val)
    intAt := d.cycle }

/-- A record issued (05 R121, R124, R127): delivered to every destination of the routing at the start of the cycle, with the hard-wired action of event 19. -/
def Dev.issueRec (P : Part) (d : Dev) (n : Fin 64) (p : Pend) : Dev :=
  let d := d.updEv fun e => { e with src := upd e.src n fun s => { s with pend := s.pend.tail } }
  let d := p.gap.foldl (fun d k => d.owe n k 1) d
  let d := (List.finRange 64).foldl (fun d c => if d.routedNow n c.val then d.deliverCtx n p c else d) d
  let d := if d.routedNow n 64 then d.deliverHost n p else d
  let d := if bit (d.srcCfgNow n) 1 then d.intSet n else d
  if n = 19 then d.stallFreeze P else d

/-- The oldest pending record, of the lower source on equal age (05 R118). -/
def Dev.oldest (d : Dev) : Option (Fin 64 × Pend) :=
  (List.finRange 64).foldl (fun b n =>
    match (d.ev.src[n]).pend, b with
    | p :: _, some (m, q) => if p.age < q.age then some (n, p) else some (m, q)
    | p :: _, none => some (n, p)
    | [], b => b) none

/-- Up to so many records issued. -/
def Dev.issueN (P : Part) : Nat → Dev → Dev
  | 0, d => d
  | k + 1, d => match d.oldest with
    | some (n, p) => Dev.issueN P k (d.issueRec P n p)
    | none => d

/-- EVENT_RECORD_ISSUE: the fabric's issues of one CK_CORE cycle (05 R118). -/
def Dev.recordIssue (P : Part) (d : Dev) : Dev := Dev.issueN P 4 d

/-! ### Wakes -/

/-- w0 to w3 of a record (05 R119). -/
def recWords (r : EvRec) : Vector Word 4 :=
  #v[r.seq.setWidth 32 ||| place r.src.val 24, r.detail, r.ts.extractLsb' 0 32,
    (r.ts.extractLsb' 32 16).setWidth 32 ||| (r.flags.setWidth 32 <<< 16)]

/-- g15 after WAIT (04 R105). -/
def recG15 (r : EvRec) : Word := place r.src.val 24 ||| (((r.flags.extractLsb' 0 8).setWidth 32) <<< 16) ||| r.seq.setWidth 32

/-- A record taken by WAIT (04 R105, R107): g14, g15, Z, the latch, and PC on the instruction after the WAIT. -/
def Ctx.takeRec (x : Ctx) (r : EvRec) : Ctx :=
  { x with g := (x.g.set 14 (r.ts.extractLsb' 0 32)).set 15 (recG15 r), z := false, wrec := recWords r, pc := x.pc + 4 }

/-- The waking context that a sequencer's wake port serves next: in order of record issue, the lower context first (05 R128). -/
def Dev.nextWake (d : Dev) (q : Fin 2) : Option (CtxId × EvRec × Nat) :=
  (List.finRange 64).foldl (fun b c =>
    if sequencerOf c = q then
      match (d.ctx[c]).wake, b with
      | some (r, k), some (c', r', k') => if k < k' then some (c, r, k) else some (c', r', k')
      | some (r, k), none => some (c, r, k)
      | none, b => b
    else b) none

/-- WAKE_PORT_SERVE (05 R128, 03 R68, R84). -/
def Dev.wakeServe (P : Part) (d : Dev) (q : Fin 2) : Dev :=
  match d.nextWake q with
  | some (c, r, _) =>
    let d := d.updCtx c fun x => { x.takeRec r with wake := none }
    let d := d.trace P c 2 (recWords r)[0] (d.ctx[c]).pc
    if (d.ctx[c]).run = .waiting then
      d.setRun P c fun x => { x with
        run := .ready, urgent := if x.frozen || x.cold then 0 else 16, firstDue := !(x.frozen || x.cold), fetched := false
        wokeAt := d.cycle, issuableSince := d.cycle }
    else (d.updCtx c fun x => { x with fetched := false, issuableSince := d.cycle }).nowIssuable P c
  | none => d

/-! ### Writes of the EVT block -/

/-- A record discarded from the host queue is lost, and so stay the losses and the ROUTED that it would have told (05 R120, R123, R125); a TB_RESYNC that it carried is not passed on to the next host record (DESIGN CHOICE, log 58). -/
def Dev.discardHost (d : Dev) (r : EvRec) : Dev :=
  ((d.lose r.src 64).owe r.src 64 (r.flags.extractLsb' 8 8).toNat).updEv fun e =>
    { e with fresh := if r.flags.getLsbD 2 && !e.fresh.contains (destKey r.src 64) then e.fresh ++ [destKey r.src 64] else e.fresh }

/-- A write of EVT_CTL (05 R123): HQEN = 0 discards the host queue, every record counting as lost. -/
def Dev.evtCtlWrite (P : Part) (d : Dev) (v : Word) : Dev :=
  let d := d.writeReg P 0x20000 v
  if bit v 0 then d
  else (d.ev.hq.foldl Dev.discardHost d).updEv fun e => { e with hq := [] }

/-- A W1C write of EVT_INTPEND_LO or _HI (05 R124): a bit set in the same cycle stays set. -/
def Dev.intpendW1c (d : Dev) (hi : Bool) (v : Word) : Dev :=
  d.updEv fun e =>
    let m : BitVec 64 := if hi then (v ++ (0 : Word) : BitVec 64) else ((0 : Word) ++ v : BitVec 64)
    { e with intPend := e.intPend &&& ~~~(m &&& ~~~(if e.intAt = d.cycle then e.intNew else 0)) }

/-- INT_N is driven low (05 R124). -/
def Dev.intLow (d : Dev) : Bool := d.ev.intPend != 0

/-- A write of EVT_SWRAISEn (05 R132), and EMIT n (04 R108), by the master of a number: the masters are the units that share SWn (R117). -/
def Dev.swRaise (d : Dev) (n : Fin 4) (v : Word) (unit : Nat) : Dev := d.assertBy unit ⟨60 + n.val, by omega⟩ v

/-- The value of a routing or CFG register kept before a write, for the rest of the cycle (05 R121). -/
def Dev.cfgKeep (d : Dev) (o : Nat) : Dev :=
  d.updEv fun e =>
    let was := if e.cfgAt = some d.cycle then e.cfgWas else []
    { e with cfgAt := some d.cycle, cfgWas := if (was.lookup o).isSome then was else was ++ [(o, d.reg o)] }

/-- A write of a routing or CFG register of a source (05 R121, 00 R6): destinations newly routed are owed ROUTED. -/
def Dev.routeWrite (P : Part) (d : Dev) (n : Fin 64) (o : Nat) (v : Word) : Dev :=
  if srcAbsent P n then d.setAbsent
  else
    let d1 := (d.cfgKeep o).writeReg P o v
    let added := (List.range 65).filter fun k => d1.routed n k && !d.routed n k
    d1.updEv fun e => { e with fresh := e.fresh ++ (added.map (destKey n)).filter fun k => !e.fresh.contains k }

/-- EVT_TMRk_CTL. -/
def tmrOff (k : Fin 4) : Nat := 0x20040 + 16 * k.val

/-- A timer's period, below 16 acting as 16 (05 R131). -/
def Dev.tmrPeriod (d : Dev) (k : Fin 4) : Word := if (d.reg (tmrOff k + 4)).toNat < 16 then 16 else d.reg (tmrOff k + 4)

/-- A write of EVT_TMRk_CTL (05 R131). -/
def Dev.tmrCtlWrite (P : Part) (d : Dev) (k : Fin 4) (v : Word) : Dev :=
  let was := bit (d.reg (tmrOff k)) 0
  let d := d.writeReg P (tmrOff k) v
  if bit v 0 ∧ !was then d.updEv fun e => { e with timer := e.timer.set k ⟨d.tmrPeriod k, 0⟩ } else d

/-- TIMER_EXPIRY (05 R131). -/
def Dev.timerExpiry (d : Dev) (k : Fin 4) : Dev :=
  if bit (d.reg (tmrOff k)) 0 then
    let t := d.ev.timer[k]
    let one := bit (d.reg (tmrOff k)) 1
    let d1 := d.updEv fun e => { e with timer := e.timer.set k ⟨if one then 0 else d.tmrPeriod k, t.expiries + 1⟩ }
    let d1 := if one then d1.setReg (tmrOff k) (putBit (d.reg (tmrOff k)) 0 false) else d1
    d1.raise ⟨56 + k.val, by omega⟩ (t.expiries + 1)
  else d

/-- The timers over one STB tick; a count stops one short of the expiry its own command stands for (log 5). -/
def Dev.tmrTick (d : Dev) : Dev :=
  (List.finRange 4).foldl (fun d k =>
    let t := d.ev.timer[k]
    if bit (d.reg (tmrOff k)) 0 ∧ 1 < t.count.toNat then d.updEv fun e => { e with timer := e.timer.set k { t with count := t.count - 1 } } else d) d

/-- EVT_HQ_STAT. -/
def Fabric.hqStat (e : Fabric) : Word := place e.hq.length 0 ||| (e.hqLost.setWidth 32 <<< 16)

/-- EVT_SRCn_SEQ. -/
def Src.seqWord (s : Src) : Word := s.seq.setWidth 32 ||| place s.pend.length 16

/-- GPI_EDGE selected by EVT_SRCn_CFG.EDGE (05 R116). -/
def Dev.gpiSelected (d : Dev) (n : Fin 8) (level : Bool) : Bool :=
  match fld (d.srcCfg ⟨23 + n.val, by omega⟩) 2 2 with
  | 0 => level
  | 1 => !level
  | 2 => true
  | _ => false

/-- An edge on a GPI pin raises its event when it is of the selected kind (05 R116). -/
def Dev.gpiRaise (d : Dev) (n : Fin 8) (level : Bool) : Dev :=
  let d1 := { d with pins := { d.pins with gpi := if level then d.pins.gpi ||| (1#8 <<< n.val) else d.pins.gpi &&& ~~~(1#8 <<< n.val) } }
  if d.gpiSelected n level then d1.raise ⟨23 + n.val, by omega⟩ (flag level 0) else d1

end Sys2Proof.Machine
end

