-- ==== Sys2Proof/Machine/Link.lean ====
section
/-!
DEFINITION. The Kentas links: lanes and control blocks, bring-up, the capability exchange, frames received, link credits, MEASURE and DEEP (10 R221-R250, 13 R296, R300, R302).
-/
namespace Sys2Proof.Machine

/-! ### Errors, blocks and lanes -/

/-- A counter of 10 R244 raised by n, saturating. -/
def satAdd (w : Word) (n : Nat) : Word := nword (min 0xFFFFFFFF (w.toNat + n))

/-- Event 41 with a kind and VC, at most once per link in each microsecond (10 R244, R248). -/
def Dev.linkErr (d : Dev) (k : LinkId) (kind vc : Nat) : Dev :=
  if ((d.kl.links[k]).errAt.any fun t => decide (d.cycle < t + 400)) then d
  else (d.updLink k fun l => { l with errAt := some d.cycle }).raise 41 (place (firstLane k).val 0 ||| place kind 8 ||| place (vc % 128) 16)

/-- Octet i of a block. -/
def octet (b : Block) (i : Nat) : Byte := b.extractLsb' (8 * i) 8

/-- Octets lo to lo + 1 of a block as a number. -/
def octets2 (b : Block) (i : Nat) : Half := b.extractLsb' (8 * i) 16

/-- Control block types of 10 R225. -/
def ctlTypes : List Byte := [0x1E, 0x78, 0x87, 0x4B, 0x2D, 0x33, 0x55, 0x66, 0x99]

/-- A control block that its receiver keeps: its check octet holds and its type is known (10 R225). -/
def blockGood (b : Block) : Bool :=
  crc8 ((List.range 7).map (octet b)) == octet b 7 && ctlTypes.contains (octet b 0)

/-- A control block discarded (10 R225): CBERR counts and event 41 tells it. -/
def Dev.badBlock (d : Dev) (n : LaneId) : Dev :=
  (d.updLane n fun x => { x with cbErr := satAdd x.cbErr 1 }).linkErr (laneLink n) 2 0

/-- A link's receivers take blocks in its state (10 R229 table). -/
def Link.receives (l : Link) : Bool := l.st == .train || l.st == .lock || l.st == .exchange || l.st == .active

/-- A control block received on a lane: discarded and counted when it fails its checks, whatever the link's state asks for, and without effect here when it is of another type. -/
def Dev.onBlock (d : Dev) (n : LaneId) (b : Block) (typ : Byte) (f : Dev → Dev) : Dev :=
  if !(d.kl.links[laneLink n]).receives then d
  else if !blockGood b then d.badBlock n
  else if octet b 0 = typ then f d else d

/-- Errors that a lane has met since its counters were last judged (10 R224, R227, R244): invalid headers wherever it takes blocks, PRBS31 bits and errors in TRAIN and MEASURE, the bits of a MEASURE never beyond those it has in all. What the channel brings is open (log 14). -/
def Dev.settleLane (d : Dev) (n : LaneId) : Dev :=
  let l := d.kl.links[laneLink n]
  if l.receives then
    let (f, d) := d.takeFree
    let (g, d) := d.takeFree
    let (h, d) := d.takeFree
    let prbs := l.st == .train || l.measuring
    d.updLane n fun x => { x with
      hdrErr := satAdd x.hdrErr (Config.lineErrors f)
      prbsErr := if prbs then satAdd x.prbsErr (Config.lineErrors g) else x.prbsErr
      prbsBits := if l.measuring then nword (min x.prbsTo (x.prbsBits.toNat + Config.bitsChecked h)) else if prbs then satAdd x.prbsBits (Config.bitsChecked h) else x.prbsBits }
  else d

/-- The lanes of a link that the variant has (10 R221). -/
def linkLanes (P : Part) (k : LinkId) : List LaneId := if k = 0 then (if P.lanes = 2 then [0, 1] else [0]) else [firstLane k]

/-! ### States -/

/-- A configured rate, code 3 acting as 2. -/
def Dev.rateMax (d : Dev) (k : LinkId) : Nat := min 2 (fld (d.lkCfg k) 1 2)

/-- PLL-L stops when every present link is DEEP, DISABLED or FAULT (10 R246). -/
def Dev.pllCheck (P : Part) (d : Dev) : Dev :=
  if (List.finRange 3).all fun k => !linkPresent P k || (d.kl.links[k]).st == .deep || (d.kl.links[k]).st == .disabled || (d.kl.links[k]).st == .fault
  then d.updKl fun x => { x with pll := false }
  else d

/-- The error counts of a link's lanes brought up to now. -/
def Dev.settleLink (P : Part) (d : Dev) (k : LinkId) : Dev := (linkLanes P k).foldl (fun d n => d.settleLane n) d

/-- CD stops resuming: the peer timer has not run since it began (15 R362). -/
def Dev.peerTimerHeld (d : Dev) (k : LinkId) : Dev :=
  let l := d.kl.links[k]
  if k = 2 ∧ l.st = .lock ∧ l.resuming then d.updCas fun c => { c with heardAt := c.heardAt + (d.cycle - max c.heardAt l.resumeAt) } else d

/-- A link leaves its state for another: its lanes' errors are counted, partial work of the old state ends, staged frames stay (10 R229, R244). -/
def Dev.linkTo (P : Part) (d : Dev) (k : LinkId) (st : LinkState) : Dev :=
  (((d.peerTimerHeld k).settleLink P k).updLink k fun l => { l with
    st := st, resuming := false, two := false, measuring := false, meas := 0, deepReq := false, deepWant := false, rxok := false, wakeDue := false }).pllCheck P

/-- Event 40 when a link leaves ACTIVE or DEEP (10 R229, R248). -/
def Dev.linkDown (d : Dev) (k : LinkId) (cause : Nat) : Dev := d.raise 40 (place (firstLane k).val 0 ||| place cause 8)

/-- The link is in ACTIVE or DEEP (10 R229 table). -/
def Link.up (l : Link) : Bool := l.st == .active || l.st == .deep

/-- DETECT entered with the first attempt's rate (10 R228). -/
def Dev.toDetect (P : Part) (d : Dev) (k : LinkId) : Dev := (d.linkTo P k .detect).updLink k fun l => { l with rate := d.rateMax k }

/-- An enabled link starts once PLL-L is locked; links stay DISABLED in RECOVERY, and link 1 in a pair role (10 R229, 13 R296, 14 R338). -/
def Dev.linkStart (P : Part) (d : Dev) (k : LinkId) : Dev :=
  if (d.kl.links[k]).st = .disabled ∧ bit (d.lkCfg k) 0 ∧ d.kl.pll ∧ linkPresent P k ∧ !d.recovery ∧ !(k == 1 && d.pairRole P) then
    (d.toDetect P k).updLink k fun l => { l with ladder := 0 }
  else d

/-- A link disabled (10 R229). -/
def Dev.linkDisable (P : Part) (d : Dev) (k : LinkId) : Dev :=
  let l := d.kl.links[k]
  if l.st = .disabled then d
  else
    let d := d.linkTo P k .disabled
    if l.up then d.linkDown k 4 else d

/-- A write of KL_LKk_CFG (10 R229, R249). -/
def Dev.lkCfgWrite (P : Part) (d : Dev) (k : LinkId) (v : Word) : Dev :=
  let d := d.writeReg P (0x90100 + 0x100 * k.val) v
  if bit v 0 then d.linkStart P k else d.linkDisable P k

/-- CMD.RESTART (10 R228, R229). -/
def Dev.linkRestart (P : Part) (d : Dev) (k : LinkId) : Dev :=
  let l := d.kl.links[k]
  if l.st = .disabled then d
  else
    let d := (d.toDetect P k).updLink k fun l => { l with ladder := 0 }
    if l.up then d.linkDown k 3 else d

/-- CMD.DEEP (10 R246). -/
def Dev.linkDeep (d : Dev) (k : LinkId) : Dev :=
  if (d.kl.links[k]).st = .active then (d.updLink k fun l => { l with deepWant := true }).deepTry k else d

/-- The bits that a MEASURE has still to check after its counter was cleared at a count: whether the part of a unit that had been checked counts on is open, a free bit. -/
def bitsLeft (f total count : Nat) : Nat := total - count - Config.bitsChecked f % 2

/-- CMD.CLRCNT (10 R244): in MEASURE the bits checked up to now are gone from the count of R245. -/
def Dev.clrCnt (P : Part) (d : Dev) (k : LinkId) : Dev :=
  let d := if (d.kl.links[k]).measuring then d.settleLink P k else d
  let f := d.free
  let d := if (d.kl.links[k]).measuring then d.takeFree.2 else d
  (linkLanes P k).foldl (fun d n => d.updLane n fun x => { x with
      prbsErr := 0, hdrErr := 0, cbErr := 0, prbsBits := 0, prbsTo := bitsLeft f x.prbsTo x.prbsBits.toNat })
    (d.updLink k fun l => { l with crcErr := 0, frmErr := 0, crOvr := 0 })

/-- A write of KL_LKk_CMD, its bits in order (10 R249). -/
def Dev.lkCmd (P : Part) (d : Dev) (k : LinkId) (v : Word) : Dev :=
  let d := if bit v 0 then d.linkRestart P k else d
  let d := if bit v 1 then d.linkDeep k else d
  let d := if bit v 2 then d.linkWake k else d
  let d := if bit v 3 then d.linkDisable P k else d
  if bit v 4 then d.clrCnt P k else d

/-! ### DETECT and TRAIN -/

/-- DETECT_STEP (10 R229): the common-mode step is sent. -/
def Dev.detectStep (d : Dev) (k : LinkId) : Dev := if (d.kl.links[k]).st = .detect then d.emitOut (.detect k) else d

/-- PRBS counters cleared at entry to TRAIN or MEASURE (10 R244). -/
def Dev.clearPrbs (P : Part) (d : Dev) (k : LinkId) : Dev :=
  (linkLanes P k).foldl (fun d n => d.updLane n fun x => { x with prbsErr := 0, prbsBits := 0, prbsTo := 0 }) d

/-- EQDEF in force (10 R227). -/
def Dev.eqDef (d : Dev) (k : LinkId) : Bool := bit (d.lkCfg k) 5

/-- An FFE request of the device: 0 to 2 in each of its two fields (10 R225). -/
def ffeOctet (x : Nat) : Nat := x % 3 + 4 * (x / 3 % 3)

/-- The TRAIN block of a lane (10 R225); count is the MEASURE count, 0 in TRAIN. -/
def Dev.trainCtl (d : Dev) (n : LaneId) (count : Nat) : Block :=
  ctlBlock 0x2D [
    (flag (d.kl.lanes[n]).ready 0 ||| flag (decide (0 < count)) 1).setWidth 8, BitVec.ofNat 8 (d.kl.links[laneLink n]).rate,
    BitVec.ofNat 8 (ffeOctet (Config.ffeRequest d.out.length)), BitVec.ofNat 8 n.val, BitVec.ofNat 8 count]

/-- TRAIN groups begin on a lane, or go on with another READY (10 R225, R227, R245): their blocks are those of `groupBlocks`, unscrambled. -/
def Dev.sendGroup (d : Dev) (n : LaneId) (count : Nat) : Dev :=
  d.emitOut (.group n (codeBlock false n 0 (true, d.trainCtl n count)).1 (Config.prbsState d.out.length))

/-- The lanes that train for a link: HL1 only with TWOLANE = 1 (10 R221, R227, R249). -/
def Dev.trainLanes (P : Part) (d : Dev) (k : LinkId) : List LaneId := if k = 0 ∧ bit (d.lkCfg 0) 3 then linkLanes P k else [firstLane k]

/-- PARTNER_DETECTED (10 R229): TRAIN begins, with the default equaliser under EQDEF = 1 (17 R387). -/
def Dev.partnerDetected (P : Part) (d : Dev) (k : LinkId) : Dev :=
  if (d.kl.links[k]).st = .detect then
    let d := ((d.linkTo P k .train).clearPrbs P k).updLane (firstLane k) fun x => { x with detected := true }
    (d.trainLanes P k).foldl (fun d n => (d.updLane n fun x => { x with
      adapted := false, ready := false, partnerReady := false, blockLock := false, alignOut := 0, alignIn := none
      eq := if d.eqDef k then 0x800 else x.eq }).sendGroup n 0) d
  else d

/-- An FFE coefficient stepped by a request code: 1 increase, 2 decrease, within 16 steps (10 R225, 17 "FFE"). -/
def ffeStep (x req : Nat) : Nat := if req = 1 then min 15 (x + 1) else if req = 2 then x - 1 else x

/-- The partner's FFE request taken (10 R225). -/
def ffeTake (eq : Word) (r : Byte) : Word :=
  putFld (putFld eq 0 4 (ffeStep (fld eq 0 4) (r.toNat % 4))) 4 4 (ffeStep (fld eq 4 4) (r.toNat / 4 % 4))

/-- A TRAIN block of the lane's own rate; another rate counts as a failed check (10 R229). -/
def Dev.onTrain (d : Dev) (n : LaneId) (b : Block) (f : Dev → Dev) : Dev :=
  d.onBlock n b 0x2D fun d => if (octet b 2).toNat = (d.kl.links[laneLink n]).rate then f d else d.badBlock n

/-- TRAIN_BLOCK_RECEIVE (10 R225, R227, R229, 17 R387): the partner's FFE request moves the taps, unless EQDEF = 1 keeps the default setting. -/
def Dev.trainBlock (d : Dev) (n : LaneId) (b : Block) : Dev :=
  d.onTrain n b fun d =>
    if (d.kl.links[laneLink n]).st = .train then
      d.updLane n fun x => { x with
        signal := true, partnerReady := (octet b 1).getLsbD 0, eq := if d.eqDef (laneLink n) then x.eq else ffeTake x.eq (octet b 3) }
    else d

/-- LANE_ADAPTED (10 R227): ADAPTED is set and READY sent; the receiver's settings and the errors met are open (log 14). -/
def Dev.laneAdapted (d : Dev) (n : LaneId) : Dev :=
  let k := laneLink n
  if (d.kl.links[k]).st = .train then
    let (f, d) := (d.settleLane n).takeFree
    (d.updLane n fun x => { x with
      adapted := true, ready := true
      eq := if d.eqDef k then x.eq else (x.eq &&& 0xFF) ||| ((Config.equaliser f).setWidth 32 &&& 0x3FF00) }).sendGroup n 0
  else d

/-- TRAIN_1MS_REACHED (10 R229): a lane that has block lock keeps it, for headers are never scrambled (R223). -/
def Dev.train1ms (P : Part) (d : Dev) (k : LinkId) : Dev :=
  let x := d.kl.lanes[firstLane k]
  if (d.kl.links[k]).st = .train ∧ x.ready ∧ x.partnerReady then
    (d.settleLink P k).updLink k fun l => { l with st := .lock, resuming := false, ladder := 0, skewErr := false }
  else d

/-- TRAIN_TIMEOUT (10 R228, R229). -/
def Dev.trainTimeout (P : Part) (d : Dev) (k : LinkId) : Dev :=
  let l := d.kl.links[k]
  if l.st = .train then
    let d := (d.linkTo P k (if 8 ≤ l.ladder then .fault else .detect)).updLink k fun y => { y with
      ladder := min 9 (l.ladder + 1), rate := if l.rate = 0 then d.rateMax k else l.rate - 1 }
    let d := d.pllCheck P
    if 8 ≤ l.ladder then d.linkErr k 5 0 else d
  else d

/-! ### LOCK and EXCHANGE -/

/-- Event 39 (10 R248); CD in ACTIVE restarts the peer timer (15 R362). -/
def Dev.linkUp (d : Dev) (k : LinkId) (fromDeep : Bool) : Dev :=
  let l := d.kl.links[k]
  let d := if k = 2 then d.updCas fun c => { c with heardAt := d.cycle } else d
  d.raise 39 (place (firstLane k).val 0 ||| flag l.limited 8 ||| flag fromDeep 9 ||| flag l.two 10 ||| place l.rate 12)

/-- A resuming link is ACTIVE once PLL-L runs again and every used lane has block lock and a WAKE or IDLE of the partner (10 R229, R247); its books resume (10 R237). -/
def Dev.resumeCheck (d : Dev) (k : LinkId) : Dev :=
  if (d.kl.links[k]).resuming ∧ d.kl.pll ∧ (d.usedLanes k).all fun n => (d.kl.lanes[n]).blockLock && (d.kl.lanes[n]).woke then
    (d.updLink k fun l => ({ l with st := .active, resuming := false } : Link).unpark).linkUp k true
  else d

/-- PLLL_LOCK (10 R229, R247): enabled links start, and links that leave DEEP send WAKE. -/
def Dev.plllLock (P : Part) (d : Dev) : Dev :=
  if (List.finRange 3).any fun k => linkPresent P k && (bit (d.lkCfg k) 0 || d.kl.links[k].resuming) then
    (List.finRange 3).foldl (fun d k =>
      let d := d.linkStart P k
      if (d.kl.links[k]).wakeDue then (d.sendWake k).resumeCheck k else d) (d.updKl fun x => { x with pll := true })
  else d

/-- BLOCK_LOCK_GAIN (10 R224) wherever the receiver takes blocks: it has slipped past some invalid headers, whose number is open (log 14). -/
def Dev.lockGain (d : Dev) (n : LaneId) : Dev :=
  let l := d.kl.links[laneLink n]
  if l.receives then
    ((d.settleLane n).updLane n fun x => { x with blockLock := true, signal := true }).resumeCheck (laneLink n)
  else d

/-- BLOCK_LOCK_LOSS (10 R224, R229, R230): 16 invalid headers in the window that ends the lock, and those met before it. -/
def Dev.lockLoss (P : Part) (d : Dev) (n : LaneId) : Dev :=
  let k := laneLink n
  if (d.kl.lanes[n]).blockLock then
    let used := (d.usedLanes k).contains n
    let d := (d.settleLane n).updLane n fun x => { x with blockLock := false, hdrErr := satAdd x.hdrErr 16 }
    if (d.kl.links[k]).st = .active ∧ used then (d.toDetect P k).linkDown k 1 else d
  else d

/-- LOCK_TIMEOUT (10 R229). -/
def Dev.lockTimeout (P : Part) (d : Dev) (k : LinkId) : Dev :=
  if (d.kl.links[k]).st = .lock ∧ !(d.kl.links[k]).resuming ∧ !(d.kl.lanes[firstLane k]).blockLock then d.linkTo P k .detect else d

/-- Units the device advertises for a VC of a link (10 R234, 13 R300). -/
def Dev.ownAlloc (P : Part) (d : Dev) (k : LinkId) (v : Nat) : Nat :=
  if k = 0 then (if v = 64 then 64 else 0)
  else if k = 1 then (if v = 64 then 128 else 0)
  else if d.pairRole P then (if v = 64 then 128 else 0)
  else if d.chainMode P ≠ 0 then (if v = 64 then 256 else 0)
  else if v = 64 then 128 else if d.muxSet.contains v then 16 else 0

/-- The partner's version lies outside KL_VERRANGE, or the boot was RESTRICTED (10 R232). -/
def Dev.limits (d : Dev) (w0 : Word) : Bool :=
  let v := fld w0 0 16
  decide (v < fld d.kl.verRange 0 16) || decide (fld d.kl.verRange 16 16 < v) || d.sys.outcome == 2

/-- The CRC-32 of a CAP sequence, over its words in byte order (10 R231). -/
def capCrc (ws : List Word) : Word := crc32 (ws.flatMap wordBytes)

/-- The CAP words the device sends (10 R231 table): version 0x0102, the lanes and, DEDUCED, the rates up to RATEMAX that its configuration offers (log 14), its port kind, the largest payload, the image interfaces, the versions accepted, and its receive allocations. -/
def Dev.capWords (P : Part) (d : Dev) (k : LinkId) : List Word :=
  let lanes := if k = 0 ∧ bit (d.lkCfg 0) 3 ∧ P.lanes = 2 then 2 else 1
  let own := fun v => if h : v < 65 then ((d.kl.links[k]).books[v]).own else 0
  [place 0x0102 0 ||| place lanes 16 ||| place (2 ^ (d.rateMax k + 1) - 1) 18 ||| place (k.val + 1) 21, place 4064 0, d.sys.supId, d.sys.lnkId, d.kl.verRange, 0, 0, 0] ++
    (List.range 33).map fun j => place (own (2 * j)) 0 ||| place (own (2 * j + 1)) 16

/-- LIMITED in the device's own sequence (10 R232). -/
def Dev.ownLimited (d : Dev) (k : LinkId) : Bool :=
  let l := d.kl.links[k]
  if l.rxok then d.limits l.pver else d.sys.outcome == 2

/-- The blocks of the device's CAP sequence: INDEX 0 to 40, then INDEX 0xFF with the CRC-32, RXOK and LIMITED (10 R231). -/
def Dev.capBlocks (P : Part) (d : Dev) (k : LinkId) : List Block :=
  let ws := d.capWords P k
  ((List.range 41).map fun i => ctlBlock 0x33 (BitVec.ofNat 8 i :: wordBytes (ws.getD i 0))) ++
    [ctlBlock 0x33 (0xFF :: wordBytes (capCrc ws) ++ [(flag (d.kl.links[k]).rxok 0 ||| flag (d.ownLimited k) 1).setWidth 8])]

/-- The CAP sequence sent on the first lane from now on (10 R231). -/
def Dev.sendCaps (P : Part) (d : Dev) (k : LinkId) : Dev :=
  let xs := codeBurst (d.kl.links[k]).scrambles [firstLane k] d.fills ((d.capBlocks P k).map fun b => (true, b))
  (d.onLane xs).emitOut (.caps k xs)

/-- VALID_IDLE_BLOCKS (10 R226, R229, 13 R300): EXCHANGE begins with the allocations of this moment. -/
def Dev.validIdle (P : Part) (d : Dev) (k : LinkId) (hl1 : Bool) : Dev :=
  let l := d.kl.links[k]
  if l.st = .lock ∧ !l.resuming ∧ (d.kl.lanes[firstLane k]).blockLock then
    let two := hl1 && k == 0 && bit (d.lkCfg 0) 3 && P.lanes == 2 && (d.kl.lanes[(1 : LaneId)]).blockLock && !l.skewErr
    let d := if two then d.updLane 1 fun x => { x with detected := true } else d
    let d := if k = 2 ∧ 8 < ((List.range 64).filter d.muxNamed).length then d.cfgErr else d
    (d.updLink k fun l => { l with
      st := .exchange, two := two, rxok := false, limited := false
      books := Vector.ofFn fun v : Fin 65 => { own := d.ownAlloc P k v.val } }).sendCaps P k
  else d

/-- A partner's receive allocation (10 R231). -/
def capAlloc (ws : List Word) (v : Nat) : Nat := fld (ws.getD (8 + v / 2) 0) (16 * (v % 2)) 16

/-- A staged frame under new books of a link: it is cut to the link's MAXPAY, and a forwarded frame holds no units of the old books (10 R235, R237). -/
def Dev.restage (d : Dev) (k : LinkId) (f : Staged) : List Staged :=
  let f := { f with rx := f.rx.map fun r => if r.1 = k then (k, 0) else r }
  if f.link = k then Staged.recut (d.payCap k) f.payload.length f else [f]

/-- A received message holds no units of a link's old books. -/
def dropUnits (k : LinkId) (m : RxMsg) : RxMsg := if m.link = k then { m with units := 0 } else m

/-- ACTIVE entered from EXCHANGE: books set for both directions (10 R229, R232, R237); what waits from before is cut to MAXPAY and holds no units of the old books. -/
def Dev.linkActive (d : Dev) (k : LinkId) : Dev :=
  let d := d.updKl fun x => { x with
    staged := x.staged.flatMap (d.restage k)
    inbox := x.inbox.map (dropUnits k)
    casIn := x.casIn.map (dropUnits k)
    mirIn := x.mirIn.map (dropUnits k) }
  let d := d.updLink k fun l => { l with
    st := .active, unrep := [], parked := []
    books := Vector.ofFn fun v : Fin 65 =>
      let b := l.books[v]
      let cut := l.limited && v.val != 64
      { avail := if cut then 0 else b.partner, partner := if cut then 0 else b.partner, own := if cut then 0 else b.own } }
  let d := if k = 0 then d.updKl fun x => { x with
      sent := [], lineOut := x.lineOut.filter fun o => !(x.sent.any fun s => s.line == o.line) }
    else if k = 2 then (d.updCas fun c => { c with cpOut := [], cpPart := none, cpSkip := false })
    else d
  d.linkUp k false

/-- CAP_SEQUENCE_RECEIVE (10 R231, R232, R233): a valid sequence is taken, and later sequences of the device carry RXOK; with the partner's RXOK the link is ACTIVE. -/
def Dev.capReceive (P : Part) (d : Dev) (k : LinkId) (ws : List Word) (crc : Word) (last : Byte) : Dev :=
  if (d.kl.links[k]).st = .exchange ∧ ws.length = 41 ∧ capCrc ws = crc then
    let w0 := ws.getD 0 0
    let w1 := ws.getD 1 0
    let d := d.updLink k fun l => { l with
      pver := w0, pmax := w1, psup := ws.getD 2 0, plnk := ws.getD 3 0, rxok := true
      maxPay := min 4064 (fld w1 0 13) / 8 * 8
      limited := d.limits w0 || last.getLsbD 1
      books := Vector.ofFn fun v : Fin 65 => { l.books[v] with partner := capAlloc ws v.val } }
    let d := d.sendCaps P k
    if last.getLsbD 0 then d.linkActive k else d
  else d

/-- EXCHANGE_TIMEOUT (10 R229). -/
def Dev.exchangeTimeout (P : Part) (d : Dev) (k : LinkId) : Dev := if (d.kl.links[k]).st = .exchange then d.linkTo P k .detect else d

/-- SQUELCH_CLOSE (10 R229). -/
def Dev.squelchClose (P : Part) (d : Dev) (n : LaneId) : Dev :=
  let k := laneLink n
  let used := (d.usedLanes k).contains n
  let d := d.updLane n fun x => { x with signal := false }
  if (d.kl.links[k]).st = .active ∧ used then (d.toDetect P k).linkDown k 2 else d

/-! ### ALIGN -/

/-- The lanes a link sends ALIGN on: in LOCK every configured lane, in ACTIVE the used ones (10 R226). -/
def Dev.alignLanes (P : Part) (d : Dev) (k : LinkId) : List LaneId :=
  if (d.kl.links[k]).st = .lock then (if k = 0 ∧ bit (d.lkCfg 0) 3 then linkLanes P k else [firstLane k])
  else if (d.kl.links[k]).st = .active then d.usedLanes k else []

/-- ALIGN_SEND (10 R226): the same count on every lane. -/
def Dev.alignSend (P : Part) (d : Dev) (k : LinkId) : Dev :=
  let c := (d.kl.lanes[firstLane k]).alignOut
  (d.alignLanes P k).foldl (fun d n =>
    (d.updLane n fun x => { x with alignOut := c + 1 }).sendBlock n (ctlBlock 0x99 [BitVec.ofNat 8 n.val, c.extractLsb' 0 8, c.extractLsb' 8 8])) d

/-- ALIGN_RECEIVE (10 R226): counts of the two host lanes are matched; a skew above 64 ns, 25 cycles, in LOCK leaves HL0 alone. -/
def Dev.alignReceive (d : Dev) (n : LaneId) (b : Block) : Dev :=
  d.onBlock n b 0x99 fun d =>
    let c := octets2 b 2
    let other : LaneId := if n = 0 then 1 else 0
    let d1 := d.updLane n fun x => { x with alignIn := some c, alignAt := d.cycle }
    if n.val < 2 ∧ (d.kl.links[(0 : LinkId)]).st = .lock ∧ (d.kl.lanes[other]).alignIn = some c ∧ (d.kl.lanes[other]).alignAt + 25 < d.cycle then
      d1.updLink 0 fun l => { l with skewErr := true, two := false }
    else d1

/-! ### Credits -/

/-- Cycles as blocks of a link's lanes, 25.6 ns at rate 0 (10 R221). -/
def blocksIn (rate cycles : Nat) : Nat := cycles * 25 * 2 ^ rate / 256

/-- 64 blocks have passed since the last CREDIT block of a lane (10 R239). -/
def Dev.creditDue (d : Dev) (n : LaneId) : Bool :=
  match (d.kl.lanes[n]).lastCredit with
  | some t => decide (64 ≤ blocksIn (d.kl.links[laneLink n]).rate (d.cycle - t))
  | none => true

/-- A CREDIT block sent on a lane as the next block of the link's stream: where the turn is the other lane's, an IDLE block goes there before it (10 R226). -/
def Dev.sendOnLane (d : Dev) (n : LaneId) (b : Block) : Dev :=
  d.sendStream (laneLink n) (if (d.inTurn (laneLink n)).headD n = n then [b] else [ctlBlock 0x1E [], b])

/-- CREDIT_BLOCK_SEND (10 R238, R239): the two VCs whose unreported frees are oldest, once the FIFO to CK_LTX has room (01 R25). -/
def Dev.creditSend (d : Dev) (n : LaneId) : Dev :=
  let k := laneLink n
  let l := d.kl.links[k]
  if l.st = .active ∧ !l.measuring ∧ (d.usedLanes k).contains n ∧ d.creditDue n ∧ d.ltxRoom k then
    let rep := fun (d : Dev) (v : Fin 65) => d.updLink k fun l => { l with
      books := upd l.books v fun b => { b with cumRep := b.cumOut, held := b.held - (b.cumOut - b.cumRep).toNat }
      unrep := l.unrep.filter fun x => x != v }
    let os := fun (v : Fin 65) => let c := (l.books[v]).cumOut; [BitVec.ofNat 8 v.val, c.extractLsb' 0 8, c.extractLsb' 8 8]
    let d1 := d.updLane n fun x => { x with lastCredit := some d.cycle }
    match l.unrep with
    | [] => d
    | [a] => (rep d1 a).sendOnLane n (ctlBlock 0x4B (os a ++ [0x7F]))
    | a :: b :: _ => (rep (rep d1 a) b).sendOnLane n (ctlBlock 0x4B (os a ++ os b))
  else d

/-- Units returned for frames sent, oldest first: what is left outstanding and the frames fully returned. -/
def returnUnits {α : Type} (units : α → Nat) (setUnits : α → Nat → α) (mine : α → Bool) : List α → Nat → List α × List α
  | [], _ => ([], [])
  | f :: fs, u =>
    if mine f then
      if units f ≤ u then
        let (out, done) := returnUnits units setUnits mine fs (u - units f)
        (out, f :: done)
      else (setUnits f (units f - u) :: fs, [])
    else
      let (out, done) := returnUnits units setUnits mine fs u
      (f :: out, done)

/-- The host link has returned units of a data VC (13 R312). -/
def Dev.hostReturned (d : Dev) (v : Fin 65) (u : Nat) : Dev :=
  (d.updKl fun x =>
    let (out, done) := returnUnits (fun f : SentFrame => f.units) (fun f n => { f with units := n }) (fun f => f.vc == v) x.sent u
    let lines := x.lineOut.map fun o =>
      if done.any fun f => f.last && f.line == o.line then { o with need := if v.val < 64 then o.need &&& ~~~(1#64 <<< v.val) else o.need } else o
    { x with sent := out, lineOut := lines }).secureLines

/-- The pair's CD link has returned units of VC 64: a checkpoint whose every frame is back is fully returned (13 R314, R321). -/
def Dev.cdReturned (d : Dev) (u : Nat) : Dev :=
  let (out, done) := returnUnits (fun f : Nat × CpTag × Bool => f.1) (fun f n => (n, f.2)) (fun _ => true) d.cas.cpOut u
  done.foldl (fun d f => if f.2.1.full && f.2.2 then d.updCas fun c => { c with cpSeq := f.2.1.seq, cpLine := f.2.1.line, tpeer := f.2.1.tpeer } else d)
    (d.updCas fun c => { c with cpOut := out, heardAt := if done.any (fun f => f.2.1.full) then d.cycle else c.heardAt })

/-- One VC's CUM taken (10 R238). -/
def Dev.creditTake (d : Dev) (k : LinkId) (v : Nat) (cum : Half) : Dev :=
  if h : v < 65 then
    let b := (d.kl.links[k]).books[v]
    let n := (cum - b.cumIn).toNat
    if b.partner < b.avail + n then
      (d.updLink k fun l => { l with crOvr := satAdd l.crOvr 1 }).linkErr k 3 v
    else
      let d := d.updLink k fun l => { l with books := upd l.books ⟨v, h⟩ fun b => { b with avail := b.avail + n, cumIn := cum } }
      if k = 0 then d.hostReturned ⟨v, h⟩ n else if k = 2 ∧ v = 64 then d.cdReturned n else d
  else d

/-- CREDIT_BLOCK_RECEIVE (10 R225, R238). -/
def Dev.creditReceive (d : Dev) (n : LaneId) (b : Block) : Dev :=
  let k := laneLink n
  d.onBlock n b 0x4B fun d =>
    if (d.kl.links[k]).st = .active then
      let d := d.creditTake k (octet b 1).toNat (octets2 b 2)
      (if octet b 4 = 0x7F then d else d.creditTake k (octet b 4).toNat (octets2 b 5)).deepTry k
    else d

/-! ### Frames received -/

/-- A discarded message counted (16 R363, R370). -/
def Dev.discardMsg (d : Dev) : Dev := d.updSys fun y => { y with discarded := if y.discarded = 255 then 255 else y.discarded + 1 }

/-- The body of a message in words. One of a length that is no multiple of 4 agrees with no COUNT: an MREAD or MWRITE keeps its first word alone, which its answer FORMAT needs (16 R370); any other such message is not executed (DESIGN CHOICE, log 36). -/
def msgBody (t : Nat) (bs : List Byte) : Option (List Word) :=
  if bs.length % 4 = 0 then some (wordsOfBytes bs) else if t = 1 ∨ t = 2 then some ((wordsOfBytes bs).take 1) else none

/-- The whole messages of a MGMT payload, as MTYPE, TAG and body; one that is not executed has no body, and after an overrunning MLEN comes none (10 R243). -/
def messages : Nat → List Byte → List (Nat × Word × Option (List Word))
  | 0, _ => []
  | fuel + 1, bs =>
    if bs.length < 8 then []
    else
      let h := nword (leNat (bs.take 4))
      let t := fld h 0 8
      let tag := nword (leNat ((bs.drop 4).take 4))
      let rest := bs.drop 8
      if rest.length < fld h 16 16 then [(t, tag, none)]
      else (t, tag, msgBody t (rest.take (fld h 16 16))) :: messages fuel (rest.drop (fld h 16 16))

/-- A message kept by the receiver of a link (10 R243, 16 R370). -/
def msgKept (k : LinkId) (mtype : Nat) : Bool :=
  [1, 2, 5, 6, 7].contains mtype || (k != 0 && (mtype == 3 || (decide (0x10 ≤ mtype) && decide (mtype ≤ 0x17))))

/-- One message taken in: an MRESP from below goes up towards the host (13 R299), others wait for the executor. -/
def Dev.takeMsg (P : Part) (d : Dev) (k : LinkId) (m : Nat × Word × Option (List Word)) : Dev :=
  match m with
  | (_, _, none) => d.discardMsg
  | (t, tag, some body) =>
    if !msgKept k t then d.discardMsg
    else if t = 3 then (if k = 2 then d.stageMsg (d.lineLink P) 3 tag body false else d.discardMsg)
    else d.updKl fun x => { x with inbox := x.inbox ++ [{ link := k, mtype := t, tag := tag, body := body, units := 0, age := d.cycle }] }

/-- Units of a received MGMT frame: they are freed when its last message has been executed, at once when none waits (13 R301). -/
def Dev.lastHolds (d : Dev) (k : LinkId) (before u : Nat) : Dev :=
  match d.kl.inbox.getLast? with
  | some m => if before < d.kl.inbox.length then d.updKl fun x => { x with inbox := x.inbox.dropLast ++ [{ m with units := u }] } else d.freeUnits k 64 u
  | none => d.freeUnits k 64 u

/-- A received frame's units enter the books. -/
def Dev.holdUnits (d : Dev) (k : LinkId) (v : Fin 65) (u : Nat) : Dev :=
  d.updLink k fun l => { l with books := upd l.books v fun b => { b with held := b.held + u } }

/-- A frame discarded: its counter and event 41, and its units freed at once (10 R236, R238). -/
def Dev.dropFrame (d : Dev) (k : LinkId) (v : Nat) (u : Nat) (kind : Nat) : Dev :=
  let d := d.updLink k fun l => match kind with
    | 1 => { l with crcErr := satAdd l.crcErr 1 }
    | 3 => { l with crOvr := satAdd l.crOvr 1 }
    | _ => { l with frmErr := satAdd l.frmErr 1 }
  let d := if h : v < 65 then (d.holdUnits k ⟨v, h⟩ u).freeUnits k ⟨v, h⟩ u else d
  d.linkErr k kind v

/-- A frame that is not whole: of a checkpoint the part received so far is given up, with its units (13 R313). -/
def Dev.dropPart (d : Dev) (k : LinkId) : Dev :=
  match d.cas.cpPart with
  | some (_, u, _) => if k = 2 then (d.freeUnits 2 64 u).updCas fun c => { c with cpPart := none } else d
  | none => d

/-- A VC 64 frame of CD shows a gap in FSEQ, whatever its TYPE: a checkpoint of which a frame may be missing is given up (13 R313; log 23). -/
def Dev.cpGap (d : Dev) : Dev := (d.dropPart 2).updCas fun c => { c with cpSkip := true }

/-- A heartbeat: the first 8 bytes of a checkpoint alone, with HB = 1 (13 R312). -/
def heartbeat (f : RxFrame) : Bool := !bit f.w1 16 && f.payload.length == 8 && (f.payload.getD 4 0).getLsbD 0

/-- Bytes are a whole checkpoint: HB is 0, and they end where its context section does (13 R312). -/
def cpWhole (bs : List Byte) : Bool :=
  !(bs.getD 4 0).getLsbD 0 && decide (bs.length = 0x440 + leNat ((bs.drop 0x3C).take 4))

/-- What mirror ingress has received whole goes to its buffer with the units it holds (13 R301, R313). -/
def Dev.mirrorPut (d : Dev) (bs : List Byte) (u : Nat) : Dev :=
  d.updKl fun x => { x with mirIn := x.mirIn ++ [{ link := 2, mtype := 0x104, tag := 0, body := [], units := u, age := d.cycle, raw := bs }] }

/-- A CHECKPOINT frame (13 R313): frames of consecutive FSEQ build a checkpoint, and a heartbeat is complete on arrival. Where a frame was missing or discarded before them, or a frozen mirror ingress has discarded some (03 R78), the frames up to the next last one count as a checkpoint where they are one from its first byte to its last, and are ignored otherwise; no field of a frame tells its checkpoint (DEDUCED, log 23). -/
def Dev.cpFrame (d : Dev) (f : RxFrame) (u : Nat) : Dev :=
  let more := bit f.w1 16
  if d.frozen .mirrorIn then
    ((d.dropPart 2).freeUnits 2 64 u).updCas fun c => { c with cpSkip := more }
  else if heartbeat f && d.cas.cpPart.isNone then
    (d.updCas fun c => { c with cpSkip := false }).mirrorPut f.payload u
  else
    let (bs, held) : List Byte × Nat := match d.cas.cpPart with | some (bs, h, _) => (bs ++ f.payload, h + u) | none => (f.payload, u)
    if more then d.updCas fun c => { c with cpPart := some (bs, held, f.w1.extractLsb' 0 16 + 1) }
    else
      let e := d.updCas fun c => { c with cpPart := none, cpSkip := false }
      if d.cas.cpSkip && !cpWhole bs then e.freeUnits 2 64 held else e.mirrorPut bs held

/-- A good frame handed on (10 R236, 13 R301, R302). -/
def Dev.handOn (P : Part) (d : Dev) (k : LinkId) (f : RxFrame) (v : Fin 65) (u : Nat) (gap : Bool) : Dev :=
  let d := d.holdUnits k v u
  let d := if gap && k == 2 && v == 64 then d.cpGap else d
  let fwd := fun (d : Dev) => d.stage { link := d.lineLink P, vc := v, typ := fld f.w0 8 8, srcDst := fld f.w2 0 8, payload := f.payload, more := bit f.w1 16, age := 0, line := none, answer := false, rx := some (k, u) }
  match fld f.w0 8 8 with
  | 1 => fwd d
  | 2 =>
    let n := d.kl.inbox.length
    ((messages (f.payload.length / 8) f.payload).foldl (fun d m => d.takeMsg P k m) d).lastHolds k n u
  | 3 =>
    if d.slaved P ∧ k = 2 then fwd d
    else if !([2, 3] : List Byte).contains (f.payload.headD 0) then d.freeUnits k v u
    else d.updKl fun x => { x with casIn := x.casIn ++ [{ link := k, mtype := 0x103, tag := f.w2, body := [], units := u, age := d.cycle, raw := f.payload }] }
  | _ => if k = 2 then d.cpFrame f u else d.freeUnits k v u

/-- The TYPE is listed and matches the VC and the link (10 R235 table). -/
def typeFits (k : LinkId) (typ vc : Nat) : Bool :=
  match typ with
  | 1 => decide (vc < 64)
  | 2 => vc == 64
  | 3 => vc == 64 && k != 0
  | 4 => vc == 64 && k != 0
  | _ => false

/-- FRAME_RECEIVE (10 R235, R236, R238, R232, 13 R302). -/
def Dev.frameReceive (P : Part) (d : Dev) (k : LinkId) (f : RxFrame) : Dev :=
  let l := d.kl.links[k]
  if l.st ≠ .active then d
  else
    let len := fld f.w0 16 16
    let vc := fld f.w0 0 7
    let head := [f.w0, f.w1, f.w2, f.w3].flatMap wordBytes
    let crc := crc32 (head ++ f.payload ++ List.replicate (framePad f.payload.length) 0)
    let uRx := (f.blocks * 8 + 255) / 256
    let u := frameUnits len
    let stray := f.stray || f.sofVc.toNat != vc || decide (l.maxPay < len) || f.payload.length != len || f.blocks != (16 + len + framePad len + 4) / 8 ||
      !typeFits k (fld f.w0 8 8) vc
    if crc ≠ f.crc then (d.dropPart k).dropFrame k f.sofVc.toNat uRx 1
    else if stray then (d.dropPart k).dropFrame k f.sofVc.toNat uRx 4
    else if h : vc < 65 then
      let b := l.books[vc]
      if (l.limited ∧ vc < 64) ∨ (k = 2 ∧ vc < 64 ∧ b.own = 0) then d.dropFrame k vc u 4
      else if b.own < b.held + u then (d.dropPart k).dropFrame k vc u 3
      else
        let d := d.updLink k fun l => { l with books := upd l.books ⟨vc, h⟩ fun b => { b with fseqIn := some (f.w1.extractLsb' 0 16) } }
        d.handOn P k f ⟨vc, h⟩ u (b.fseqIn.any fun q => q + 1 != f.w1.extractLsb' 0 16)
    else d

/-- A message's command may take effect: its message stands in front of the receive buffer, for the device executes messages in arrival order (10 R243), or the buffer is empty and the command itself is the arrival (log 39). -/
def Dev.isNext (d : Dev) (mine : RxMsg → Bool) : Bool :=
  match d.kl.inbox with
  | x :: _ => mine x
  | [] => true

/-- The units of a message that has been executed are freed (13 R301). -/
def Dev.msgDone (d : Dev) : Option RxMsg → Dev
  | some m => d.freeUnits m.link 64 m.units
  | none => d

/-- The effect of a message's command on the message itself: it leaves the receive buffer and goes to `f`, which frees its units; nothing happens while another message stands in front. -/
def Dev.withMsg (d : Dev) (mine : RxMsg → Bool) (f : Option RxMsg → Dev → Dev) : Dev :=
  match d.kl.inbox with
  | x :: rest => if mine x then f (some x) (d.updKl fun k => { k with inbox := rest }) else d
  | [] => f none d

/-- The effect of a message that is done with its command. -/
def Dev.asMsg (d : Dev) (mine : RxMsg → Bool) (f : Dev → Dev) : Dev := d.withMsg mine fun m d => f (d.msgDone m)

/-! ### DEEP and MEASURE -/

/-- Event 42 (10 R246, R248). -/
def Dev.deepEvent (d : Dev) (k : LinkId) (entered : Bool) : Dev := d.raise 42 (place (firstLane k).val 0 ||| flag entered 8)

/-- DEEP entered with a last answer, if any, and 16 IDLE blocks behind it: books frozen, and under AUTOWAKE a wake at once for a frame that could have been sent (10 R246, R247). -/
def Dev.enterDeepBy (P : Part) (d : Dev) (k : LinkId) (answer : List Block) : Dev :=
  let waiting := d.kl.staged.any (d.maySend k)
  let d := d.settleLink P k
  let d := d.sendStream k (answer ++ List.replicate 16 (ctlBlock 0x1E []))
  let d := ((d.updLink k fun l => { l with st := .deep, deepReq := false, deepWant := false, measuring := false, meas := 0 }).pllCheck P).deepEvent k true
  let d := d.updPwr fun p => { p with deepWait := p.deepWait.filter fun j => j != k }
  if d.autoWake ∧ d.phase = .run ∧ waiting then d.linkWake k else d

/-- DEEP entered by the side that has asked for it (10 R246). -/
def Dev.enterDeep (P : Part) (d : Dev) (k : LinkId) : Dev := d.enterDeepBy P k []

/-- DEEP_REQ (10 R246). -/
def Dev.deepReqRx (P : Part) (d : Dev) (n : LaneId) (b : Block) : Dev :=
  let k := laneLink n
  d.onBlock n b 0x55 fun d =>
    if (d.kl.links[k]).st ≠ .active ∨ octet b 1 ≠ 0 then d
    else if (d.kl.links[k]).deepReq then d.enterDeep P k
    else if bit (d.lkCfg k) 4 then d.sendStream k [ctlBlock 0x55 [2]]
    else d.enterDeepBy P k [ctlBlock 0x55 [1]]

/-- DEEP_ACK (10 R246). -/
def Dev.deepAckRx (P : Part) (d : Dev) (n : LaneId) (b : Block) : Dev :=
  let k := laneLink n
  d.onBlock n b 0x55 fun d => if (d.kl.links[k]).st = .active ∧ (d.kl.links[k]).deepReq ∧ octet b 1 = 1 then d.enterDeep P k else d

/-- DEEP_NAK (10 R246): whether a NAK was taken. -/
def Dev.deepNakRx (d : Dev) (n : LaneId) (b : Block) : Bool × Dev :=
  let k := laneLink n
  if (d.kl.links[k]).st = .active ∧ (d.kl.links[k]).deepReq ∧ blockGood b ∧ octet b 0 = 0x55 ∧ octet b 1 = 2 then
    (true, (d.updLink k fun l => { l with deepReq := false }).deepEvent k false)
  else (false, d.onBlock n b 0x55 fun d => d)

/-- SQUELCH_OPEN (10 R247): the side answers by waking the link. -/
def Dev.squelchOpen (d : Dev) (n : LaneId) : Dev := (d.updLane n fun x => { x with signal := true }).linkWake (laneLink n)

/-- WAKE_BLOCK_RECEIVE (10 R229, R247): WAKE or IDLE in resuming LOCK. -/
def Dev.wakeBlock (d : Dev) (n : LaneId) (b : Block) : Dev :=
  let k := laneLink n
  d.onBlock n b (if octet b 0 = 0x66 then 0x66 else 0x1E) fun d =>
    if (d.kl.links[k]).resuming then (d.updLane n fun x => { x with woke := true }).resumeCheck k else d

/-- DEEP_EXIT_TIMEOUT (10 R229). -/
def Dev.deepExitTimeout (P : Part) (d : Dev) (k : LinkId) : Dev :=
  if (d.kl.links[k]).resuming then (d.linkTo P k .detect).linkDown k 5 else d

/-- Bits checked in a MEASURE with a count, in units of 65,536: those of the 1,023 data blocks of each group (10 R244, R245). -/
def measureBits (n : Nat) : Nat := n * 64 * 1023 * 64 / 65536

/-- MEASURE begins (10 R244, R245): groups with MEASURE = 1 and the count on every used lane. -/
def Dev.measureBegin (P : Part) (d : Dev) (k : LinkId) (n : Nat) : Dev :=
  (d.usedLanes k).foldl (fun d m => (d.updLane m fun x => { x with prbsTo := measureBits n }).sendGroup m n)
    (((d.settleLink P k).updLink k fun l => { l with measuring := true, meas := n, measAt := d.cycle }).clearPrbs P k)

/-- MEASURE_REQUEST_RECEIVE (10 R245). -/
def Dev.measureRx (P : Part) (d : Dev) (n : LaneId) (b : Block) : Dev :=
  let k := laneLink n
  d.onTrain n b fun d =>
    if (d.kl.links[k]).st = .active ∧ (octet b 1).getLsbD 1 ∧ octet b 5 ≠ 0 ∧ !(d.kl.links[k]).measuring then
      (d.updLane n fun x => { x with eq := if d.eqDef k then x.eq else ffeTake x.eq (octet b 3) }).measureBegin P k (octet b 5).toNat
    else d

/-- KL_LKk_MEAS written (10 R245). -/
def Dev.measureStart (P : Part) (d : Dev) (k : LinkId) (n : Byte) : Dev :=
  let l := d.kl.links[k]
  if l.st = .active ∧ !l.measuring ∧ n ≠ 0 then d.measureBegin P k n.toNat else d

/-- MEASURE_END (10 R245), once block lock holds: every bit of the MEASURE has been checked; the errors met are open (log 14). -/
def Dev.measureEnd (d : Dev) (k : LinkId) : Dev :=
  let l := d.kl.links[k]
  if l.measuring ∧ (d.usedLanes k).all fun n => (d.kl.lanes[n]).blockLock then
    let d := (d.usedLanes k).foldl (fun d n =>
      let (f, d) := d.takeFree
      d.updLane n fun x => { x with prbsBits := nword x.prbsTo, prbsErr := satAdd x.prbsErr (Config.lineErrors f) }) d
    (d.updLink k fun l => ({ l with measuring := false, meas := 0 } : Link).unpark).deepTry k
  else d

/-! ### Registers -/

/-- STATE code of a link. -/
def linkCode : LinkState → Nat
  | .disabled => 0
  | .detect => 1
  | .train => 2
  | .lock => 3
  | .exchange => 4
  | .active => 5
  | .deep => 6
  | .fault => 7

/-- KL_LKk_STATE. -/
def Dev.lkState (d : Dev) (k : LinkId) : Word :=
  let l := d.kl.links[k]
  place (linkCode l.st) 0 ||| flag l.limited 3 ||| place l.rate 4 ||| flag l.two 6 ||| flag l.skewErr 7 ||| flag (d.lkLive k) 8 ||| place l.ladder 12

/-- KL_LKk_MEAS: the units of 65,536 blocks left (10 R245, R249; log 78). -/
def Dev.measLeft (d : Dev) (k : LinkId) : Nat :=
  let l := d.kl.links[k]
  l.meas - blocksIn l.rate (d.cycle - l.measAt) / 65536

/-- KL_LNn_STATE. -/
def Dev.lnState (d : Dev) (n : LaneId) : Word :=
  let x := d.kl.lanes[n]
  flag x.detected 0 ||| flag x.signal 1 ||| flag x.blockLock 2 ||| flag (d.kl.links[laneLink n]).measuring 3 ||| flag x.adapted 4

/-- KL_VCv_TX and KL_VCv_RX, and their like in CAS. -/
def VcBook.tx (b : VcBook) : Word := place b.avail 0 ||| place b.partner 16
/-- Units held and own allocation. -/
def VcBook.rx (b : VcBook) : Word := place b.held 0 ||| place b.own 16

/-- RESTRICTED boot brings link 0 up at rate 0 on one lane with EQDEF = 1 (10 R234). -/
def Dev.restrictedLink (d : Dev) : Dev := d.setReg 0x90100 0x21

end Sys2Proof.Machine
end

