-- ==== Sys2Proof/Machine/Cas.lean ====
section
/-!
DEFINITION. Chains and redundant pairs: enumeration, members' fires and segments, the timebase, checkpoints, and takeover (13 R295-R321).
-/
namespace Sys2Proof.Machine

/-! ### Enumeration -/

/-- The chain address the device answers to: its own as a member, 0 otherwise (13 R296, R298, 16 R370). -/
def Dev.ownAddr (P : Part) (d : Dev) : Nat := if d.role P = 0 then d.cas.addr.toNat else 0

/-- A cascade message sent upwards on CU. -/
def Dev.sendUp (d : Dev) (t : Nat) (a : Nat) : Dev := d.stageMsg 1 t 0 [nword a] false

/-- A message to all members passed on down the chain where a device stands below; staged, it waits for link 2 (13 R299). -/
def Dev.passDown (P : Part) (d : Dev) (t : Nat) (body : List Word) : Dev :=
  if d.role P = 0 ∧ d.downOk then d.stageMsg 2 t 0 body false else d

/-- CAS_CHAIN_CTL.ENUM set (13 R298): the master sends ASSIGN(1), which its framer keeps until link 2 is ACTIVE. -/
def Dev.enumStart (P : Part) (d : Dev) : Dev :=
  if P.casc ∧ d.role P = 1 then (d.updCas fun c => { c with enumerating := true, enumDone := false }).stageMsg 2 0x10 0 [1] false else d

/-- ASSIGN received (13 R298). -/
def Dev.assignRx (P : Part) (d : Dev) (b : BitVec 4) : Dev :=
  let a := d.cas.addr
  if d.role P = 0 ∧ a ≠ 0xF then
    if b = a then d.sendUp 0x11 a.toNat
    else if a.toNat < b.toNat then
      if a = 7 ∧ b = 8 then d.sendUp 0x12 7
      else (d.stageMsg 2 0x10 0 [b.setWidth 32] false).updCas fun c => { c with timer := true }
    else d.updCas fun c => { c with enumErr := true }
  else if d.role P = 0 ∧ d.pins.chnI ∧ (d.kl.links[(1 : LinkId)]).st = .active then
    (d.updCas fun c => { c with addr := b, chnO := true }).sendUp 0x11 b.toNat
  else d.updCas fun c => { c with enumErr := true }

/-- ASSIGNED received (13 R298). -/
def Dev.assignedRx (P : Part) (d : Dev) (b : BitVec 4) : Dev :=
  if d.role P = 0 then (d.updCas fun c => { c with timer := false }).sendUp 0x11 b.toNat
  else if d.cas.enumerating then d.stageMsg 2 0x10 0 [b.setWidth 32 + 1] false
  else d

/-- CHAIN_END received (13 R298). -/
def Dev.chainEndRx (P : Part) (d : Dev) (a : BitVec 4) : Dev :=
  if d.role P = 0 then (d.updCas fun c => { c with timer := false }).sendUp 0x12 a.toNat
  else (d.updCas fun c => { c with len := (a.toNat + 1) % 16, enumerating := false, enumDone := true }).raise 44 (a.setWidth 32)

/-- ENUM_TIMEOUT (13 R298). -/
def Dev.enumTimeout (d : Dev) : Dev :=
  if d.cas.timer then (d.updCas fun c => { c with timer := false }).sendUp 0x12 d.cas.addr.toNat else d

/-! ### Members -/

/-- CHAIN_START received (13 R304, R305, R321): a member of a widened or deepened chain sets its line store's geometry and begins to keep captures as LINE START does on a device of its own (DEDUCED, log 85). -/
def Dev.chainStartRx (P : Part) (d : Dev) (n0 : Word) (pstr : Nat) : Dev :=
  let d := if d.slaved P then ((d.startGeom P).agePrevious).updPix fun x => { x with hist := [] } else d
  (if d.role P = 0 then d.updCas fun c => { c with joined := true, nextLine := n0, mPstr := pstr, seg := d.reg 0xC0010 } else d).passDown P 0x13 [n0, nword pstr]

/-- CHAIN_STOP received (13 R305). -/
def Dev.chainStopRx (P : Part) (d : Dev) : Dev :=
  (if d.role P = 0 then d.updCas fun c => { c with joined := false } else d).passDown P 0x14 []

/-- SEAMSET received (13 R304). -/
def Dev.seamsetRx (P : Part) (d : Dev) (v h : Byte) : Dev :=
  (if d.role P = 0 then d.updCas fun c => { c with seamSet := some (v, h) } else d).passDown P 0x15 [v.setWidth 32 ||| (h.setWidth 32 <<< 8)]

/-- A member pulls LHOLD_N low (13 R305); in STANDBY the ball keeps its level (14 R325). -/
def Dev.lholdPulled (P : Part) (d : Dev) : Bool :=
  P.casc && d.role P == 0 && (if d.asleep then d.cas.lholdKept else !d.cas.joined || d.freeSlot.isNone || !d.acqReady)

/-- A member's numbered line, overlap or guard capture (13 R304): a numbered pulse takes the next number and loads SEAMSET offsets even where no slot is FREE for its line. -/
def Dev.memberFire (P : Part) (d : Dev) (kind : Capture) : Dev :=
  match kind with
  | .numbered =>
    let line := d.cas.nextLine
    let (v, h) := d.cas.seamSet.getD (d.hng.voff, d.hng.hoff)
    let d := (d.updHng fun x => { x with voff := v, hoff := h }).updCas fun c => { c with nextLine := line + 1, seamSet := none }
    match d.freeSlot with
    | some n => (d.takeSlot P n .numbered line { pos := d.trigPu, ts := d.stb, voff := v, hoff := h }).fireAcq .numbered line n
    | none => d
  | k =>
    match d.freeSlot with
    | some n =>
      let (f, d) := d.takeFree
      (d.takeSlot P n k (Config.memberLine f) { pos := d.trigPu, ts := d.stb }).fireAcq k (Config.memberLine f) n
    | none => d

/-- The device listens to LSYNC: a member, or a pair device that does not drive it (13 R297, R309). -/
def Dev.hearsLsync (P : Part) (d : Dev) : Bool :=
  P.casc && (d.role P == 0 || (d.pairRole P && d.cas.pair != .active && d.cas.pair != .activeSolo))

/-- The width that a pulse stands for: it is decoded within 2 cycles either way (13 R297, 17 R392). -/
def lsyncWidth (w : Nat) : Option Nat := [8, 16, 24, 32].find? fun n => decide (n ≤ w + 2 ∧ w ≤ n + 2)

/-- LSYNC_PULSE (13 R297, R304, R309): counted, its start latched in STB and the counted encoder position, and acted on by its width. -/
def Dev.lsyncPulse (P : Part) (d : Dev) (width : Nat) : Dev :=
  if !d.hearsLsync P then d
  else if (lsyncWidth width).isNone then d.cfgErr
  else
    let (f, d) := d.takeFree
    let n := d.cas.lsyncCnt + 1
    let t : Pos := d.stb - BitVec.ofNat 48 (width + 3 + (Config.lsyncLate f).toNat)
    let d := d.updCas fun c => { c with
      lsyncCnt := n, lsStb := tabIns n.toNat t (tabDel n.toNat c.lsStb), lsEnc := tabIns n.toNat (d.counted 0) (tabDel n.toNat c.lsEnc) }
    if d.slaved P then
      match lsyncWidth width with
      | some 8 => d.memberFire P .numbered
      | some 16 => d.memberFire P .overlap
      | some 24 => d.memberFire P .guard
      | _ => d
    else d

/-- TBSYNC received (13 R309). -/
def Dev.tbsyncRx (P : Part) (d : Dev) (cnt : Half) (stb : Pos) : Dev :=
  let d := match d.cas.lsStb.lookup cnt.toNat with
    | some t => if d.hearsLsync P then d.updCas fun c => { c with tbOfs := (stb - t).toInt, tbValid := true } else d
    | none => d
  d.passDown P 0x16 [cnt.setWidth 32, stb.extractLsb' 0 32, (stb.extractLsb' 32 16).setWidth 32]

/-- TIMEBASE_PULSE of a MULTIPLY master (13 R303). -/
def Dev.timebasePulse (P : Part) (d : Dev) : Dev := if P.casc ∧ d.role P = 1 ∧ d.chainMode P = 0 then d.drivePulse 32 else d

/-! ### Segments -/

/-- The slot in FILL that holds a numbered line (13 R308). -/
def Dev.fillSlot (d : Dev) (line : Word) : Option (Fin 256) :=
  d.slotIds.find? fun n => (d.ls.slots[n]).st == .fill && (d.ls.slots[n]).kind == .numbered && (d.ls.slots[n]).line == line

/-- Event 45 for CD (13 R308). -/
def Dev.segLost (d : Dev) : Dev := (d.updCas fun c => { c with segLost := true }).raise 45 1

/-- Data written in bursts from an address, each by a grant of its own (01 R17): `put` writes one burst and tells what is left. The first burst asks since a cycle, the others since the one before them. -/
def Dev.inBursts (granted : Dev → Nat → Nat → Bool) (put : Dev → Nat → List Byte → List Byte × Dev) : Nat → Nat → Dev → Nat → List Byte → List Byte × Dev
  | 0, _, d, _, bs => (bs, d)
  | fuel + 1, age, d, a, bs =>
    if bs.isEmpty || !granted d age a then (bs, d)
    else
      let r := put d a bs
      Dev.inBursts granted put fuel r.2.cycle r.2 (a + (bs.length - r.1.length)) r.1

/-- Data written by cascade ingress beat by beat from an address (01 R17, R18, 03 R78): bytes in an egress window go to the framer, which appends them to no line (DESIGN CHOICE, log 89); a beat that it cannot reach freezes it. So many beats are written; what is left comes back. -/
def Dev.ingressBeats (P : Part) : Nat → Dev → Nat → List Byte → List Byte × Dev
  | 0, d, _, bs => (bs, d)
  | fuel + 1, d, a, bs =>
    let n := 16 - a % 16
    if bs = [] then ([], d)
    else if (egressStream a).isSome then Dev.ingressBeats P fuel d (a + n) (bs.drop n)
    else if reaches .cascIn (regionOf P a) then Dev.ingressBeats P fuel (d.store P a (bs.take n)) (a + n) (bs.drop n)
    else (bs.drop n, d.freezeMst P .cascIn 0x0A 0 { addr := nword a, size := 16, write := true } 0)

/-- Word i of a payload. -/
def cpWord (bs : List Byte) (i : Nat) : Word := nword (leNat ((bs.drop (4 * i)).take 4))

/-- A received CASCADE frame of a kind, from a chain address, for a line (13 R307). -/
def cascadeIs (m : RxMsg) (kind : Byte) (src : BitVec 4) (line : Word) : Bool :=
  m.mtype == 0x103 && m.raw.headD 0 == kind && fld m.tag 0 4 == src.toNat && cpWord m.raw 2 == line

/-- A CASCADE frame's command acts on the frame in front of cascade ingress's buffer, or is itself its arrival (10 R236, 13 R301; log 39): what is left of the frame stays in front. -/
def Dev.withCasc (d : Dev) (mine : RxMsg → Bool) (fresh : RxMsg) (f : RxMsg → Dev → Option RxMsg × Dev) : Dev :=
  match (match d.kl.casIn with | m :: rest => if mine m then some (m, rest) else none | [] => some (fresh, [])) with
  | none => d
  | some (m, rest) =>
    let r := f m (d.updKl fun k => { k with casIn := rest })
    match r.1 with
    | some m => r.2.updKl fun k => { k with casIn := m :: k.casIn }
    | none => r.2.freeUnits m.link 64 m.units

/-- A CASCADE frame as it arrives (13 R307). -/
def cascadeMsg (d : Dev) (kind : Nat) (src : BitVec 4) (off line : Word) (data : List Byte) : RxMsg :=
  { link := 2, mtype := 0x103, tag := src.setWidth 32, body := [], units := 0, age := d.cycle, raw := [nword kind, off, line, 0].flatMap wordBytes ++ data }

/-- SLOTWRITE (13 R308): written at its byte offset in the slot in bursts of up to 16 beats, each once the port grants it (`granted` of an age and an address; 01 R17); outside the line store it freezes cascade ingress (03 R76), which keeps the frame and goes on with the next held beat after THAW (03 R78). -/
def Dev.slotwriteRx (P : Part) (d : Dev) (granted : Dev → Nat → Nat → Bool) (src : BitVec 4) (off line : Word) (data : List Byte) : Dev :=
  let mine : RxMsg → Bool := fun m => cascadeIs m 2 src line && cpWord m.raw 1 == off && m.raw.drop 16 == data
  if d.frozen .cascIn then d
  else
    d.withCasc mine (cascadeMsg d 2 src off line data) fun m d =>
      match d.fillSlot line with
      | some n =>
        let go := fun (d : Dev) age a => !d.frozen .cascIn && (!reaches .cascIn (regionOf P a) || granted d age a)
        let (rest, d) := Dev.inBursts go (Dev.ingressBeats P 16) (data.length + 1) (max m.age m.nextAt) d (d.slotBase n.val + off.toNat + m.did) (data.drop m.did)
        let did := data.length - rest.length
        if rest ≠ [] then (some { m with did := did, nextAt := if did = m.did then m.nextAt else d.cycle }, d) else (none, d)
      | none => (none, d.segLost)

/-- SEGEND (13 R308). -/
def Dev.segendRx (P : Part) (d : Dev) (src : BitVec 4) (line : Word) : Dev :=
  if d.frozen .cascIn then d
  else
    d.withCasc (fun m => cascadeIs m 3 src line) (cascadeMsg d 3 src 0 line []) fun _ d =>
      (none, match d.fillSlot line with
        | some n => (d.updSlot n fun s => { s with segs := s.segs ||| (1#8 <<< src.toNat) }).lineStoreComplete P n
        | none => d.segLost)

/-- CAS_SEGTMO in microseconds: 0 acts as 1,000 (13 R321). -/
def Dev.segTmoUs (d : Dev) : Nat := if fld (d.reg 0xC0014) 0 16 = 0 then 1000 else fld (d.reg 0xC0014) 0 16

/-- SEGMENT_TIMEOUT (13 R308): CAS_SEGTMO has passed since the writer finished. -/
def Dev.segTimeout (P : Part) (d : Dev) (n : Fin 256) : Dev :=
  let s := d.ls.slots[n]
  if n.val < d.ls.geom.nslot ∧ s.st = .fill ∧ s.kind = .numbered ∧ s.written ∧ d.assembling P ∧ !d.segsIn P s ∧ s.wroteAt + 400 * d.segTmoUs ≤ d.cycle then
    (((d.updCas fun c => { c with segTmo := true }).raise 45 1)).slotDone P n
  else d

/-! ### Pair states and checkpoints -/

/-- TPEER of a pitch and speed (13 R311). -/
def tpeerOf (run : Bool) (pitch vscan : Nat) : Nat := if run then max (3 * pitch / vscan) 200 else 200

/-- The scanner outputs are let go: a pulse in progress or due ends (06 R154, 13 R310, R320). -/
def Dev.endPulses (d : Dev) : Dev := { d with led := d.led.map fun l => { l with on := false, armed := false } }

/-- STANDBY entered (13 R310, R311): the Hinge of a standby is OFF (15 "STANDBY pair × pacing"), and no earlier line of its own is awaited or repeated. -/
def Dev.enterStandby (P : Part) (d : Dev) : Dev :=
  let d := (d.lineStop P).2.endPulses.updCas fun c => { c with
    pair := .standby, cp := none, cpLast := none, tpeer := 200, heardAt := d.cycle, loaded := false, peerLive := false }
  d.updKl fun k => { k with lineOut := [], secured := [] }

/-- Outputs released and the run ended when PAIR_FORCE_I is high (13 R310, R320): open lines end with ABORTED, and the bytes that their channels still bring are dropped. -/
def Dev.depose (P : Part) (d : Dev) : Dev :=
  let d := d.endPulses.updCas fun c => { c with pair := .deposed, forced := true }
  let d := (List.finRange 64).foldl (fun d c => if (d.ctx[c]).mirror ≠ 0 then d.ctxStop P c else d) d
  let d := (d.lineStop P).2
  let d := d.updKl fun k => { k with staged := k.staged.filter fun f => f.vc == 64, lineOut := [], secured := [] }
  d.kl.opened.foldl (fun d o =>
    (if h : o.1 < 64 then d.closeLine P ⟨o.1, h⟩ o.2.chan o.2.slot true else d.setOpen o.1 none).updDma o.2.chan fun k => { k with shut := some o.2.slot }) d

/-- A device in ACTIVE or ACTIVE_SOLO with PAIR_FORCE_I high is deposed (13 R310). -/
def Dev.forceCheck (P : Part) (d : Dev) : Dev :=
  if d.pins.forceI ∧ (d.cas.pair = .active ∨ d.cas.pair = .activeSolo) then d.depose P else d

/-- CAS_PAIR_CTL written (13 R310). -/
def Dev.pairCtlWrite (P : Part) (d : Dev) (v : Word) : Dev :=
  let d := d.writeReg P 0xC0040 v
  if bit v 0 ∧ d.cas.pair = .off then
    (if d.role P = 2 then (d.updCas fun c => { c with pair := .activeSolo }).forceCheck P else if d.role P = 3 then d.enterStandby P else d)
  else d

/-- CAS_PAIR_CMD.REPAIR (13 R310, R315). -/
def Dev.repair (d : Dev) : Dev := d.updCas fun c => { c with forceO := false }

/-- CAS_PAIR_CMD.REJOIN (13 R310). -/
def Dev.rejoin (P : Part) (d : Dev) : Dev := if d.cas.pair = .deposed ∧ !d.pins.forceI then d.enterStandby P else d

/-- PAIR_FORCE_IN (13 R310, R320), on a part with pair mode. -/
def Dev.pairForceIn (P : Part) (d : Dev) (high : Bool) : Dev :=
  ({ d with pins := { d.pins with forceI := high } }).forceCheck P

/-- PAIR_HELLO received (13 R310): it ends ACTIVE_SOLO and restarts the peer timer of ACTIVE; the other states do not hear it. -/
def Dev.helloRx (d : Dev) : Dev :=
  if d.cas.pair = .activeSolo ∧ (d.kl.links[(2 : LinkId)]).st = .active then
    d.updCas fun c => { c with pair := .active, peerLive := true, tpeer := 200, heardAt := d.cycle }
  else if d.cas.pair = .active then d.updCas fun c => { c with heardAt := d.cycle }
  else d

/-- Number of a pair state. -/
def pairCode : PairState → Nat
  | .off => 0
  | .activeSolo => 1
  | .active => 2
  | .standby => 3
  | .takeover => 4
  | .deposed => 5

/-- PAIR_HELLO_SEND (13 R310). -/
def Dev.helloSend (d : Dev) : Dev := if d.cas.pair = .standby then d.stageMsg 2 0x17 0 [3] false else d

/-- A stream's GRANTED and DELIVERED after a line (13 R312, R319): as noted when the line was secured; where the stream has been opened or closed since, or no line was secured, as they stand without the deliveries of later lines. -/
def Stream.bookAfter (x : Stream) (line : Word) (later : List LineOut) (s : Nat) : List Word :=
  match x.after.lookup line with
  | some b => [b.1, b.2]
  | none => [x.granted, deliveredAfter x later s]

/-- One context's part of a checkpoint (13 R312): a frozen context is recorded as STOPPED. -/
def ctxSection (n : Nat) (x : Ctx) : List Word :=
  [place n 0 ||| place (if x.frozen then 0 else runCode x.run) 6 ||| ((x.mirror &&& 0xFFFE) <<< 16), x.pc, stWord x, x.emask.extractLsb' 0 32, x.emask.extractLsb' 32 32] ++
    ((List.finRange 16).filter fun r => r.val != 0 && bit x.mirror r.val).map fun r => x.g[r]

/-- The words of a full checkpoint (13 R312). -/
def Dev.cpWords (P : Part) (d : Dev) (seq : Word) (o : LineOut) (later : List LineOut) : List Word :=
  let cs := ((List.finRange 64).filter fun c => (d.ctx[c]).mirror &&& 0xFFFE != 0).flatMap fun c => ctxSection c.val d.ctx[c]
  let m1 := (d.mot[(1 : AxisId)]).p / 65536
  [seq, flag d.running 1, o.line, o.lsync.setWidth 32, iword o.grid, hi48 o.grid, iword o.enc, hi48 o.enc, iword m1, hi48 m1,
    d.hngState P, d.hng.seam, d.reg 0x5000C, d.reg 0x5002C, d.hngCtl, nword (4 * cs.length)] ++
  (List.finRange 64).flatMap (fun s => (d.hng.streams[s]).cfg :: (d.hng.streams[s]).bookAfter o.line later s.val ++ [0]) ++ cs

/-- CHECKPOINT frames staged on CD, every one but the last with MORE (13 R312). -/
def Dev.stageCp (d : Dev) (t : CpTag) : Nat → List Byte → Dev
  | 0, _ => d
  | fuel + 1, bs =>
    let n := d.payCap 2
    let f : Staged := { link := 2, vc := 64, typ := 4, srcDst := 0, payload := bs.take n, more := decide (n < bs.length), age := 0, line := none, answer := false, cp := some t }
    if bs.length ≤ n then d.stage f else (d.stage f).stageCp t fuel (bs.drop n)

/-- The line fields of a checkpoint before any line has been secured (log 23). -/
def blankLine (f : Nat) : LineOut :=
  { line := Config.noLine f 0, grid := (Config.noLine f 1).toInt, enc := (Config.noLine f 2).toInt, lsync := (Config.noLine f 3).extractLsb' 0 16, need := 0 }

/-- CD in DEEP stops checkpoints and heartbeats (15 R362). -/
def Dev.cpStopped (d : Dev) : Bool := (d.kl.links[(2 : LinkId)]).st == .deep

/-- CHECKPOINT_SEND (13 R312): of the oldest secured line, or of the last one again while none is secured. -/
def Dev.checkpointSend (P : Part) (d : Dev) : Dev :=
  if d.cas.pair ≠ .active ∨ d.cpStopped then d
  else
    let (o, later, sec, d) : LineOut × List LineOut × Bool × Dev := match d.kl.secured with
      | o :: rest => (o, rest ++ d.kl.lineOut, true, d.updKl fun k => { k with secured := rest })
      | [] => match d.cas.cpLast with
        | some o => (o, d.kl.lineOut, false, d)
        | none => (blankLine d.free, d.kl.lineOut, false, d.takeFree.2)
    let seq := d.cas.nextCp
    let bs := (d.cpWords P seq o later).flatMap wordBytes
    (d.updCas fun c => { c with nextCp := seq + 1, cpLast := if sec then some o else c.cpLast }).stageCp ⟨seq, o.line, true, sec, tpeerOf d.running d.pitch d.vscan⟩ (bs.length + 1) bs

/-- HEARTBEAT_SEND (13 R312). -/
def Dev.heartbeatSend (d : Dev) : Dev :=
  if d.cas.pair ≠ .active ∨ d.cpStopped then d
  else
    let seq := d.cas.nextCp
    (d.updCas fun c => { c with nextCp := seq + 1 }).stageCp ⟨seq, 0, false, false, 0⟩ 1 ([seq, flag true 0 ||| flag d.running 1].flatMap wordBytes)

/-- A 48-bit position of a checkpoint. -/
def cpPos (bs : List Byte) (i : Nat) : Int := pos48 (cpWord bs (i + 1)) (cpWord bs i)

/-- The first byte of the half that the next checkpoint is written to (13 R313). -/
def Dev.cpHalfAt (d : Dev) : Nat := (d.reg 0xC004C &&& 0xFFFFC000).toNat + (if d.cas.cpHalf then 0x2000 else 0)

/-- What a checkpoint that has been written whole tells: the encoder origin is aligned (13 R311, R313, R317). -/
def Dev.checkpointTake (d : Dev) (bs : List Byte) : Dev :=
  let d := d.updCas fun c => { c with
    heardAt := d.cycle, cp := some bs, cpHalf := !c.cpHalf, cpSeq := cpWord bs 0, cpLine := cpWord bs 2
    tpeer := tpeerOf (bit (cpWord bs 1) 1) (max 256 (cpWord bs 12).toNat) (cpWord bs 13).toNat }
  match d.cas.lsEnc.lookup (fld (cpWord bs 3) 0 16) with
  | some e =>
    let dx := cpPos bs 6 - e
    (d.updMot 0 fun x => { x with encOrg := x.encOrg + dx }).updCas fun c => { c with lsEnc := c.lsEnc.map fun y => (y.1, y.2 + dx) }
  | none => d

/-- CHECKPOINT_RECEIVE (13 R301, R311, R313): the checkpoint in front of mirror ingress, or one that arrives now, is written in bursts of 16 beats, each once the port grants it (`granted` of an age and an address; 01 R17); a heartbeat only restarts the peer timer. -/
def Dev.checkpointRx (P : Part) (d : Dev) (granted : Dev → Nat → Nat → Bool) (bs : List Byte) : Dev :=
  match (match d.kl.mirIn with
    | m :: rest => if m.raw == bs then some (m, rest) else none
    | [] => some ({ link := 2, mtype := 0x104, tag := 0, body := [], units := 0, age := d.cycle, raw := bs }, [])) with
  | none => d
  | some (m, rest) =>
    let taken := (d.updKl fun k => { k with mirIn := rest }).freeUnits m.link 64 m.units
    if d.cas.pair ≠ .standby ∨ d.frozen .mirrorIn then taken
    else if bit (cpWord bs 1) 0 then taken.updCas fun c => { c with heardAt := d.cycle }
    else if regionOf P d.cpHalfAt ≠ .pd then
      (taken.updCas fun c => { c with heardAt := d.cycle }).freezeMst P .mirrorIn 0x0A 0 { addr := nword d.cpHalfAt, size := 16, write := true } 0
    else
      let put := fun (d : Dev) a (bs : List Byte) => (bs.drop 256, d.store P a (bs.take 256))
      let (left, e) := Dev.inBursts granted put (bs.length + 1) (max m.age m.nextAt) d (d.cpHalfAt + m.did) (bs.drop m.did)
      let did := bs.length - left.length
      if left = [] then ((e.updKl fun k => { k with mirIn := rest }).freeUnits m.link 64 m.units).checkpointTake bs
      else e.updKl fun k => { k with mirIn := { m with did := did, nextAt := if did = m.did then m.nextAt else e.cycle } :: rest }

/-- The peer timer has run for n times TPEER: it counts in CK_CORE cycles, which STANDBY stops, and not while CD resumes from DEEP (13 R310, R311, 15 R362). -/
def Dev.peerSilent (d : Dev) (n : Nat) : Bool :=
  !(d.kl.links[(2 : LinkId)]).resuming && decide (d.cas.heardAt + 400 * (n * d.cas.tpeer) ≤ d.cycle)

/-- PAIR_PEER_LOST (13 R310, R315): after TPEER on the standby and 2 × TPEER on the active device. -/
def Dev.pairPeerLost (d : Dev) : Dev :=
  if !d.peerSilent (if d.cas.pair = .active then 2 else 1) then d else
  match d.cas.pair with
  | .standby =>
    if d.cas.cp.isSome then (d.updCas fun c => { c with pair := .takeover, forceO := true, loaded := false }).raise 47 d.cas.cpLine else d
  | .active =>
    ((d.updCas fun c => { c with pair := .activeSolo, peerLive := false, cpLast := d.kl.secured.getLast?.or c.cpLast }).updKl fun k => { k with secured := [] }).raise 47 d.cas.cpLine
  | _ => d

/-! ### Takeover -/

/-- One context loaded (13 R316): a context that is not STOPPED is skipped, and after a RECOVERY boot every context stays STOPPED (14 R338). -/
def Dev.loadCtx (P : Part) (d : Dev) (w0 pc st m0 m1 : Word) (vals : List Word) : Dev :=
  let c : CtxId := ⟨fld w0 0 6 % 64, Nat.mod_lt _ (by decide)⟩
  if (d.ctx[c]).run ≠ .stopped then d.updCas fun k => { k with ctxBusy := true }
  else
    let rs := (List.finRange 16).filter fun r => r.val != 0 && bit w0 (16 + r.val)
    d.setRun P c fun x => { x with
      g := (rs.zip vals).foldl (fun g p => g.set p.1 p.2) x.g
      pc := pc, z := bit st 0, n := bit st 1, c := bit st 2, v := bit st 3, abs := bit st 4
      emask := m1 ++ m0, queue := [], wake := none, urgent := 0, firstDue := false
      run := if d.recovery then .stopped else match fld w0 6 2 with | 1 => .ready | 2 => .waiting | _ => .stopped
      fetched := false
      issuableSince := d.cycle }

/-- The context section loaded (13 R312, R316). -/
def Dev.loadCtxs (P : Part) : Nat → Dev → List Word → Dev
  | 0, d, _ => d
  | fuel + 1, d, w0 :: pc :: st :: m0 :: m1 :: ws =>
    let n := ((List.range 16).filter fun r => r != 0 && bit w0 (16 + r)).length
    Dev.loadCtxs P fuel (d.loadCtx P w0 pc st m0 m1 (ws.take n)) (ws.drop n)
  | _ + 1, d, _ => d

/-- The Hinge loaded (13 R316, R318): with RUN = 1 it enters FROZEN_WAIT, which raises event 14 (02 R60), with the geometry that LINE START computes (DEDUCED, log 24). -/
def Dev.loadHinge (P : Part) (d : Dev) (bs : List Byte) : Dev :=
  let d := ((d.setReg 0x5000C (cpWord bs 12)).setReg 0x5002C (cpWord bs 13)).setReg 0x50000 (cpWord bs 14)
  let s := cpWord bs 2
  let g := cpPos bs 4
  let d := d.updHng fun h => { h with seamCnt := (cpWord bs 10).extractLsb' 16 16 }
  if bit (cpWord bs 1) 1 then
    let d := ((d.startGeom P).agePrevious).updPix fun x => { x with hist := [] }
    let k := max 2 (min 8 (fld d.hngCtl 4 4))
    (d.updHng fun h => { h with
      st := .frozenWait, reason := .takeover, keff := min k (((d.newGeom P).nslot - 2) / 2), origin := g + d.pitch, last := g, pLast := g, next := g + d.pitch
      noPin := true, lLast := s, lineNo := s + 1, fired := 0, kp := 0, dup := true, newLine := false, resumed := false, resumeOwed := false
      ovl := 0, ovlDone := 0, grd := 0, corr := .idle, reached := [], fullRaised := 0, stopDue := none, takeM0 := true, endM0 := false, revDone := false, vtgt := 0 }).raise 14 (place 4 0)
  else d

/-- An axis at rest at a position (13 R316). -/
def Dev.restAt (d : Dev) (m : AxisId) (p : Int) : Dev :=
  (d.updMot m fun x => { x with v := 0, a := 0, cmd := .none, next := none, takeUp := none }).setP m p

/-- TAKEOVER_LOAD (13 R315, R316). -/
def Dev.takeoverLoad (P : Part) (d : Dev) : Dev :=
  match d.cas.cp with
  | some bs =>
    if d.cas.pair = .takeover ∧ !d.cas.loaded then
      let n := (cpWord bs 15).toNat / 4
      let d := Dev.loadCtxs P (n + 1) d ((List.range n).map fun i => cpWord bs (272 + i))
      let d := (List.finRange 64).foldl (fun d s =>
        let i := 16 + 4 * s.val
        let w := cpWord bs i
        d.updStream s fun x => { x with
          opened := bit w 0, pace := bit w 1, owner := w.extractLsb' 8 6, gap := w.extractLsb' 16 16, gapAdd := 0, gapOut := 0
          granted := cpWord bs (i + 1), delivered := cpWord bs (i + 2), avail := cpWord bs (i + 1) - cpWord bs (i + 2)
          after := [(cpWord bs 2, cpWord bs (i + 1), cpWord bs (i + 2))] }) d
      let d := d.loadHinge P bs
      let d := (d.restAt 0 (if bit (cpWord bs 14) 2 then d.counted 0 else cpPos bs 4)).restAt 1 (cpPos bs 8)
      d.updCas fun c => { c with loaded := true, pLine := cpWord bs 2, cpLast := some ⟨cpWord bs 2, cpPos bs 4, cpPos bs 6, (cpWord bs 3).extractLsb' 0 16, 0, 0⟩ }
    else d
  | none => d

/-- PAIR_TAKEOVER (13 R310, R318). -/
def Dev.pairTakeover (P : Part) (d : Dev) : Dev :=
  if d.cas.pair = .takeover ∧ d.cas.loaded then
    let run : Bool := match d.cas.cp with | some bs => bit (cpWord bs 1) 1 | none => false
    ((d.updCas fun c => { c with pair := .activeSolo, loaded := false }).raise 46 (if run = true then d.cas.pLine + 1 else d.hng.lineNo)).forceCheck P
  else d

/-! ### Registers -/

/-- CAS_ROLE. -/
def Dev.casRole (P : Part) (d : Dev) : Word :=
  d.cas.strap.setWidth 32 ||| place (d.role P) 2 ||| (d.cas.addr.setWidth 32 <<< 4) ||| flag d.pins.chnI 8 ||| flag d.cas.chnO 9

/-- CAS_CHAIN_CTL as it reads: ENUM while an enumeration runs. -/
def Dev.chainCtl (d : Dev) : Word := flag d.cas.enumerating 0 ||| (d.reg 0xC0004 &&& 6)

/-- CAS_CHAIN_CTL written (13 R298, R321). -/
def Dev.chainCtlWrite (P : Part) (d : Dev) (v : Word) : Dev :=
  let bad := fld v 1 2 == 3 && !d.running
  let d := d.writeReg P 0xC0004 v
  let d := if bad then d.cfgErr else d
  if bit v 0 then d.enumStart P else d

/-- CAS_MUXMASK written; more than eight bits set CFGERR (13 R300). -/
def Dev.muxWrite (P : Part) (d : Dev) (o : Nat) (v : Word) : Dev :=
  let d := d.writeReg P o v
  if 8 < ((List.range 64).filter d.muxNamed).length then d.cfgErr else d

/-- CAS_CHAIN_STAT. -/
def Cas.chainStat (c : Cas) : Word := place c.len 0 ||| flag c.enumerating 4 ||| flag c.enumDone 5

/-- CAS_STATUS. -/
def Cas.status (c : Cas) : Word := flag c.cfgErr 0 ||| flag c.segTmo 1 ||| flag c.segLost 2 ||| flag c.forced 3 ||| flag c.ctxBusy 4 ||| flag c.enumErr 5

/-- A W1C write of CAS_STATUS. -/
def Cas.w1c (c : Cas) (v : Word) : Cas :=
  { c with cfgErr := c.cfgErr && !bit v 0, segTmo := c.segTmo && !bit v 1, segLost := c.segLost && !bit v 2, forced := c.forced && !bit v 3, ctxBusy := c.ctxBusy && !bit v 4, enumErr := c.enumErr && !bit v 5 }

/-- CAS_TBOFS_HI. -/
def Cas.tbHi (c : Cas) : Word := hi48 c.tbOfs ||| flag c.tbValid 16

/-- CAS_PAIR_STAT; GATING is 1 while a frame waits for a checkpoint's return (13 R314). -/
def Dev.pairStat (d : Dev) : Word :=
  place (pairCode d.cas.pair) 0 ||| flag d.cas.peerLive 3 ||| flag d.pins.forceI 4 ||| flag d.cas.forceO 5 ||| flag d.gatingNow 6

end Sys2Proof.Machine
end

