-- ==== Sys2Proof/Machine/Crypto.lean ====
section
/-!
DEFINITION. SHA-256 and ECDSA on the curve P-256, which the boot ROM checks images with (14 R333, R334). The spec names both; their constants and steps are those of FIPS 180-4 and FIPS 186-4 (PRESUMED, log 13).
-/
namespace Sys2Proof.Machine

/-! ### SHA-256 -/

/-- The constants of the 64 rounds. -/
def shaK : List Nat :=
    [0x428A2F98, 0x71374491, 0xB5C0FBCF, 0xE9B5DBA5, 0x3956C25B, 0x59F111F1, 0x923F82A4, 0xAB1C5ED5]
    ++ [0xD807AA98, 0x12835B01, 0x243185BE, 0x550C7DC3, 0x72BE5D74, 0x80DEB1FE, 0x9BDC06A7, 0xC19BF174]
    ++ [0xE49B69C1, 0xEFBE4786, 0x0FC19DC6, 0x240CA1CC, 0x2DE92C6F, 0x4A7484AA, 0x5CB0A9DC, 0x76F988DA]
    ++ [0x983E5152, 0xA831C66D, 0xB00327C8, 0xBF597FC7, 0xC6E00BF3, 0xD5A79147, 0x06CA6351, 0x14292967]
    ++ [0x27B70A85, 0x2E1B2138, 0x4D2C6DFC, 0x53380D13, 0x650A7354, 0x766A0ABB, 0x81C2C92E, 0x92722C85]
    ++ [0xA2BFE8A1, 0xA81A664B, 0xC24B8B70, 0xC76C51A3, 0xD192E819, 0xD6990624, 0xF40E3585, 0x106AA070]
    ++ [0x19A4C116, 0x1E376C08, 0x2748774C, 0x34B0BCB5, 0x391C0CB3, 0x4ED8AA4A, 0x5B9CCA4F, 0x682E6FF3]
    ++ [0x748F82EE, 0x78A5636F, 0x84C87814, 0x8CC70208, 0x90BEFFFA, 0xA4506CEB, 0xBEF9A3F7, 0xC67178F2]

/-- The initial hash value. -/
def shaInit : List Nat := [0x6A09E667, 0xBB67AE85, 0x3C6EF372, 0xA54FF53A, 0x510E527F, 0x9B05688C, 0x1F83D9AB, 0x5BE0CD19]

/-- A 32-bit number rotated right. -/
def rotr32 (x n : Nat) : Nat := (x >>> n ||| x <<< (32 - n)) % 2 ^ 32

/-- The next word of the message schedule, from the last 16. -/
def shaNext (ws : List Nat) : Nat :=
  let a := ws.getD 1 0
  let b := ws.getD 14 0
  (ws.getD 0 0 + (rotr32 a 7 ^^^ rotr32 a 18 ^^^ a >>> 3) + ws.getD 9 0 + (rotr32 b 17 ^^^ rotr32 b 19 ^^^ b >>> 10)) % 2 ^ 32

/-- The rounds of one block, with the last 16 words of the schedule and the eight working variables. -/
def shaRounds : List Nat → List Nat → Nat → Nat → Nat → Nat → Nat → Nat → Nat → Nat → List Nat
  | [], _, a, b, c, d, e, f, g, h => [a, b, c, d, e, f, g, h]
  | k :: ks, ws, a, b, c, d, e, f, g, h =>
    strict (h + (rotr32 e 6 ^^^ rotr32 e 11 ^^^ rotr32 e 25) + ((e &&& f) ^^^ ((2 ^ 32 - 1 - e) &&& g)) + k + ws.getD 0 0) fun t =>
    strict ((t + (rotr32 a 2 ^^^ rotr32 a 13 ^^^ rotr32 a 22) + ((a &&& b) ^^^ (a &&& c) ^^^ (b &&& c))) % 2 ^ 32) fun a1 =>
    strict ((d + t) % 2 ^ 32) fun e1 =>
    strict (shaNext ws) fun w =>
    shaRounds ks (ws.drop 1 ++ [w]) a1 a b c e1 e f g

/-- The hash value after one block of 16 words. -/
def shaBlock (h ws : List Nat) : List Nat :=
  match h with
  | [a, b, c, d, e, f, g, i] => (List.zipWith (fun x y => (x + y) % 2 ^ 32) h (shaRounds shaK ws a b c d e f g i))
  | _ => h

/-- A number from its bytes, the most significant first. -/
def beNat (bs : List Byte) : Nat := bs.foldl (fun n b => n * 256 + b.toNat) 0

/-- The words of a block's bytes. -/
def beWords : List Byte → List Nat
  | a :: b :: c :: d :: r => beNat [a, b, c, d] :: beWords r
  | _ => []

/-- The hash value after the blocks of a padded message. -/
def shaBlocks : Nat → List Nat → List Nat → List Nat
  | 0, h, _ => h
  | fuel + 1, h, ws => if ws.length < 16 then h else shaBlocks fuel (shaBlock h (ws.take 16)) (ws.drop 16)

/-- A message with its padding: a bit of one, zeros, and its length in bits. -/
def shaPad (bs : List Byte) : List Byte :=
  bs ++ [0x80] ++ List.replicate ((119 - bs.length % 64) % 64) 0 ++ (List.range 8).map fun i => BitVec.ofNat 8 (8 * bs.length / 256 ^ (7 - i))

/-- SHA-256 of bytes, as eight words. -/
def sha256 (bs : List Byte) : List Nat := shaBlocks (bs.length / 64 + 2) shaInit (beWords (shaPad bs))

/-! ### ECDSA P-256 -/

/-- The field prime. -/
def ecP : Nat := 0xffffffff00000001000000000000000000000000ffffffffffffffffffffffff

/-- The order of the base point. -/
def ecN : Nat := 0xffffffff00000000ffffffffffffffffbce6faada7179e84f3b9cac2fc632551

/-- The constant b of the curve y^2 = x^3 - 3x + b. -/
def ecB : Nat := 0x5ac635d8aa3a93e7b3ebbd55769886bc651d06b0cc53b0f63bce3c3e27d2604b

/-- A point in Jacobian coordinates: x / z^2 and y / z^3, the point at infinity with z = 0. -/
structure EcPoint where
  x : Nat
  y : Nat
  z : Nat
  deriving DecidableEq, Repr

/-- The base point. -/
def ecG : EcPoint :=
  ⟨0x6b17d1f2e12c4247f8bce6e563a440f277037d812deb33a0f4a13945d898c296,
    0x4fe342e2fe1a7f9b8ee7eb4a7c0f9e162bce33576b315ececbb6406837bf51f5, 1⟩

/-- A point whose coordinates are computed. -/
def EcPoint.mk3 (x y z : Nat) (f : EcPoint → α) : α := strict x fun x => strict y fun y => strict z fun z => f ⟨x, y, z⟩

/-- Difference modulo the field prime. -/
def ecSub (a b : Nat) : Nat := (a + ecP - b % ecP) % ecP

/-- A point doubled. -/
def EcPoint.double (q : EcPoint) (k : EcPoint → α) : α :=
  strict (q.z * q.z % ecP) fun d =>
  strict (q.y * q.y % ecP) fun g =>
  strict (q.x * g % ecP) fun b =>
  strict (3 * ecSub q.x d * (q.x + d) % ecP) fun a =>
  strict (ecSub (a * a) (8 * b)) fun x =>
  EcPoint.mk3 x (ecSub (a * ecSub (4 * b) x) (8 * g * g)) (2 * q.y * q.z % ecP) k

/-- The sum of two points. -/
def EcPoint.add (q r : EcPoint) (k : EcPoint → α) : α :=
  if q.z = 0 then k r
  else if r.z = 0 then k q
  else
    strict (q.z * q.z % ecP) fun zq =>
    strict (r.z * r.z % ecP) fun zr =>
    strict (q.x * zr % ecP) fun u =>
    strict (q.y * zr * r.z % ecP) fun s =>
    strict (ecSub (r.x * zq) u) fun h =>
    strict (ecSub (r.y * zq * q.z) s) fun t =>
    if h = 0 then (if t = 0 then q.double k else k ⟨1, 1, 0⟩)
    else
      strict (h * h % ecP) fun h2 =>
      strict (h2 * h % ecP) fun h3 =>
      strict (u * h2 % ecP) fun v =>
      strict (ecSub (t * t) (h3 + 2 * v)) fun x =>
      EcPoint.mk3 x (ecSub (t * ecSub v x) (s * h3)) (h * q.z * r.z % ecP) k

/-- The sum of a times the base point and b times a point, over the bits below n, from a sum so far; `both` is the sum of the two points. -/
def ecMul (a b : Nat) (q both : EcPoint) : Nat → EcPoint → EcPoint
  | 0, acc => acc
  | n + 1, acc =>
    acc.double fun acc =>
      match a.testBit n, b.testBit n with
      | false, false => ecMul a b q both n acc
      | true, false => acc.add ecG (ecMul a b q both n)
      | false, true => acc.add q (ecMul a b q both n)
      | true, true => acc.add both (ecMul a b q both n)

/-- A power modulo the order, over the bits of the exponent below n. -/
def ecPow (x e : Nat) : Nat → Nat → Nat
  | 0, acc => acc
  | n + 1, acc => strict (if e.testBit n then acc * acc % ecN * x % ecN else acc * acc % ecN) (ecPow x e n)

/-- A signature r, s of a digest by a key verifies: all in range, the key on the curve, and the point's x equal to r modulo the order. -/
def ecdsaOk (digest : Nat) (kx ky r s : Nat) : Bool :=
  decide (0 < r ∧ r < ecN ∧ 0 < s ∧ s < ecN ∧ kx < ecP ∧ ky < ecP) && ky * ky % ecP == (kx * kx % ecP * kx + 3 * (ecP - kx) + ecB) % ecP &&
    strict (ecPow s (ecN - 2) 256 1) fun w =>
    strict (digest * w % ecN) fun a =>
    strict (r * w % ecN) fun b =>
    let q : EcPoint := ⟨kx, ky, 1⟩
    ecG.add q fun both =>
      let t := ecMul a b q both 256 ⟨1, 1, 0⟩
      t.z != 0 && (r * t.z * t.z % ecP == t.x || (decide (r + ecN < ecP) && (r + ecN) * t.z * t.z % ecP == t.x))

end Sys2Proof.Machine
end

