-- ==== Sys2Proof/Machine/Thermocouple.lean ====
section
/-!
DEFINITION. The reference functions of thermocouples of types K and T (11 R269, R270). The spec names IEC 60584; the coefficients are those of its reference functions (PRESUMED, log 12).
-/
namespace Sys2Proof.Machine

/-- Terms of the exponential series with 80 fractional bits. -/
def expSeries (x : Int) : Nat → Nat → Int → Int
  | 0, _, _ => 0
  | fuel + 1, n, t => t + expSeries x fuel (n + 1) ((t * x).tdiv (2 ^ 80) / (n + 1 : Nat))

/-- A polynomial in degrees at h half thousandths of a degree, in nanovolts with 200 fractional bits; a coefficient (m, e) is m times 10^-e millivolts. -/
def polyAt (h : Int) : List (Int × Nat) → Int
  | [] => 0
  | (m, e) :: cs => m * 10 ^ 6 * 2 ^ 200 / 10 ^ e + h * polyAt h cs / 2000

/-- Type K below 0 degrees. -/
def kBelow : List (Int × Nat) :=
  [(0, 0), (394501280250, 13), (236223735980, 16), (-328589067840, 18), (-499048287770, 20),
    (-675090591730, 22), (-574103274280, 24), (-310888728940, 26), (-104516093650, 28), (-198892668780, 31),
    (-163226974860, 34)]

/-- Type K from 0 degrees on. -/
def kAbove : List (Int × Nat) :=
  [(-176004136860, 13), (389212049750, 13), (185587700320, 16), (-994575928740, 19), (318409457190, 21),
    (-560728448890, 24), (560750590590, 27), (-320207200030, 30), (971511471520, 34), (-121047212750, 37)]

/-- Type T below 0 degrees. -/
def tBelow : List (Int × Nat) :=
  [(0, 0), (387481063640, 13), (441944343470, 16), (118443231050, 18), (200329735540, 19),
    (901380195590, 21), (226511565930, 22), (360711542050, 24), (384939398830, 26), (282135219250, 28),
    (142515947790, 30), (487686622860, 33), (107955392700, 35), (139450270620, 38), (797951539270, 42)]

/-- Type T from 0 degrees on. -/
def tAbove : List (Int × Nat) :=
  [(0, 0), (387481063640, 13), (332922278800, 16), (206182434040, 18), (-218822568460, 20),
    (109968809280, 22), (-308157587720, 25), (454791352900, 28), (-275129016730, 31)]

/-- A number squared n times, with 80 fractional bits. -/
def squares : Nat → Int → Int
  | 0, x => x
  | n + 1, x => squares n (x * x / 2 ^ 80)

/-- The exponential term of type K, 0.1185976 mV times exp(-0.0001183432 (t - 126.9686)^2), in nanovolts with 200 fractional bits. -/
def kBump (h : Int) : Int :=
  let x := -(1183432 * (10 * h - 2539372) ^ 2 * 2 ^ 80 / (10 ^ 10 * 4 * 10 ^ 8))
  1185976 * squares 8 (expSeries (x / 256) 30 0 (2 ^ 80)) * 2 ^ 120 / 10

/-- The reference function of curve 4 (type K) or 5 (type T) in nanovolts at h half thousandths of a degree. -/
def emf (curve : Nat) (h : Int) : Int :=
  let v := if curve = 4 then (if h < 0 then polyAt h kBelow else polyAt h kAbove + kBump h) else (if h < 0 then polyAt h tBelow else polyAt h tAbove)
  (v + 2 ^ 199) / 2 ^ 200

end Sys2Proof.Machine
end

