-- ==== Sys2Proof/Machine/Hk.lean ====
section
/-!
DEFINITION. The housekeeping front end: the sequence, urgent requests, conversions and their faults, linearisation curves, results, limits and AOUT, and the standby sequence (11 R251-R275).
-/
namespace Sys2Proof.Machine

/-- HK_STATUS.CFGERR set. -/
def Dev.hkCfgErr (d : Dev) : Dev := d.updHk fun x => { x with cfgErr := true }

/-- HK_ENTe_CFG. -/
def Dev.hkEnt (d : Dev) (e : HkEnt) : Word := d.reg (0xA0200 + 16 * e.val)

/-! ### Fields of an entry -/

/-- The channel, 12 to 15 acting as 8 (11 R253). -/
def entCh (c : Word) : Nat := let n := fld c 0 4; if 12 ≤ n then 8 else n

/-- The wiring; 6, 7 and the device's own channels act as VOLT (11 R253, R265). -/
def entWire (c : Word) : Nat := if 8 ≤ entCh c then 0 else if 6 ≤ fld c 12 3 then 0 else fld c 12 3

/-- The reference: 0 INT, 1 EXT, 2 SUPPLY (11 R254). -/
def entRef (c : Word) : Nat := match fld c 10 2 with | 1 => 1 | 2 => if entWire c = 4 then 2 else 0 | _ => 0

/-- ICODE, 9 to 15 acting as 8 (11 R264). -/
def entIcode (c : Word) : Nat := min 8 (fld c 15 4)

/-- The curve accepts the wiring (11 R269). -/
def curveTakes (curve wire : Nat) : Bool :=
  match curve with
  | 0 => true
  | 7 => true
  | 4 => wire == 0
  | 5 => wire == 0
  | _ => wire == 1 || wire == 2 || wire == 3

/-- The curve in force; one that does not accept the wiring acts as curve 0, and channels 8 to 11 have none (11 R253, R269). -/
def entCurve (c : Word) : Nat := if 8 ≤ entCh c then 0 else if curveTakes (fld c 21 3) (entWire c) then fld c 21 3 else 0

/-- The entry's settings set CFGERR (11 R253, R254, R265, R269). -/
def entBad (c : Word) : Bool :=
  decide (12 ≤ fld c 0 4) || fld c 10 2 == 3 || (fld c 10 2 == 2 && entWire c != 4) ||
    (decide (entCh c < 8) && (decide (6 ≤ fld c 12 3) || !curveTakes (fld c 21 3) (entWire c)))

/-- Excited by current sources: 2-wire, 3-wire or 4-wire. -/
def byCurrent (wire : Nat) : Bool := wire == 1 || wire == 2 || wire == 3

/-- The current of an ICODE in nanoamperes (11 R264). -/
def iSet (code : Nat) : Int := ([10000, 20000, 50000, 100000, 200000, 250000, 500000, 750000, 1000000] : List Int).getD code 1000000

/-- The VEXC setting in units of 10 microvolts (11 R264). -/
def vexcSet (c : Word) : Int := if bit c 19 then 500000 else 250000

/-! ### Starting conversions -/

/-- A conversion starts: its configuration is sampled, and a reference that differs from the previous conversion's must settle; the first one after reset or STANDBY exit has no previous one (11 R254, R255). -/
def Dev.startConv (d : Dev) (e : HkEnt) (urgent : Option (Fin 2)) : Dev :=
  let c := d.hkEnt e
  let d := if entBad c then d.hkCfgErr else d
  d.updHk fun x => { x with
    conv := some ⟨e, c, urgent, false, false, entIcode c, .settle, false, [], 0⟩
    refSettled := x.refSettled && (x.lastRef == none || x.lastRef == some (entRef c))
    lastRef := some (entRef c) }

/-- A slot's request that has reached CK_HK. -/
def Hk.arrived (x : Hk) (u : Fin 2) : Option HkEnt := if x.crossing.contains u then none else x.slot[u]

/-- With no conversion running the next one starts: U0, U1, then the sequence, whose abandoned conversion restarts even while it is STOPPING (11 R261, R262). -/
def Dev.hkNext (d : Dev) : Dev :=
  if d.hk.conv.isSome then d
  else match d.hk.arrived 0, d.hk.arrived 1 with
    | some e, _ => d.startConv e (some 0)
    | none, some e => d.startConv e (some 1)
    | none, none =>
      if d.hk.seq = .run ∨ (d.hk.seq = .stopping ∧ d.hk.redo) then
        (d.startConv ⟨d.hk.at_ % 16, Nat.mod_lt _ (by decide)⟩ none).updHk fun x => { x with redo := false }
      else if d.hk.seq = .stopping then d.updHk fun x => { x with seq := .idle }
      else d

/-- A start of the sequence (11 R256, R257): whether it started. -/
def Dev.hkStart (d : Dev) : Bool × Dev :=
  if d.hk.seq = .idle then (true, (d.updHk fun x => { x with seq := .run, at_ := 0, redo := false, due := false }).hkNext) else (false, d)

/-- A stop of the sequence (11 R256). -/
def Dev.hkStop (d : Dev) : Dev :=
  (d.updHk fun x => match x.seq with
    | .run => { x with seq := .stopping }
    | .wait => { x with seq := .idle }
    | _ => x).hkNext

/-- An urgent request placed in a free slot (11 R261). -/
def Dev.hkUrgent (d : Dev) (u : Fin 2) (e : HkEnt) : Bool × Dev :=
  if (d.hk.slot[u]).isNone then (true, d.updHk fun x => { x with slot := x.slot.set u (some e), crossing := x.crossing ++ [u] }) else (false, d)

/-- URGENT_REQUEST_ARRIVAL (11 R262, R263). -/
def Dev.urgentArrival (d : Dev) : Dev :=
  match d.hk.crossing with
  | [] => d
  | u :: rest =>
    let d := d.updHk fun x => { x with crossing := rest }
    let drop := bit (d.reg 0xA0000) (5 + u.val)
    match d.hk.conv with
    | none => d.hkNext
    | some c =>
      if drop then d.updHk fun x => { x with drop := x.drop + 1, slot := x.slot.set u none }
      else if c.urgent.isSome then d
      else (d.updHk fun x => { x with conv := none, abandon := true, at_ := c.entry.val, redo := true }).hkNext

/-- REF_SETTLED: the reference buffer has settled, and lies inside its range where the reference is EXT or SUPPLY: one outside never settles (11 R254 and "Corner cases"). -/
def Dev.hkRefSettled (d : Dev) : Dev := d.updHk fun x => { x with refSettled := true }

/-- INTEGRATION_START (11 R254). -/
def Dev.integrationStart (d : Dev) : Dev :=
  match d.hk.conv with
  | some c => if c.stage = .settle ∧ d.hk.refSettled then d.updHk fun x => { x with conv := some { c with stage := .integrate } } else d
  | none => d

/-- REF_UNSETTLED (11 R254): the conversion ends without integrating. -/
def Dev.hkRefUnsettled (d : Dev) : Dev :=
  match d.hk.conv with
  | some c => if c.stage = .settle ∧ !d.hk.refSettled then d.updHk fun x => { x with conv := some { c with stage := .comp, refFault := true } } else d
  | none => d

/-- INTEGRATION_END (11 R251, R265, R270): phase A of a 3-wire conversion exchanges the sources. -/
def Dev.integrationEnd (d : Dev) (m : HkMeas) : Dev :=
  match d.hk.conv with
  | some c =>
    if c.stage = .integrate then
      let c := { c with meas := c.meas ++ [m], cj := d.pwr.dieTemp.toInt }
      d.updHk fun x => { x with conv := some (if entWire c.cfg = 2 ∧ !c.phaseB then { c with phaseB := true, stage := .settle } else { c with stage := .comp }) }
    else d
  | none => d

/-! ### Computation -/

/-- The selected reference in nanovolts (11 R254). -/
def refNv (c : Word) (m : HkMeas) : Int := max 1 (match entRef c with | 0 => 2500000000 | 1 => m.vref | _ => m.sense * 10000)

/-- The feedback resistor of a TIAF in kiloohms (11 R266). -/
def tiaOhms (c : Word) : Int := 10 ^ (fld c 24 2 + 1)

/-- The converter's input in nanovolts: in TIA wiring the photocurrent times the feedback resistance (11 R266). -/
def inputNv (c : Word) (m : HkMeas) : Int := if entWire c = 5 then m.photo * tiaOhms c else m.vin

/-- The code of one integration before clamping (11 R252). -/
def rawCode (c : Word) (m : HkMeas) : Int := rdiv (inputNv c m * 2 ^ fld c 4 3 * 2 ^ 23) (refNv c m)

/-- A code clamped (11 R252). -/
def clampCode (x : Int) : Int := clampI (-8388607) 8388607 x

/-- The code of a conversion. -/
def convCode (c : Word) : List HkMeas → Int
  | [m] => clampCode (rawCode c m)
  | [a, b] => (Config.code3 (clampCode (rawCode c a)) (clampCode (rawCode c b))).toInt
  | _ => 0

/-- The delivered current that the fault conditions judge, in nanoamperes: the lower of the two means in 3-wire wiring (11 R267). -/
def delivered : List HkMeas → Int
  | [m] => m.i0
  | [a, b] => min ((a.i0 + b.i0) / 2) ((a.i1 + b.i1) / 2)
  | _ => 0

/-- EXMEAS (11 R260). -/
def exMeas (c : Word) (ms : List HkMeas) : Int :=
  if byCurrent (entWire c) then
    match ms with
    | [m] => m.i0
    | [a, b] => rdiv (a.i0 + a.i1 + b.i0 + b.i1) 4
    | _ => 0
  else if entWire c = 4 then (match ms with | m :: _ => m.vexc | [] => 0)
  else 0

/-- The resistance as a quotient in ohms (11 R265, with the currents as the worked example takes them). -/
def resistance (c : Word) (ms : List HkMeas) : Int × Int :=
  let s : Int := 2 ^ (fld c 4 3 + 23)
  match ms with
  | [m] => (clampCode (rawCode c m) * refNv c m, s * m.i0)
  | [a, b] => ((clampCode (rawCode c a) * refNv c a + clampCode (rawCode c b) * refNv c b) * 2, s * (a.i0 + a.i1 + b.i0 + b.i1))
  | _ => (0, 1)

/-- R0 times the Callendar-Van Dusen polynomial at h half thousandths of a degree, times 16e27 (11 R269). -/
def platinum (r0 h : Int) : Int :=
  r0 * (16 * 10 ^ 27 + 8 * 39083 * h * 10 ^ 17 - 4 * 5775 * h ^ 2 * 10 ^ 11 - (if h < 0 then 4183 * (h - 200000) * h ^ 3 else 0))

/-- The nickel polynomial at h half thousandths of a degree, times 64e35 and 1000 ohms (11 R269). -/
def nickel (h : Int) : Int :=
  1000 * (64 * 10 ^ 35 + 32 * 5485 * h * 10 ^ 26 + 16 * 665 * h ^ 2 * 10 ^ 21 + 4 * 2805 * h ^ 4 * 10 ^ 9 - 2 * h ^ 6)

/-- The NTC law at h half thousandths of a degree, times 2^80 (11 R269). -/
def ntc (h : Int) : Int :=
  let t := 546300 + h
  10000 * expSeries (343500 * (596300 - t) * 2 ^ 80 / (29815 * t)) 80 0 (2 ^ 80)

/-- A characteristic inverted between two temperatures in half thousandths of a degree, rounded to nearest; none outside its range. -/
def invert (f : Int → Int) (falling : Bool) (lo hi num den scale : Int) : Option Int :=
  let le := fun h : Int => if falling then decide (num * scale ≤ f h * den) else decide (f h * den ≤ num * scale)
  let top : Bool := if falling then decide (f hi * den ≤ num * scale) else decide (num * scale ≤ f hi * den)
  if le lo && top then
    let k := searchMax (fun k => le (lo + k)) 32 0 (hi - lo).toNat
    some ((lo + k + 1) / 2)
  else none

/-- The value of a resistance curve within its residual error (11 R269). -/
def withResidual (bound : Int) (curve : Nat) (t : Int) : Int := t + clampI (-bound) bound (Config.curveResidual curve t)

/-- The user table's points (11 R271). -/
def Dev.utab (d : Dev) : List (Int × Int) := (List.range 32).map fun i => (sfld (d.reg (0xA0400 + 8 * i)) 0 24, sfld (d.reg (0xA0404 + 8 * i)) 0 24)

/-- The x values increase strictly (11 R271). -/
def risingX : List (Int × Int) → Bool
  | a :: b :: r => decide (a.1 < b.1) && risingX (b :: r)
  | _ => true

/-- Linear interpolation in the user table at the quotient num / den, rounded to nearest (11 R271). -/
def interp (num den : Int) : List (Int × Int) → Option Int
  | a :: b :: r =>
    if a.1 * den ≤ num ∧ num ≤ b.1 * den then
      some (rdiv (a.2 * (b.1 - a.1) * den + (b.2 - a.2) * (num - a.1 * den)) ((b.1 - a.1) * den))
    else interp num den (b :: r)
  | _ => none

/-- A thermocouple's value (11 R269, R270): the reference voltage at the cold junction, whose temperature is the die's, is added to the measured one, and the reference function inverted between -200 degrees and the end of its range, within the curve's residual. -/
def thermocouple (k : Nat) (hi code : Int) (c : Conv) : Option Int :=
  let v := rdiv (code * (match c.meas with | m :: _ => refNv c.cfg m | [] => 1)) (2 ^ (fld c.cfg 4 3 + 23))
  (invert (emf k) false (-400000) hi (v + emf k (c.cj * 200)) 1 1).map (withResidual 50 k)

/-- The value of a curve, none where its input lies outside its range or the user table does not increase (11 R269-R271). -/
def Dev.curveValue (d : Dev) (c : Conv) : Option Int :=
  let w := c.cfg
  let code := convCode w c.meas
  let (num, den) := resistance w c.meas
  match entCurve w with
  | 1 => (invert (platinum 100) false (-400000) 1700000 num den (16 * 10 ^ 27)).map (withResidual 2 1)
  | 2 => (invert (platinum 1000) false (-400000) 1700000 num den (16 * 10 ^ 27)).map (withResidual 2 2)
  | 3 => (invert nickel false (-120000) 360000 num den (64 * 10 ^ 35)).map (withResidual 5 3)
  | 4 => thermocouple 4 2744000 code c
  | 5 => thermocouple 5 800000 code c
  | 6 => (invert ntc true (-80000) 250000 num den (2 ^ 80)).map (withResidual 10 6)
  | 7 =>
    if risingX d.utab then (if byCurrent (entWire w) then interp (num * 10) den d.utab else interp code 1 d.utab)
    else none
  | _ => some code

/-- The user table sets CFGERR at a result: it is in use and its x values do not increase (11 R271). -/
def Dev.tableBad (d : Dev) (c : Conv) : Bool := entCurve c.cfg == 7 && !risingX d.utab

/-- The fault code and value of a conversion (11 R267, R269), and whether the user table sets CFGERR. -/
def Dev.evaluate (d : Dev) (c : Conv) : Nat × Int × Bool :=
  let w := c.cfg
  let wire := entWire w
  let code := convCode w c.meas
  let cur := delivered c.meas
  let set := iSet c.icode
  let (sense, lim) := match c.meas with | m :: _ => (m.sense, m.climit) | [] => (0, false)
  let bad := d.tableBad c
  if c.refFault then (4, 0, bad)
  else if 8 ≤ entCh w then (0, (match c.meas with | m :: _ => m.mon | [] => 0), false)
  else if (byCurrent wire ∧ cur * 10 < set) ∨ (wire = 4 ∧ (sense.natAbs : Int) * 10 < vexcSet w) then (1, code, bad)
  else if (byCurrent wire ∧ set * 98 ≤ cur * 100 ∧ code.natAbs < 4194) ∨ (wire = 4 ∧ lim) then (2, code, bad)
  else if byCurrent wire ∧ cur * 100 < set * 98 then (3, cur, bad)
  else if c.meas.any fun m => rawCode w m != clampCode (rawCode w m) then (5, code, bad)
  else match d.curveValue c with
    | some v => (0, v, false)
    | none => (5, code, bad)

/-! ### Publication -/

/-- AOUT after a result of its entry (11 R273). -/
def Dev.aoutResult (d : Dev) (e : HkEnt) (valid : Bool) (v : Int) : Dev :=
  let a := d.reg 0xA0020
  if bit a 4 ∧ fld a 0 4 = e.val then
    let lo := sfld (d.reg 0xA0024) 0 24
    let hi := sfld (d.reg 0xA0028) 0 24
    if hi ≤ lo then d.updHk fun x => { x with cfgErr := true, aoutCode := 0 }
    else if valid then d.updHk fun x => { x with aoutCode := (clampI 0 4095 (rdiv ((v - lo) * 4095) (hi - lo))).toNat }
    else match fld a 6 2 with
      | 1 => d.updHk fun x => { x with aoutCode := 0 }
      | 2 => d.updHk fun x => { x with aoutCode := 4095 }
      | _ => d
  else d

/-- The limit comparison of a VALID result (11 R272). -/
def Dev.limitResult (d : Dev) (e : HkEnt) (c : Word) (v : Int) : Dev :=
  if bit c 26 then
    let lim := fun o => sfld (d.reg (0xA0204 + 16 * e.val + o)) 0 24
    if lim 4 < lim 0 then d.hkCfgErr
    else
      let z := if v < lim 0 then Zone.below else if lim 4 < v then Zone.above else Zone.inside
      let old := d.hk.zone[e]
      let d := d.updHk fun x => { x with zone := x.zone.set e z }
      if z = old ∨ z = .inside then d else d.raise 34 (place e.val 0 ||| flag (z == .above) 4)
  else d

/-- The shading filter's update from a result (07 R160), rounded to 0.1 degrees with halves away from zero (DESIGN CHOICE, log 102). -/
def Dev.shadeResult (P : Part) (d : Dev) (e : HkEnt) (c : Word) (valid : Bool) (v : Int) : Dev :=
  let ctl := d.reg 0x40000
  if P.hkin ≠ 0 ∧ !bit ctl 3 ∧ fld ctl 4 4 = e.val then
    (if valid ∧ entCurve c ≠ 0 then d.tempUpdate (rdiv v 100) else d.tempStale)
  else d

/-- The sequence after one of its conversions ended (11 R256, R257, R274). -/
def Dev.seqAfter (d : Dev) (e : Nat) : Dev :=
  let ctl := d.reg 0xA0000
  let last := if d.asleep then fld ctl 8 4 else fld ctl 0 4
  match d.hk.seq with
  | .stopping => d.updHk fun x => { x with seq := .idle }
  | .run =>
    if e < last then d.updHk fun x => { x with at_ := e + 1 }
    else
      let d := d.updHk fun x => { x with pass := x.pass + 1, at_ := 0 }
      let d := if d.asleep then d else d.raise 31 d.hk.pass
      let period := fld (d.reg 0xA0018) 0 16
      if !bit ctl 4 ∧ !d.asleep then d.updHk fun x => { x with seq := .idle }
      else if (period = 0 ∧ !d.asleep) ∨ d.hk.due then
        d.updHk fun x => { x with due := false, overrun := x.overrun || period != 0 || d.asleep }
      else d.updHk fun x => { x with seq := .wait }
  | _ => d

/-- The result pair of an entry as it stood at the start of the present cycle (11 R260). -/
def Dev.resStart (d : Dev) (e : HkEnt) : Word × Word :=
  ((if d.hk.wasAt = d.cycle then d.hk.was.lookup e.val else none).getD (d.hk.res[e], d.hk.aux[e]))

/-- The pair of an entry noted before it changes. -/
def Dev.resNote (d : Dev) (e : HkEnt) : Dev :=
  d.updHk fun x =>
    if x.wasAt = d.cycle then (if (x.was.lookup e.val).isSome then x else { x with was := tabIns e.val (x.res[e], x.aux[e]) x.was })
    else { x with wasAt := d.cycle, was := [(e.val, (x.res[e], x.aux[e]))], pubs := [] }

/-- A result pair made visible in one cycle, through the crossing to CK_CORE (01 R25, 11 R259). -/
def Dev.resVisible (d : Dev) (e : HkEnt) (res aux : Word) : Dev :=
  (((d.cross 7).resNote e).updHk fun x => { x with res := x.res.set e res, aux := x.aux.set e aux, pubs := x.pubs ++ [e] })

/-- RESULT_PUBLISH (11 R258-R260, R267, R268): AUTOSTEP repeats a COMPLIANCE once; otherwise the pair is published, where it finds room in its crossing (01 R25), and faults, limits, AOUT, the shading filter and the sequence follow. -/
def Dev.resultPublish (P : Part) (d : Dev) : Dev :=
  match d.hk.conv with
  | some c =>
    if c.stage ≠ .comp then d
    else
      let (fault, v, bad) := d.evaluate c
      if fault = 3 ∧ bit c.cfg 20 ∧ 0 < c.icode ∧ !c.again then
        d.updHk fun x => { x with conv := some { c with phaseB := false, again := true, icode := c.icode - 1, stage := .settle, meas := [] } }
      else if !d.asleep ∧ (!d.crossRoom 7 ∨ d.hk.kept.toList.any Option.isSome) then d
      else
        let d := if bad then d.hkCfgErr else d
        let valid := fault == 0
        let res := flag valid 31 ||| flag true 30 ||| place fault 27 ||| place (d.hk.pass.toNat % 8) 24 ||| (iword v &&& 0xFFFFFF)
        let used := byCurrent (entWire c.cfg)
        let aux := (iword (exMeas c.cfg c.meas) &&& 0xFFFFF) ||| flag (c.again && valid) 20 ||| place (if used then c.icode else 0) 21
        let d := if d.asleep then d.updHk fun x => { x with kept := x.kept.set c.entry (some (res, aux)), conv := none }
          else ((d.resVisible c.entry res aux).updHk fun x => { x with conv := none }).shadeResult P c.entry c.cfg valid v
        let d := if valid then d else d.raise 33 (place c.entry.val 0 ||| place fault 4)
        let d := (if valid then d.limitResult c.entry c.cfg v else d).aoutResult c.entry valid v
        let d := match c.urgent with
          | some u => (d.updHk fun x => { x with slot := x.slot.set u none }).raise 32 (place u.val 0 ||| place c.entry.val 4)
          | none => d.seqAfter c.entry.val
        d.hkNext
  | none => d

/-- HK_PERIOD_EXPIRY (11 R257). -/
def Dev.hkPeriod (d : Dev) : Dev :=
  match d.hk.seq with
  | .wait => (d.updHk fun x => { x with seq := .run, at_ := 0, due := false }).hkNext
  | .run => d.updHk fun x => { x with due := true }
  | _ => d

/-- STANDBY entry (11 R274): the running conversion is abandoned, the slots are cleared, and with STBY = 1 the standby passes begin. -/
def Dev.hkStandby (d : Dev) : Dev :=
  let on := bit (d.reg 0xA0000) 7
  (d.updHk fun x => { x with
    conv := none, slot := Vector.replicate 2 none, crossing := [], at_ := 0, redo := false, due := false, kept := Vector.replicate 16 none
    seq := if on then .run else .idle }).hkNext

/-- A kept result published with FRESH and the SEQTAG of this moment (R259), once its crossing has room (01 R25). -/
def Dev.hkKept1 (P : Part) (d : Dev) (e : HkEnt) : Dev :=
  match d.hk.kept[e] with
  | some (r, a) =>
    if d.crossRoom 7 then
      ((d.resVisible e (putFld r 24 3 (d.hk.pass.toNat % 8) ||| flag true 30) a).updHk fun x => { x with kept := x.kept.set e none }).shadeResult P e (d.hkEnt e) (bit r 31) (sfld r 0 24)
    else d
  | none => d

/-- Results that STANDBY has kept and CK_CORE now takes, in entry order, as far as their crossing has room (01 R25, 11 R274). -/
def Dev.hkKept (P : Part) (d : Dev) : Dev := if d.asleep then d else (List.finRange 16).foldl (fun d e => d.hkKept1 P e) d

/-- A die temperature passes the crossing to the shading filter, where it waits for room behind those that wait already (01 R25, 07 R160). -/
def Dev.dieCross (d : Dev) (t : Int) : Dev :=
  if d.crossRoom 7 ∧ d.hk.dieHeld = [] then (d.cross 7).tempUpdate t else d.updHk fun x => { x with dieHeld := x.dieHeld ++ [t] }

/-- What waits in CK_HK for room in the crossing to CK_CORE goes on. -/
def Dev.hkWaits (P : Part) (d : Dev) : Dev :=
  let d := d.hkKept P
  if d.asleep then d else d.hk.dieHeld.foldl Dev.dieCross (d.updHk fun x => { x with dieHeld := [] })

/-- After the STB reload the kept results are published, and the sequence is IDLE (11 R274, R254). -/
def Dev.hkWake (P : Part) (d : Dev) : Dev :=
  (d.hkKept P).updHk fun x => { x with conv := none, seq := .idle, lastRef := none, refSettled := false, due := false }

/-! ### Reads and registers -/

/-- The latch of a HI or companion register set for a master (01 R28). -/
def Dev.setLatch (d : Dev) (m : Master) (o : Nat) (v : Word) : Dev := { d with latch := tabSet 0 d.latch (mnum m * 2 ^ 20 + o) v }

/-- The latch of a HI or companion register, 0 when the master never read its LO register (01 R28). -/
def Dev.getLatch (d : Dev) (m : Master) (o : Nat) : Word := tabGet 0 d.latch (mnum m * 2 ^ 20 + o)

/-- A read of HK_RESe or of its alias (11 R260): the word as it stood at the start of the cycle, with its HK_AUXe latched and FRESH cleared unless peeked; a publication in the cycle survives. -/
def Dev.hkRead (d : Dev) (m : Master) (e : HkEnt) (peek : Bool) : Word × Dev :=
  let d1 := d.setLatch m (0xA0180 + 4 * e.val) (d.resStart e).2
  let published := d.hk.wasAt == d.cycle && d.hk.pubs.contains e
  ((d.resStart e).1, if peek || published then d1 else (d1.resNote e).updHk fun x => { x with res := x.res.set e (putBit x.res[e] 30 false) })

/-- A write of HK_ENTe_CFG (11 R253, R272). -/
def Dev.hkEntWrite (P : Part) (d : Dev) (e : HkEnt) (v : Word) : Dev :=
  let ch := fld v 0 4
  let off := decide (P.hkin ≤ ch ∧ ch < 8)
  let v1 := if off then putFld v 0 4 (fld (d.hkEnt e) 0 4) else v
  let d := (d.writeReg P (0xA0200 + 16 * e.val) v1).updHk fun x => { x with zone := x.zone.set e .inside }
  if off then d.setAbsent else d

/-- Full scale of AOUT (11 R273): the VEXC setting of the tracked entry, in units of 10 microvolts, or the VDDH supply. -/
inductive AoutScale where
  | vexc (setting : Int)
  | vddh
  deriving DecidableEq, Repr

/-- The AOUT output (11 R273): the code, of which 4,095 is full scale, and the scale. -/
def Dev.aoutOut (P : Part) (d : Dev) : Option (Nat × AoutScale) :=
  let a := d.reg 0xA0020
  if P.hkin = 0 then none else some (d.hk.aoutCode, if bit a 5 then .vddh else .vexc (vexcSet (d.hkEnt (Fin.ofNat 16 (fld a 0 4)))))

/-- The VEXC regulator's reference is on (11 R264, R273): for AOUT, or while VEXC pulses in a conversion. -/
def Dev.vexcRef (d : Dev) : Bool :=
  let a := d.reg 0xA0020
  (bit a 4 && !bit a 5) || match d.hk.conv with
    | some c => entWire c.cfg == 4 && c.stage != .comp
    | none => false

/-- A write of HK_AOUT, HK_AOUTLO or HK_AOUTHI (11 R273). -/
def Dev.aoutWrite (P : Part) (d : Dev) (o : Nat) (v : Word) : Dev :=
  let d := d.writeReg P o v
  if bit (d.reg 0xA0020) 4 then
    (if sfld (d.reg 0xA0028) 0 24 ≤ sfld (d.reg 0xA0024) 0 24 then d.updHk fun x => { x with cfgErr := true, aoutCode := 0 } else d)
  else d.updHk fun x => { x with aoutCode := 0 }

/-- HK_STATE. -/
def Hk.state (x : Hk) : Word :=
  place (match x.seq with | .idle => 0 | .run => 1 | .stopping => 2 | .wait => 3) 0 |||
    flag (match x.conv with | some c => c.urgent.isSome | none => false) 2 |||
    flag (x.slot[(0 : Fin 2)]).isSome 3 ||| flag (x.slot[(1 : Fin 2)]).isSome 4 ||| flag x.refSettled 5 |||
    place (match x.conv with | some c => c.entry.val | none => 0) 6

/-- HK_CMD (11 R275): START, STOP and CLRDROP. -/
def Dev.hkCmd (d : Dev) (v : Word) : Dev :=
  let d := if bit v 0 then d.hkStart.2 else d
  let d := if bit v 1 then d.hkStop else d
  if bit v 2 then d.updHk fun x => { x with drop := 0 } else d

end Sys2Proof.Machine
end

