-- ==== Sys2Proof/Machine/Power.lean ====
section
/-!
DEFINITION. Power states, boot and persistence: STANDBY entry and wake, the boot ROM's checks and outcome, NVM operations and records, die temperature, supplies and the trace registers (14 R322-R353, 12 R291).
-/
namespace Sys2Proof.Machine

/-! ### Gating and STANDBY -/

/-- A context that could issue now (03 "Issue"). -/
def Dev.issuable (d : Dev) (c : CtxId) : Bool :=
  let x := d.ctx[c]
  x.awake && x.load.isNone && x.held.isNone && decide (x.sbuf.length < 8) && !x.resetting && x.wake.isNone

/-- SEQUENCER_GATE (14 R322, R351): the clock gates once SUSPEND has been accepted. -/
def Dev.seqGate (P : Part) (d : Dev) (q : Fin 2) : Dev :=
  let busy := (List.finRange 64).any fun c => sequencerOf c == q && (d.issuable c || (d.ctx[c]).load.isSome || (d.ctx[c]).held.isSome)
  if d.phase = .run ∧ !busy ∧ !d.pwr.gated[q] ∧ (q = 0 ∨ 32 < P.contexts) then
    match d.trcSuspend P (q.val + 1) with
    | some d => d.updPwr fun p => { p with gated := p.gated.set q true }
    | none => d
  else d

/-- A wake source is enabled; the edge of the WAKE pin is that of PWR_WAKEEN.WPOL, and a part without measurement channels has no HK_LIMIT (14 R326, 15 R361). -/
def Dev.wakeEn (P : Part) (d : Dev) (s : WakeSrc) : Bool :=
  let w := d.reg 0xD0000
  match s with
  | .pin rising => bit w 0 && (rising != bit w 1)
  | .link _ => bit w 2
  | .hkLimit => bit w 3 && decide (P.hkin ≠ 0)
  | .gpi n => bit w (8 + n.val)
  | .wdtaEarly => true

/-- Bit of a wake source in PWR_WAKESRC. -/
def wakeBit : WakeSrc → Nat
  | .pin _ => 0
  | .link _ => 2
  | .hkLimit => 3
  | .wdtaEarly => 4
  | .gpi n => 8 + n.val

/-- An enabled wake source stands asserted in RUN: the early warning, or a signal on a DEEP link (14 R323). -/
def Dev.wakeNow (d : Dev) : Bool :=
  (d.wdt.aRun && d.wdt.aEarly) ||
    (bit (d.reg 0xD0000) 2 && (List.finRange 4).any fun n => (d.kl.links[laneLink n]).st == .deep && (d.kl.lanes[n]).signal)

/-- The code of the first condition of R323 that fails, 0 when all hold. -/
def Dev.standbyRefusal (P : Part) (d : Dev) : Nat :=
  if d.hng.st ≠ .off then 1
  else if (List.finRange 16).any fun n => dmaPresent P n && (d.dma[n]).st != .idle then 2
  else if (List.finRange 4).any fun p => bit (d.portReg p 0) 0 || (d.port[p]).disPend then 3
  else if d.motBusy 0 || d.motBusy 1 then 4
  else if d.pwr.nvmOp.isSome then 5
  else if d.wdt.attached then 6
  else if d.wakeNow then 7
  else 0

/-- The entry to STANDBY goes on once SUSPEND has been accepted (14 R324, R351): DEEP is asked of every ACTIVE link. -/
def Dev.entryGo (P : Part) (d : Dev) : Dev :=
  if d.phase = .entering ∧ d.pwr.suspDue then
    match d.trcSuspend P 3 with
    | some d =>
      let ls := (List.finRange 3).filter fun k => (d.kl.links[k]).st == .active
      ls.foldl (fun d k => d.linkDeep k) (d.updPwr fun p => { p with suspDue := false, deepWait := ls })
    | none => d
  else d

/-- SYS STANDBY (14 R323, R324): whether it was accepted. On acceptance store buffers drain, as do the beats that engines have put out, and the entry begins. -/
def Dev.standbyReq (P : Part) (d : Dev) : Bool × Dev :=
  let r := d.standbyRefusal P
  if r ≠ 0 then (false, d.updPwr fun p => { p with refuse := r })
  else
    (true, (({ (d.drainAll P).lateAll P with phase := .entering }).updPwr fun p => { p with suspDue := true, deepWait := [] }).entryGo P)

/-- Every DEEP link is woken (14 R324, R327). -/
def Dev.wakeLinks (d : Dev) : Dev := (List.finRange 3).foldl (fun d k => d.linkWake k) d

/-- RESUME and SYNC after STANDBY or an abandoned entry (14 R327, R328, R351). -/
def Dev.traceResume (P : Part) (d : Dev) : Dev := (d.traceGlobal P 6 3 d.pwr.slept).trcSyncOn P

/-- An abandoned entry (14 R324, R328); RESUME answers a SUSPEND that has been written (R351). -/
def Dev.abandonEntry (P : Part) (d : Dev) (code : Nat) : Dev :=
  if d.phase = .entering then
    let waits := d.pwr.suspDue
    let d := (List.finRange 3).foldl (fun d k => d.updLink k fun l => { l with deepWant := false }) d
    let d := (({ d with phase := .run }).wakeLinks.updPwr fun p => { p with refuse := code, abandoned := true, suspDue := false, deepWait := [] })
    if waits then d else d.traceResume P
  else d

/-- STANDBY_ENTRY (14 R324, R325, R351): SUSPEND is written and every link has answered; S_entry is recorded, LS contents are lost and its slots are empty (15 R361), HK enters its standby behaviour. -/
def Dev.standbyEntry (P : Part) (d : Dev) : Dev :=
  if d.phase = .entering ∧ !d.pwr.suspDue ∧ d.pwr.deepWait = [] then
    let lost := fun a => let r := regionOf P a; r == .ls || r == .lsAbsent
    let pulled := d.lholdPulled P
    let d := { d with phase := .standby, mem := d.mem.loseLs, ecc := d.ecc.filter fun c => !lost c.1 }
    let d := (d.updPwr fun p => { p with sEntry := d.stb, aonEdges := 0 }).updKl fun k => { k with pll := false }
    (d.updCas fun c => { c with lholdKept := pulled }).emptySlots.hkStandby
  else d

/-- A wake source asserts; PWR_WAKESRC takes every enabled one of the AON tick of the wake (14 R326, R328). -/
def Dev.wakeSource (P : Part) (d : Dev) (s : WakeSrc) : Dev :=
  let deep : Bool := match s with | .link k => (d.kl.links[k]).st == .deep | _ => true
  if d.wakeEn P s && deep then
    match d.phase with
    | .entering => d.abandonEntry P 9
    | .standby => ({ d with phase := .waking }).updPwr fun p => { p with wakeSrc := place 1 (wakeBit s), wakeTick := p.aonEdges }
    | .waking | .reloading => if d.pwr.aonEdges = d.pwr.wakeTick then d.updPwr fun p => { p with wakeSrc := p.wakeSrc ||| place 1 (wakeBit s) } else d
    | _ => d
  else d

/-- PLLC_LOCK (01 R27, 14 R327, "Boot transitions"). -/
def Dev.pllcLock (d : Dev) : Dev :=
  match d.phase with
  | .clocks => { d with phase := .verify, stb := 0 }
  | .waking => { d with phase := .reloading }
  | _ => d

/-- STB after n CK_AON edges in STANDBY, and the fractional remainder in 1/32 (01 R30). -/
def stbReloaded (s : Pos) (frac n : Nat) : Pos × Nat :=
  let t := n * 390625 + frac
  (s + BitVec.ofNat 48 (t / 32), t % 32)

/-- STB_RELOAD (01 R30, R31, 05 R130, 11 R274, 14 R327, 15 R362): at CK_AON edge number n from S_entry, after every edge already counted. -/
def Dev.stbReload (P : Part) (d : Dev) (n : Nat) : Dev :=
  if d.phase = .reloading ∧ d.pwr.aonEdges < n then
    let (t, f) := stbReloaded d.pwr.sEntry d.pwr.frac n
    let d := ({ d with phase := .run, stb := t }).updPwr fun p => { p with frac := f, slept := nword n }
    let d := d.wakeLinks.traceResume P
    let held := d.ev.held
    let d := d.updEv fun e => { e with held := [], resync := List.range 65 }
    ((held.foldl (fun d h => d.assert h.1 h.2) d).hkWake P).updCas fun c => { c with heardAt := d.cycle }
  else d

/-- SQUELCH_OPEN (10 R247, 14 R326): in STANDBY it is a wake source. -/
def Dev.squelch (P : Part) (d : Dev) (n : LaneId) : Dev :=
  if d.asleep then (d.updLane n fun x => { x with signal := true }).wakeSource P (.link (laneLink n))
  else (d.wakeSource P (.link (laneLink n))).squelchOpen n

/-- GPI_EDGE (05 R116, 14 R326). -/
def Dev.gpiEdge (P : Part) (d : Dev) (n : Fin 8) (level : Bool) : Dev :=
  let d1 := d.gpiRaise n level
  if d.gpiSelected n level then d1.wakeSource P (.gpi n) else d1

/-- WDTA_EARLY with its wake (12 R278, 14 R326). -/
def Dev.wdtaEarlyWake (P : Part) (d : Dev) : Dev :=
  let d1 := d.wdtaEarly P
  if d.wdt.aRun ∧ !d.wdt.aEarly then d1.wakeSource P .wdtaEarly else d1

/-- A limit crossing asserts event 34 as a wake source (14 R326, R328): RESULT_PUBLISH with its wake. -/
def Dev.publishWake (P : Part) (d : Dev) : Dev :=
  let d1 := d.resultPublish P
  if (d1.ev.held.drop d.ev.held.length).any (fun h => h.1 == 34) || (d1.ev.src[(34 : Fin 64)]).seq != (d.ev.src[(34 : Fin 64)]).seq then
    d1.wakeSource P .hkLimit
  else d1

/-- DEEP_NAK (10 R246, 14 R324). -/
def Dev.nakWake (P : Part) (d : Dev) (n : LaneId) (b : Block) : Dev :=
  let (nak, d) := d.deepNakRx n b
  if nak then d.abandonEntry P 8 else d

/-! ### Reset release and boot -/

/-- RESET_RELEASE (14 R339 "Boot transitions", 12 R276, 13 R295, R298): straps and fuses are read, WDT-A may start, a chain master takes address 0. -/
def Dev.resetRelease (P : Part) (d : Dev) : Dev :=
  if d.phase = .inReset then
    let d := ({ d with phase := .clocks }).updCas fun c => { c with strap := d.pins.role }
    let d := if d.role P = 1 then d.updCas fun c => { c with addr := 0, chnO := P.casc } else d
    if P.autostart then d.wdtAStart P else d
  else d

/-- ECC of a range the boot ROM reads (14 R334, R341). -/
def Dev.eccRange (P : Part) (d : Dev) (lo hi : Nat) : Dev :=
  (d.ecc.filter fun e => decide (lo < e.1 + 16) && decide (e.1 < hi)).foldl (fun d e => d.eccRead1 P e.1) d

/-- A range holds an uncorrectable error. -/
def Dev.badRange (d : Dev) (lo hi : Nat) : Bool := d.ecc.any fun e => e.2 == .double && decide (lo < e.1 + 16) && decide (e.1 < hi)

/-- Base of the SUP or LNK image (14 "Images"). -/
def imageAt (lnk : Bool) : Nat := if lnk then 0x4050000 else 0x4000000

/-- A header word of an image (14 R333). -/
def Dev.imgWord (d : Dev) (lnk : Bool) (o : Nat) : Word := d.word (imageAt lnk + o)

/-- LEN's limit (14 R333). -/
def imgLimit (lnk : Bool) : Nat := if lnk then 65344 else 327488

/-- The header checks of R334. -/
def Dev.imgHeader (d : Dev) (lnk : Bool) : Bool :=
  let w := d.imgWord lnk
  let len := (w 8).toNat
  let load := (w 0x1C).toNat
  let inside := fun (e : Word) => e.toNat % 4 == 0 && decide (load ≤ e.toNat) && decide (e.toNat < load + len)
  w 0 == 0x4B4A5531 && w 4 == (if lnk then 2 else 1) && decide (len ≤ imgLimit lnk) &&
    (lnk || (decide (load + len ≤ 0x100000) && inside (w 0x20) && inside (w 0x24)))

/-- Reasons for which an image is invalid: 1 header, 2 key hash, 3 signature, 4 ECC, 5 key-hash fuse blank (14 R334, R335). -/
def Dev.imgFails (P : Part) (d : Dev) (lnk : Bool) : List Nat :=
  let keys := (List.range 8).map P.fuse
  if keys.all (fun w => w == 0) then [5]
  else
    let a := imageAt lnk
    let len := min (d.imgWord lnk 8).toNat (imgLimit lnk)
    let key := d.bytes (a + 0x40) 64
    let digest := (sha256 (d.bytes a 0x80 ++ d.bytes (a + 0xC0) len)).foldl (fun n w => n * 2 ^ 32 + w) 0
    let num := fun o => beNat (d.bytes (a + o) 32)
    (if d.imgHeader lnk then [] else [1]) ++
      (if (sha256 key).map nword = keys then [] else [2]) ++
      (if ecdsaOk digest (num 0x40) (num 0x60) (num 0x80) (num 0xA0) then [] else [3]) ++
      (if d.badRange a (a + 0xC0 + len) then [4] else [])

/-- The one reason SYS_BOOT names of those that hold (14 R335, log 16). -/
def bootReasonOf (rs : List Nat) : Nat := match rs with
  | [r] => r
  | rs => if rs.contains (Config.bootReason rs) then Config.bootReason rs else rs.headD 0

/-- An ID or revision lies in a range (14 R335). -/
def within (lo hi x : Nat) : Bool := decide (lo ≤ x) && decide (x ≤ hi)

/-- The MISMATCH mask of a valid SUP (14 R335). -/
def Dev.mismatch (P : Part) (d : Dev) (lnkOk : Bool) : Nat :=
  let s := d.imgWord false
  let l := d.imgWord true
  let rev := P.rev.toNat
  let revOk := fun (w : Word) => within (fld w 0 16) (fld w 16 16) rev
  (if lnkOk && !within (s 0x10).toNat (s 0x14).toNat (l 0xC).toNat then 1 else 0) +
  (if lnkOk && !within (l 0x10).toNat (l 0x14).toNat (s 0xC).toNat then 2 else 0) +
  (if revOk (s 0x18) then 0 else 4) + (if lnkOk && !revOk (l 0x18) then 8 else 0) + (if lnkOk then 0 else 16)

/-! ### Records -/

/-- A valid record: TYPE, LENGTH, GEN and header address (14 R344). -/
structure Rec where
  typ : Nat
  len : Nat
  gen : Nat
  at_ : Nat
  deriving DecidableEq, Repr

/-- Totals of a scan: valid records in ascending address, TORN and SKIPPED (14 R346), and the ranges the ROM has read. -/
structure Scan where
  recs : List Rec := []
  reads : List (Nat × Nat) := []
  torn : Nat := 0
  skipped : Nat := 0
  deriving DecidableEq, Repr

/-- A TYPE that is not reserved (14 R344). -/
def typeKnown (t : Nat) : Bool := decide (1 ≤ t ∧ t ≤ 3) || decide (0x100 ≤ t ∧ t ≤ 0x7FFF)

/-- Bytes of a record's extent (14 R344). -/
def recSize (len : Nat) : Nat := 16 * (2 + (len + 4 + 15) / 16)

/-- A program unit reads all 0xFF without ECC error (14 R340). -/
def Dev.erased (d : Dev) (a : Nat) : Bool := (d.bytes a 16).all (fun b => b == 0xFF) && d.mark a != some .double

/-- The CRC-32 of a record: over its header unit and payload bytes (14 R344). -/
def Dev.recCrc (d : Dev) (a len : Nat) : Word := crc32 (d.bytes a 16 ++ d.bytes (a + 16) len)

/-- A record whose commit unit is right (14 R346). -/
def Dev.committed (d : Dev) (a len : Nat) : Bool :=
  let c := a + recSize len - 16
  d.word c == d.word (a + 4) && d.word (c + 4) == ~~~(d.word (a + 4)) && d.word (c + 12) == 0x5A5AA5A5 &&
    !d.badRange a (a + 16) && !d.badRange c (c + 16)

/-- The payload's CRC holds, in its last 4 bytes and in the commit unit. -/
def Dev.payloadOk (d : Dev) (a len : Nat) : Bool :=
  let c := a + recSize len - 16
  d.recCrc a len == d.word (c - 4) && d.recCrc a len == d.word (c + 8) && !d.badRange a (c + 16)

/-- Records of one sector from an offset (14 R346), with the offset at which the scan of the sector ended, none when it was skipped. -/
def Dev.scanSector (d : Dev) (base : Nat) : Nat → Nat → Scan → Scan × Option Nat
  | 0, o, s => (s, some o)
  | fuel + 1, o, s =>
    let a := base + o
    let commit := fun len => (a + recSize len - 16, a + recSize len)
    if 4096 ≤ o then (s, some o)
    else
      let s := { s with reads := s.reads ++ [(a, a + 16)] }
      if d.erased a then (s, some o)
      else
      let w0 := d.word a
      let len := fld w0 16 16
      if d.word (a + 8) ≠ ~~~(w0 ^^^ d.word (a + 4)) ∨ !typeKnown (fld w0 0 16) ∨ 4060 < len ∨ 4096 < o + recSize len then
        ({ s with skipped := s.skipped + 1 }, none)
      else if !d.committed a len then d.scanSector base fuel (o + recSize len) { s with torn := s.torn + 1, reads := s.reads ++ [commit len] }
      else
        let s := { s with reads := s.reads ++ [(a + 16, a + recSize len)] }
        if d.payloadOk a len then
          d.scanSector base fuel (o + recSize len) { s with recs := s.recs ++ [⟨fld w0 0 16, len, (d.word (a + 4)).toNat, a⟩] }
        else d.scanSector base fuel (o + recSize len) { s with torn := s.torn + 1 }

/-- Base addresses of the record sectors. -/
def recordSectors : List Nat := (List.range 32).map fun i => 0x4060000 + 4096 * i

/-- The scan of the record area (14 R346). -/
def Dev.scanAll (d : Dev) : Scan := recordSectors.foldl (fun s b => (d.scanSector b 257 0 s).1) {}

/-- The record of a type that wins: the highest GEN, on a tie the higher address (14 R346). -/
def winner (rs : List Rec) (t : Nat) : Option Rec :=
  rs.foldl (fun b r => if r.typ = t then (match b with | some x => if r.gen < x.gen then some x else some r | none => some r) else b) none

/-- Winners in ascending TYPE (14 R347). -/
def winners (rs : List Rec) : List Rec :=
  (((rs.map fun r => r.typ).dedup).mergeSort).filterMap (winner rs)

/-- The index written in AON, its end marked by a TYPE of 0xFFFF (14 R347). -/
def Dev.writeIndex (P : Part) (d : Dev) (ws : List Rec) : Dev :=
  let es := ws.take 128
  let d := d.store P 0x3001000 ((es.flatMap fun r => [place r.typ 0 ||| place r.len 16, nword r.at_]).flatMap wordBytes)
  if es.length < 128 then d.store P (0x3001000 + 8 * es.length) [0xFF, 0xFF] else d

/-- A count of NVM_RECSTAT; past 255 its 8 bits hold a value the spec does not state (log 16). -/
def recCount (n : Nat) : Nat := if n ≤ 255 then n else (Config.recOver n).toNat

/-- NVM_RECSTAT of a scan (14 R346-R348). -/
def recStat (s : Scan) (ws : List Rec) (noSpace : Bool) : Word :=
  place (recCount s.recs.length) 0 ||| place (recCount s.torn) 8 ||| place (recCount s.skipped) 16 ||| flag noSpace 24 ||| flag (decide (128 < ws.length)) 25

/-- The bytes of a record (14 R344). -/
def recBytes (typ gen : Nat) (payload : List Byte) : List Byte :=
  let w0 := place typ 0 ||| place payload.length 16
  let head := [w0, nword gen, ~~~(w0 ^^^ nword gen), 0].flatMap wordBytes
  let c := crc32 (head ++ payload)
  head ++ payload ++ List.replicate (recSize payload.length - 32 - payload.length - 4) 0xFF ++ wordBytes c ++
    [nword gen, ~~~(nword gen), c, 0x5A5AA5A5].flatMap wordBytes

/-- Where a WDEVID record goes: erased space after the last record of the first sector that has room (14 R348). -/
def Dev.roomFor (d : Dev) (n : Nat) : Option Nat :=
  recordSectors.findSome? fun b => match (d.scanSector b 257 0 {}).2 with
    | some o => if o + n ≤ 4096 ∧ (List.range (n / 16)).all (fun i => d.erased (b + o + 16 * i)) then some (b + o) else none
    | none => none

/-- The evidence record of a watchdog reset written by the boot ROM (12 R291, 14 R348), with a GEN above every WDEVID record's (R345), and whether no sector had room. -/
def Dev.writeWdevid (P : Part) (d : Dev) : Bool × Dev :=
  if isWdtCause d.pwr.rstCause.toNat then
    let gen := match winner d.scanAll.recs 1 with | some r => r.gen + 1 | none => 1
    let bs := recBytes 1 gen (d.bytes evidenceAt 12)
    match d.roomFor bs.length with
    | some a => (false, d.store P a bs)
    | none => (true, d)
  else (false, d)

/-- After a power-on, WDRST comes from the highest committed record and CAUSE is the power-on code (12 R291). -/
def Dev.powerOnEvidence (P : Part) (d : Dev) : Dev :=
  if d.pwr.rstCause = 1 then
    let n := match winner d.scanAll.recs 1 with | some r => fld (d.word (r.at_ + 16)) 0 16 | none => 0
    d.store P evidenceAt ((evidenceWords (place n 0 ||| place 1 16) 0 0).flatMap wordBytes)
  else d

/-! ### The boot outcome -/

/-- A context started by the boot (03 R64). -/
def Dev.bootCtx (P : Part) (d : Dev) (c : CtxId) (pc : Word) : Dev :=
  if ctxPresent P c then d.setRun P c fun x => { x with run := .ready, priv := true, pc := pc, issuableSince := d.cycle } else d

/-- RECOVERY (14 R338, 03 R64). -/
def Dev.bootRecovery (P : Part) (d : Dev) (reason : Nat) : Dev :=
  let d := d.updSys fun y => { y with outcome := 3, reason := BitVec.ofNat 3 reason, mismatch := 0 }
  let d := (List.finRange 3).foldl (fun d k => d.linkDisable P k) { d with ctx := d.ctx.map fun x => { x with run := .stopped } }
  [(0 : CtxId), 32].foldl (fun d c => if ctxPresent P c then d.updCtx c fun x => { x with priv := true, pc := 0 } else d) d

/-- FULL or RESTRICTED (14 R336, R337). -/
def Dev.bootRun (P : Part) (d : Dev) (lnkOk : Bool) (mm : Nat) : Dev :=
  let len := (d.imgWord false 8).toNat
  let e0 := d.imgWord false 0x20
  let e32 := d.imgWord false 0x24
  let d := d.store P (d.imgWord false 0x1C).toNat (d.bytes (imageAt false + 0xC0) len)
  let d := d.updKl fun k => { k with
    verRange := if lnkOk then d.imgWord true 0x28 else 0x0000FFFF
    micro := if lnkOk then d.bytes (imageAt true + 0xC0) (d.imgWord true 8).toNat else [] }
  let d := d.updSys fun y => { y with
    outcome := if mm = 0 then 1 else 2, mismatch := BitVec.ofNat 5 mm, reason := 0
    supId := d.imgWord false 0xC, lnkId := if lnkOk then d.imgWord true 0xC else 0 }
  let (noSpace, d) := d.writeWdevid P
  let s := d.scanAll
  let d := s.reads.foldl (fun d r => d.eccRange P r.1 r.2) d
  let d := (d.writeIndex P (winners s.recs)).updPwr fun p => { p with recStat := recStat s (winners s.recs) noSpace }
  let d := if mm = 0 then d else d.restrictedLink
  (d.bootCtx P 0 e0).bootCtx P 32 e32

/-- BOOT_OUTCOME (14 R333-R338). -/
def Dev.bootOutcome (P : Part) (d : Dev) : Dev :=
  if d.phase = .verify then
    let sup := d.imgFails P false
    let d := { d with phase := .run }
    let d := if sup = [5] then d else d.eccRange P (imageAt false) (imageAt false + 0xC0 + min (d.imgWord false 8).toNat (imgLimit false))
    let d := d.powerOnEvidence P
    if sup ≠ [] then d.bootRecovery P (bootReasonOf sup)
    else
      let lnkOk := d.imgFails P true == []
      let d := d.eccRange P (imageAt true) (imageAt true + 0xC0 + min (d.imgWord true 8).toNat (imgLimit true))
      d.bootRun P lnkOk (d.mismatch P lnkOk)
  else d

/-- SYS_BOOT (16 R363). -/
def Sys.boot (y : Sys) : Word := y.outcome.setWidth 32 ||| (y.mismatch.setWidth 32 <<< 8) ||| (y.reason.setWidth 32 <<< 16)

/-! ### NVM operations -/

/-- The sector of a unit is protected (14 R342). -/
def Dev.nvmProtected (d : Dev) (unit : Nat) : Bool := if unit / 256 < 96 then d.pwr.wprot.getLsbD 0 else d.pwr.wprot.getLsbD 1

/-- NVM_CMD written: 1 PROGRAM, 2 ERASE (14 R340). -/
def Dev.nvmCmd (d : Dev) (op : Nat) : Dev :=
  let u := fld (d.reg 0xE0000) 4 15
  if op ≠ 1 ∧ op ≠ 2 then d
  else if d.pwr.nvmOp.isSome then d.updPwr fun p => { p with busyRej := true }
  else
    let prot := d.nvmProtected u
    let full := op == 1 && !d.erased (0x4000000 + 16 * u)
    if prot || full then d.updPwr fun p => { p with prot := p.prot || prot, notBlank := p.notBlank || full }
    else d.updPwr fun p => { p with
      nvmOp := some (if op = 1 then .program u #v[d.reg 0xE0004, d.reg 0xE0008, d.reg 0xE000C, d.reg 0xE0010] else .erase (u / 256)) }

/-- NVM_OPERATION_DONE (14 R340). -/
def Dev.nvmDone (P : Part) (d : Dev) : Dev :=
  match d.pwr.nvmOp with
  | some op =>
    let d := match op with
      | .program u w => d.store P (0x4000000 + 16 * u) (w.toList.flatMap wordBytes)
      | .erase s =>
        let lo := 0x4000000 + 4096 * s
        { d with
          mem := d.mem.keep fun a => decide (a < lo ∨ lo + 4096 ≤ a)
          ecc := d.ecc.filter fun c => c.1 < lo || lo + 4096 ≤ c.1 }
    d.updPwr fun p => { p with nvmOp := none, nvmDone := true }
  | none => d

/-- NVM_STAT. -/
def Pwr.nvmStat (p : Pwr) : Word := flag p.nvmOp.isSome 0 ||| flag p.nvmDone 1 ||| flag p.notBlank 2 ||| flag p.prot 3 ||| flag p.busyRej 4

/-- A W1C write of NVM_STAT. -/
def Pwr.nvmW1c (p : Pwr) (v : Word) : Pwr :=
  { p with nvmDone := p.nvmDone && !bit v 1, notBlank := p.notBlank && !bit v 2, prot := p.prot && !bit v 3, busyRej := p.busyRej && !bit v 4 }

/-- NVM_WPROT written: bits are only set (14 R342). -/
def Dev.wprotWrite (d : Dev) (v : Word) : Dev := d.updPwr fun p => { p with wprot := p.wprot ||| v.extractLsb' 0 2 }

/-! ### Temperature, supplies and trace registers -/

/-- DIE_TEMP_SAMPLE (14 R332, 07 R160). -/
def Dev.dieTemp (d : Dev) (t : Half) : Dev :=
  let tw := sfld (d.reg 0xD0018) 0 16
  let hot := d.pwr.tempArmed && decide (tw ≤ t.toInt)
  let d1 := d.updPwr fun p => { p with dieTemp := t, tempArmed := if hot then false else p.tempArmed || decide (t.toInt < tw - 50) }
  let d1 := if hot then d1.raise 54 (t.signExtend 32) else d1
  if bit (d.reg 0x40000) 3 ∧ !d.asleep then d1.dieCross t.toInt else d1

/-- SUPPLY_WARN (14 R332): an exit from a window latches and raises event 55. -/
def Dev.supplyWarn (d : Dev) (mon : Fin 4) (outside : Bool) : Dev :=
  let m : BitVec 4 := 1#4 <<< mon.val
  if outside then
    if d.pwr.supOut &&& m ≠ 0 then d
    else if d.phase = .inReset then d.updPwr fun p => { p with supOut := p.supOut ||| m }
    else (d.updPwr fun p => { p with supOut := p.supOut ||| m, supLatch := p.supLatch ||| m }).raise 55 (nword mon.val)
  else d.updPwr fun p => { p with supOut := p.supOut &&& ~~~m }

/-- PWR_STAT: STATE is 1 while a STANDBY entry runs (14 "Power transitions"). -/
def Dev.pwrStat (d : Dev) : Word :=
  place (if d.phase = .entering then 1 else 0) 0 ||| flag d.pwr.gated[(0 : Fin 2)] 2 ||| flag d.pwr.gated[(1 : Fin 2)] 3 ||| place d.pwr.refuse 4 ||| flag d.pwr.abandoned 8

/-- PWR_CMD written (14 R330): cause MANAGEMENT from the management master, SOFTWARE from any other. -/
def Dev.pwrCmd (P : Part) (d : Dev) (m : Master) (v : Word) : Dev :=
  if bit v 0 then d.resetDev P (if m = .mgmt then 7 else 6) else d

/-- TRC_CTL written: EN = 1 starts with a SYNC group (14 R349). -/
def Dev.trcCtlWrite (P : Part) (d : Dev) (v : Word) : Dev :=
  let was := bit d.trcCtl 0
  let d := d.writeReg P 0xF0000 v
  if bit v 0 ∧ !was then d.trcStart P else d

/-- TRC_RPTR written: FULL follows the pointers (14 R350). -/
def Dev.trcRptrWrite (P : Part) (d : Dev) (v : Word) : Dev :=
  let d := d.writeReg P 0xF000C v
  d.updPwr fun p => { p with tFull := (p.tWptr + 1) % 4096 == fld (d.reg 0xF000C) 4 12 }

end Sys2Proof.Machine
end

