-- ==== Sys2Proof/Machine/Mmio.lean ====
section
/-!
DEFINITION. The MMIO port: which offsets belong to absent units, what U privilege may not touch, what each register reads and what a write of it does, by the register maps of the chapters. An offset counts from 0x0800_0000.
-/
namespace Sys2Proof.Machine

/-! ### Absent units and privilege -/

/-- Offsets of the named registers of a port's page (06 R155). -/
def portNamed (r : Nat) : Bool := decide (r < 0x28) || decide (0x400 ≤ r ∧ r < 0x600)

/-- Offsets of the named registers of a link's page (10 R249). -/
def linkNamed (r : Nat) : Bool := decide (r < 0x30)

/-- The registers of an absent unit (00 R4, R6, 03 R91, 05 R134, 06 R155, 07 R176, 09 R220, 10 R250, 13 R321): every offset of an absent block, otherwise the unit's named registers. -/
def regAbsent (P : Part) (o : Nat) : Bool :=
  let r := o % 0x10000
  match o / 0x10000 with
  | 1 => decide (0x1000 ≤ r ∧ r < 0x3000 ∧ P.contexts ≤ (r - 0x1000) / 0x80)
  | 2 => decide (0x1000 ≤ r ∧ r < 0x1400) && srcAbsent P (Fin.ofNat 64 ((r - 0x1000) / 16))
  | 3 => decide (0x1000 ≤ r ∧ r < 0x5000 ∧ P.ports ≤ r / 0x1000 - 1) && portNamed (r % 0x1000)
  | 4 =>
    (!P.xplane && (decide (r = 0x130 ∨ r = 0x134) || decide (0x7000 ≤ r ∧ r < 0x8000) || decide (0xE000 ≤ r))) ||
    (decide (P.anchors ≤ 2) && decide (r = 0x18 ∨ r = 0x1C)) ||
    (!P.corr && (decide (0x40 ≤ r ∧ r < 0x50) || decide (r = 0x50 ∨ r = 0x54)))
  | 8 =>
    (decide (0x1000 ≤ r ∧ r < 0x2000 ∧ P.dmach ≤ (r - 0x1000) / 0x100) && decide (r % 0x100 < 0x30)) ||
    (decide (0x8000 ≤ r ∧ r < 0x8400 ∧ P.dmach ≤ (r - 0x8000) / 0x40) && (decide (r % 0x40 = 0) || decide (0x10 ≤ r % 0x40 ∧ r % 0x40 < 0x20)))
  | 9 =>
    (!P.casc && decide (0x200 ≤ r ∧ r < 0x400) && linkNamed (r % 0x100)) ||
    (!P.casc && decide (0x480 ≤ r ∧ r < 0x500) && decide (r % 0x40 < 0x18)) ||
    (decide (P.lanes = 1) && decide (0x440 ≤ r ∧ r < 0x458))
  | 10 => decide (P.hkin = 0)
  | 12 => !P.casc || (!P.pair && decide (0x40 ≤ r ∧ r < 0x5C))
  | _ => false

/-- An MMIO access that a U context may not make; in the EVT block that is every write but those of the registers R133 opens, reserved offsets included (DESIGN CHOICE, log 114) (03 R70, 05 R133, 09 R219, 12 R294, 13 R321, 14 R353). -/
def uDenied (o : Nat) (write : Bool) : Bool :=
  let r := o % 0x10000
  match o / 0x10000 with
  | 0 => write && !decide (0x80 ≤ r ∧ r < 0x100)
  | 1 => true
  | 2 => write && !decide (0x20 ≤ r ∧ r < 0x30)
  | 8 => write && decide (0x8000 ≤ r)
  | 11 => true
  | 12 => true
  | 13 => true
  | 14 => true
  | 15 => true
  | _ => false

/-! ### What registers read -/

/-- SYS_FAULT. -/
def Sys.fault (y : Sys) : Word := flag y.absent 0 ||| flag y.mgmtErr 1
/-- SYS_FR_WIDX. -/
def Sys.frWidx (y : Sys) : Word := y.frW.setWidth 32 ||| (y.frSeq.setWidth 32 <<< 16)
/-- SYS_FR_STAT. -/
def Sys.frStat (y : Sys) : Word := place y.frPend 0 ||| flag y.frOver 7
/-- SYS_MGMT_STAT. -/
def Dev.mgmtStat (P : Part) (d : Dev) : Word :=
  flag P.halock 0 ||| flag P.dbgdis 1 ||| (d.sys.spiCrc.setWidth 32 <<< 8) ||| (d.sys.discarded.setWidth 32 <<< 16)

/-- Registers of the SYS block (16 R363). -/
def Dev.sysVal (P : Part) (d : Dev) (r : Nat) : Word :=
  if r = 0 then P.id
  else if r = 4 then P.caps
  else if r = 8 then d.sys.fault
  else if r = 0xC then d.sys.boot
  else if r = 0x10 then d.sys.frWidx
  else if r = 0x14 then d.sys.frR.setWidth 32
  else if r = 0x18 then d.sys.frStat
  else if r = 0x1C then d.mgmtStat P
  else if r = 0x40 then d.stb.extractLsb' 0 32
  else if 0x80 ≤ r ∧ r < 0x100 then d.sys.sem[Fin.ofNat 16 ((r - 0x80) / 4)]
  else if 0x100 ≤ r ∧ r < 0x200 then P.fuse ((r - 0x100) / 4)
  else 0

/-- CTX_n_STATE.LIVE (03 R91). -/
def Ctx.live (x : Ctx) : Bool := x.run != .stopped && !x.frozen

/-- CTX_n_STATE. -/
def Ctx.state (x : Ctx) : Word :=
  place (runCode x.run) 0 ||| flag x.frozen 2 ||| flag (decide (0 < x.urgent)) 3 ||| flag x.priv 4 ||| flag x.live 5 |||
    (x.lastCause.setWidth 32 <<< 8) ||| place x.sbuf.length 16

/-- Bit n of a word for the contexts of one sequencer that are frozen. -/
def Dev.frozenWord (d : Dev) (base : Nat) : Word :=
  (List.range 32).foldl (fun w i => w ||| flag (d.ctx[Fin.ofNat 64 (base + i)]).frozen i) 0

/-- A register of one context (03 R91), by its offset within the context. -/
def Ctx.val (P : Part) (x : Ctx) (r : Nat) : Word :=
  if r = 0 then x.state
  else if r = 4 then x.pc
  else if r = 8 then stWord x
  else if r = 0xC then x.entry
  else if 0x10 ≤ r ∧ r < 0x30 then
    let w := x.win[Fin.ofNat 4 ((r - 0x10) / 8)]
    if r % 8 = 0 then w.base else w.limit
  else if r = 0x30 then x.emask.extractLsb' 0 32
  else if r = 0x34 then x.emask.extractLsb' 32 32
  else if r = 0x38 then place x.queue.length 0
  else if r = 0x3C then (if P.pair then x.mirror else 0)
  else if r = 0x40 then 0
  else if 0x44 ≤ r ∧ r < 0x80 then x.g[Fin.ofNat 16 ((r - 0x40) / 4)]
  else 0

/-- Registers of the CTX block. -/
def Dev.ctxVal (P : Part) (d : Dev) (r : Nat) : Word :=
  if r = 0 then d.frozenWord 0
  else if r = 4 then d.frozenWord 32
  else if r = 8 then d.mfrozen.setWidth 32
  else if 0x1000 ≤ r ∧ r < 0x3000 then (d.ctx[Fin.ofNat 64 ((r - 0x1000) / 0x80)]).val P (r % 0x80)
  else 0

/-- Registers of the EVT block (05 R134, 04 R107): EVT_WREC shows a context its own latch and any other master 0. -/
def Dev.evtVal (d : Dev) (m : Master) (r : Nat) : Word :=
  if r = 4 then d.ev.hqStat
  else if r = 0x10 then d.ev.intPend.extractLsb' 0 32
  else if r = 0x14 then d.ev.intPend.extractLsb' 32 32
  else if 0x40 ≤ r ∧ r < 0x80 ∧ r % 16 = 8 then (d.ev.timer[Fin.ofNat 4 ((r - 0x40) / 16)]).count
  else if 0x1000 ≤ r ∧ r < 0x1400 ∧ r % 16 = 12 then (d.ev.src[Fin.ofNat 64 ((r - 0x1000) / 16)]).seqWord
  else if 0xFF00 ≤ r ∧ r < 0xFF10 then
    match m with
    | .ctx c => (d.ctx[c]).wrec[Fin.ofNat 4 ((r - 0xFF00) / 4)]
    | _ => 0
  else d.reg (0x20000 + r)

/-- Registers of the PORT block (06 R155). -/
def Dev.portVal (d : Dev) (r : Nat) : Word :=
  if r = 4 then flag d.pldup 0 ||| flag d.widthErr 1
  else if 0x100 ≤ r ∧ r < 0x180 then
    let k : Fin 4 := Fin.ofNat 4 ((r - 0x100) / 0x20)
    let l := d.led[k]
    match r % 0x20 with
    | 0x0C => place l.gcode 0
    | 0x10 => place l.meas 0
    | 0x14 => d.ledStatus k
    | _ => d.reg (0x30000 + r)
  else if 0x1000 ≤ r ∧ r < 0x5000 then
    let p : PortId := Fin.ofNat 4 (r / 0x1000 - 1)
    match r % 0x1000 with
    | 0x1C => d.portState p
    | 0x20 => d.portStatus p
    | 0x24 => (d.port[p]).lineCnt
    | _ => d.reg (0x30000 + r)
  else d.reg (0x30000 + r)

/-- Registers of the PIX block (07 R176). -/
def Dev.pixVal (d : Dev) (r : Nat) : Word :=
  match r with
  | 0x04 => d.pix.status
  | 0x08 => d.pix.tempWord
  | 0x0C => d.pix.shStat
  | 0x50 => d.pix.cres
  | 0x54 => d.pix.ctime
  | _ => d.reg (0x40000 + r)

/-- Registers of the HNG block (02 R63). HNG_LAST_LO and HI show the grid position of the last fired line (DESIGN CHOICE, log 83). -/
def Dev.hngVal (P : Part) (d : Dev) (r : Nat) : Word :=
  if 0x400 ≤ r ∧ r < 0x800 then
    let x := d.hng.streams[Fin.ofNat 64 ((r - 0x400) / 16)]
    match r % 16 with
    | 0 => x.cfg
    | 4 => x.granted
    | 8 => x.delivered
    | _ => x.avail
  else if 0x800 ≤ r ∧ r < 0x900 then (d.hng.streams[Fin.ofNat 64 ((r - 0x800) / 4)]).rrate
  else match r with
    | 0x04 => d.hngState P
    | 0x08 => d.hng.status
    | 0x10 => iword d.hng.next
    | 0x18 => iword d.hng.last
    | 0x20 => d.hng.lineNo
    | 0x30 => d.hng.vtgt
    | 0x38 => d.hng.seam
    | 0x3C => d.hng.lateCnt
    | _ => d.reg (0x50000 + r)

/-- Registers of the MOT block (08 R196). -/
def Dev.motVal (d : Dev) (r : Nat) : Word :=
  if r < 0x200 then
    let m : AxisId := if r < 0x100 then 0 else 1
    let x := d.mot[m]
    match r % 0x100 with
    | 0x04 => d.motState m
    | 0x08 => x.status
    | 0x18 => iword (x.p / 65536)
    | 0x20 => iword (d.counted m)
    | 0x28 => iword (x.v.tdiv 65536)
    | 0x2C => x.encCnt
    | 0x34 => x.idxCnt
    | 0x48 => x.stepCnt
    | 0x4C => place (d.stepsPending m % 4) 0
    | 0x50 => if m = 0 then x.dacc else 0
    | _ => d.reg (0x60000 + r)
  else 0

/-- LS_CNT0, LS_CNT1 and LS_CNT2 as they stand (09 R199). -/
def Dev.lsCnt (d : Dev) (i : Nat) : Word :=
  match i with
  | 0 => place (d.slotCount .free) 0 ||| place (d.slotCount .fill) 16
  | 1 => place (d.slotCount .full) 0 ||| place (d.slotCount .drain) 16
  | _ => place (d.slotCount .pinned) 0

/-- LS_SLOTs_STAT. -/
def Slot.stat (s : Slot) : Word :=
  place (match s.st with | .free => 0 | .fill => 1 | .full => 2 | .drain => 3 | .pinned => 4) 0 |||
    flag (s.kind != .numbered) 3 ||| (s.line <<< 8)

/-- Registers of the LS block (09 R220). -/
def Dev.lsVal (d : Dev) (r : Nat) : Word :=
  if 0x1000 ≤ r ∧ r < 0x1800 then
    let s := d.ls.slots[Fin.ofNat 256 ((r - 0x1000) / 8)]
    if r % 8 = 0 then s.stat else s.hold.setWidth 32
  else match r with
    | 0x04 => place d.ls.geom.nslot 0 ||| place d.ls.geom.size4k 16
    | 0x08 => place d.ls.geom.pstr 0
    | 0x0C => place d.ls.geom.tstr 0
    | 0x10 => d.lsCnt 0
    | 0x28 => flag d.ls.relErr 0
    | _ => d.reg (0x70000 + r)

/-- DMA_CHn_STATE (09 R220). -/
def Dev.chanState (d : Dev) (n : DmaId) : Word :=
  let k := d.dma[n]
  place (match k.st with | .idle => 0 | .fetch => 1 | .run => 2 | .tailWait => 3 | .lineWait => 4) 0 |||
    flag (d.frozen (.dma n)) 3 ||| flag k.ringLat 4 ||| flag k.chain 5 ||| flag (k.st != .idle) 6 ||| place k.list.length 8

/-- Registers of the DMA block (09 R220). -/
def Dev.dmaVal (d : Dev) (r : Nat) : Word :=
  if 0x1000 ≤ r ∧ r < 0x2000 then
    let n : DmaId := Fin.ofNat 16 ((r - 0x1000) / 0x100)
    let k := d.dma[n]
    match r % 0x100 with
    | 0x18 => k.cur
    | 0x1C => d.chanState n
    | 0x20 => place (k.done % 2 ^ 28) 0
    | 0x24 => flag k.tailIdle 0 ||| flag k.cut 1 ||| flag k.abandon 2
    | _ => d.reg (0x80000 + r)
  else d.reg (0x80000 + r)

/-- Registers of the KL block (10 R249). The egress windows read 0. -/
def Dev.klVal (P : Part) (d : Dev) (r : Nat) : Word :=
  if 0x100 ≤ r ∧ r < 0x400 then
    let k : LinkId := Fin.ofNat 3 (r / 0x100 - 1)
    let l := d.kl.links[k]
    match r % 0x100 with
    | 0x00 => if P.lanes = 1 then putBit (d.lkCfg k) 3 false else d.lkCfg k
    | 0x08 => d.lkState k
    | 0x0C => l.pver
    | 0x10 => l.pmax
    | 0x14 => l.psup
    | 0x18 => l.plnk
    | 0x1C => place l.maxPay 0
    | 0x20 => l.crcErr
    | 0x24 => l.frmErr
    | 0x28 => l.crOvr
    | 0x2C => place (d.measLeft k) 0
    | _ => 0
  else if 0x400 ≤ r ∧ r < 0x500 then
    let n : LaneId := Fin.ofNat 4 ((r - 0x400) / 0x40)
    let x := d.kl.lanes[n]
    match r % 0x40 with
    | 0x00 => d.lnState n
    | 0x04 => x.prbsErr
    | 0x08 => x.hdrErr
    | 0x0C => x.cbErr
    | 0x10 => x.prbsBits
    | 0x14 => x.eq
    | _ => 0
  else if 0x1000 ≤ r ∧ r < 0x1208 then
    let b := (d.kl.links[(0 : LinkId)]).books[Fin.ofNat 65 ((r - 0x1000) / 8)]
    if r % 8 = 0 then b.tx else b.rx
  else match r with
    | 0x00 => d.reg 0x90000
    | 0x04 => 0x0102
    | 0x08 => d.kl.verRange
    | 0x0C => place d.stgUnits 0
    | _ => 0

/-- Registers of the HK block (11 R275), HK_RES, HK_PEEK and HK_AUX apart. -/
def Dev.hkVal (d : Dev) (r : Nat) : Word :=
  match r with
  | 0x08 => d.hk.state
  | 0x0C => flag d.hk.cfgErr 0 ||| flag d.hk.overrun 1 ||| flag d.hk.abandon 2
  | 0x10 => d.hk.pass
  | 0x14 => d.hk.drop.setWidth 32
  | 0x2C => place d.hk.aoutCode 0
  | _ => d.reg (0xA0000 + r)

/-- WDT_DBG as it reads: the hold shows only while a session is open and the debug fuse permits it (12 R293). -/
def Dev.dbgVal (P : Part) (d : Dev) : Word :=
  flag (d.wdt.bHold && d.wdt.attached && !P.dbgdis) 0 ||| flag d.wdt.attached 1

/-- Registers of the WDT block (12 R294). -/
def Dev.wdtVal (P : Part) (d : Dev) (r : Nat) : Word :=
  if 0x140 ≤ r ∧ r < 0x1C0 then
    let s : Fin 8 := Fin.ofNat 8 ((r - 0x140) / 16)
    match r % 16 with
    | 0 => d.wdt.evPc[s]
    | 4 => (d.wdt.evTs[s]).extractLsb' 0 32
    | 8 => d.wdt.evHi s
    | _ => 0
  else match r with
    | 0x000 => P.wdtCfg
    | 0x004 => flag d.wdt.aRun 0
    | 0x00C => d.wdt.aStat
    | 0x010 => place d.wdt.aCount 0
    | 0x100 => d.wdtBCtlShown
    | 0x10C => d.wdt.bStat
    | 0x110 => place d.wdt.bCount 0
    | 0x200 => d.wdt.cmStat
    | 0x300 => d.dbgVal P
    | _ => d.reg (0xB0000 + r)

/-- Registers of the CAS block (13 R321); of a TPEER above its 16 bits CAS_PAIR_TPEER shows the low ones (DESIGN CHOICE, log 88). -/
def Dev.casVal (P : Part) (d : Dev) (r : Nat) : Word :=
  if 0x400 ≤ r ∧ r < 0xC00 then
    let k : LinkId := if r < 0x800 then 1 else 2
    if r % 0x400 < 0x208 then
      let b := (d.kl.links[k]).books[Fin.ofNat 65 (r % 0x400 / 8)]
      if r % 8 = 0 then b.tx else b.rx
    else 0
  else match r with
    | 0x00 => d.casRole P
    | 0x04 => d.chainCtl
    | 0x08 => d.cas.chainStat
    | 0x20 => d.cas.status
    | 0x24 => iword d.cas.tbOfs
    | 0x28 => d.cas.tbHi
    | 0x48 => d.pairStat
    | 0x50 => d.cas.cpSeq
    | 0x54 => d.cas.cpLine
    | 0x58 => place (d.cas.tpeer % 65536) 0
    | _ => d.reg (0xC0000 + r)

/-- PWR_SUPSTAT. -/
def Pwr.supStat (p : Pwr) : Word := p.supOut.setWidth 32 ||| (p.supLatch.setWidth 32 <<< 4)

/-- Registers of the PWR, NVM and TRC blocks (14 R353), by their offset in the MMIO region. -/
def Dev.pwrVal (d : Dev) (o : Nat) : Word :=
  match o with
  | 0xD0004 => d.pwrStat
  | 0xD0008 => d.pwr.wakeSrc
  | 0xD000C => d.pwr.slept
  | 0xD0010 => d.pwr.rstCause.setWidth 32
  | 0xD001C => d.pwr.dieTemp.setWidth 32
  | 0xD0020 => d.pwr.supStat
  | 0xE0018 => d.pwr.nvmStat
  | 0xE001C => d.pwr.wprot.setWidth 32
  | 0xE0020 => d.pwr.recStat
  | 0xF0008 => place d.pwr.tWptr 4
  | 0xF0018 => d.pwr.tLost
  | 0xF001C => flag d.pwr.tFull 0 ||| flag d.pwr.tWrapped 1
  | _ => d.reg o

/-- What a present register reads apart from latched ones. -/
def Dev.regVal (P : Part) (d : Dev) (m : Master) (o : Nat) : Word :=
  let r := o % 0x10000
  match o / 0x10000 with
  | 0 => d.sysVal P r
  | 1 => d.ctxVal P r
  | 2 => d.evtVal m r
  | 3 => d.portVal r
  | 4 => d.pixVal r
  | 5 => d.hngVal P r
  | 6 => d.motVal r
  | 7 => d.lsVal r
  | 8 => d.dmaVal r
  | 9 => d.klVal P r
  | 10 => d.hkVal r
  | 11 => d.wdtVal P r
  | 12 => d.casVal P r
  | 13 => d.pwrVal o
  | 14 => d.pwrVal o
  | 15 => d.pwrVal o
  | _ => 0

/-! ### Reads -/

/-- The registers that a read of a LO or count register latches for the reading master, with their values (01 R28, 02 R63, 08 R196, 09 R199). -/
def Dev.latches (d : Dev) (o : Nat) : List (Nat × Word) :=
  match o with
  | 0x00040 => [(0x00044, (d.stb.extractLsb' 32 16).setWidth 32)]
  | 0x50010 => [(0x50014, hi48 d.hng.next)]
  | 0x50018 => [(0x5001C, hi48 d.hng.last)]
  | 0x60018 => [(0x6001C, hi48 ((d.mot[(0 : AxisId)]).p / 65536))]
  | 0x60118 => [(0x6011C, hi48 ((d.mot[(1 : AxisId)]).p / 65536))]
  | 0x60020 => [(0x60024, hi48 (d.counted 0))]
  | 0x60120 => [(0x60124, hi48 (d.counted 1))]
  | 0x60054 => [(0x60058, d.reg 0x60058)]
  | 0x60154 => [(0x60158, d.reg 0x60158)]
  | 0x70010 => [(0x70014, d.lsCnt 1), (0x70018, d.lsCnt 2)]
  | _ => []

/-- The register shows what was latched for the reading master. -/
def latched (o : Nat) : Bool :=
  [0x00044, 0x50014, 0x5001C, 0x6001C, 0x6011C, 0x60024, 0x60124, 0x60058, 0x60158, 0x70014, 0x70018].contains o ||
    decide (0xA0180 ≤ o ∧ o < 0xA01C0)

/-- An accepted MMIO read: its value, and the device with what the read latches or changes (00 R4, 01 R28, 11 R260, 16 R365). -/
def Dev.mmioRead (P : Part) (d : Dev) (m : Master) (o : Nat) : Word × Dev :=
  if regAbsent P o then (0, d.setAbsent)
  else if latched o then (d.getLatch m o, d)
  else if 0x90400 ≤ o ∧ o < 0x90500 then
    let d := d.settleLane (Fin.ofNat 4 ((o - 0x90400) / 0x40))
    (d.regVal P m o, d)
  else if 0xC0 ≤ o ∧ o < 0x100 then
    let i : Fin 16 := Fin.ofNat 16 ((o - 0xC0) / 4)
    let v := d.sys.sem[i]
    (v, if v = 0 then d.updSys fun y => { y with sem := y.sem.set i (nword (mnum m + 1)) } else d)
  else if 0xA0100 ≤ o ∧ o < 0xA0140 then d.hkRead m (Fin.ofNat 16 ((o - 0xA0100) / 4)) false
  else if 0xA0140 ≤ o ∧ o < 0xA0180 then d.hkRead m (Fin.ofNat 16 ((o - 0xA0140) / 4)) true
  else (d.regVal P m o, (d.latches o).foldl (fun d p => d.setLatch m p.1 p.2) d)

/-! ### Writes -/

/-- A write in the SYS block (16 R363-R365). -/
def Dev.sysWrite (d : Dev) (r : Nat) (v : Word) : Dev :=
  if r = 8 then d.updSys fun y => { y with absent := y.absent && !bit v 0, mgmtErr := y.mgmtErr && !bit v 1 }
  else if r = 0x14 then d.updSys fun y => { y with ridxAt := some d.cycle, ridxWas := (y.frR, y.frPend) }.setRidx v
  else if r = 0x18 then d.updSys fun y => { y with frOver := y.frOver && !bit v 7 }
  else if 0x80 ≤ r ∧ r < 0xC0 then d.updSys fun y => { y with sem := y.sem.set (Fin.ofNat 16 ((r - 0x80) / 4)) v }
  else d

/-- A window register as it is stored: its RSV fields read 0 (03 R91). -/
def winBase (v : Word) : Word := v &&& 0xFFFFFFC7
/-- A window limit as it is stored. -/
def winLimit (v : Word) : Word := v &&& 0xFFFFFFC0

/-- A register of one context written (03 R91): PC and the general registers are locked while it is LIVE, and g0 discards writes. -/
def Ctx.write (P : Part) (x : Ctx) (r : Nat) (v : Word) : Ctx :=
  if r = 4 then (if x.live then x else { x with pc := v })
  else if r = 0xC then { x with entry := v }
  else if 0x10 ≤ r ∧ r < 0x30 then
    { x with win := upd x.win (Fin.ofNat 4 ((r - 0x10) / 8)) fun w =>
        if r % 8 = 0 then { w with base := winBase v } else { w with limit := winLimit v } }
  else if r = 0x3C then (if P.pair then { x with mirror := v &&& 0xFFFE } else x)
  else if 0x44 ≤ r ∧ r < 0x80 then (if x.live then x else { x with g := x.g.set (Fin.ofNat 16 ((r - 0x40) / 4)) v })
  else x

/-- A write in the CTX block. -/
def Dev.ctxWrite (P : Part) (d : Dev) (m : Master) (r : Nat) (v : Word) : Dev :=
  if r = 0x20 then d.ctxThaw P m v
  else if r = 0x24 then d.ctxCmd P v
  else if 0x1000 ≤ r ∧ r < 0x3000 then d.updCtx (Fin.ofNat 64 ((r - 0x1000) / 0x80)) fun x => x.write P (r % 0x80) v
  else d

/-- A write in the EVT block (05 R134). -/
def Dev.evtWrite (P : Part) (d : Dev) (m : Master) (r : Nat) (v : Word) : Dev :=
  if r = 0 then d.evtCtlWrite P v
  else if r = 0x10 then d.intpendW1c false v
  else if r = 0x14 then d.intpendW1c true v
  else if 0x20 ≤ r ∧ r < 0x30 then d.swRaise (Fin.ofNat 4 ((r - 0x20) / 4)) v (mnum m)
  else if 0x40 ≤ r ∧ r < 0x80 ∧ r % 16 = 0 then d.tmrCtlWrite P (Fin.ofNat 4 ((r - 0x40) / 16)) v
  else if 0x1000 ≤ r ∧ r < 0x1400 ∧ r % 16 < 12 then d.routeWrite P (Fin.ofNat 64 ((r - 0x1000) / 16)) (0x20000 + r) v
  else d.writeReg P (0x20000 + r) v

/-- A write in the PORT block (06 R155). -/
def Dev.portWrite (P : Part) (d : Dev) (r : Nat) (v : Word) : Dev :=
  if r = 0 then d.cmodeWrite P v
  else if r = 4 then { d with pldup := d.pldup && !bit v 0, widthErr := d.widthErr && !bit v 1 }
  else if 0x100 ≤ r ∧ r < 0x180 then d.ledWrite P (Fin.ofNat 4 ((r - 0x100) / 0x20)) (r % 0x20) v
  else if 0x1000 ≤ r ∧ r < 0x5000 then
    let p : PortId := Fin.ofNat 4 (r / 0x1000 - 1)
    let q := r % 0x1000
    if q = 0 then d.portCtlWrite P p v
    else if q = 0x20 then d.portStatusW1c p v
    else if 0x400 ≤ q ∧ q < 0x600 then d.edgeWrite P p ((q - 0x400) / 0x100) (q % 0x100 / 4) v
    else d.writeReg P (0x30000 + r) v
  else d

/-- A write in the PIX block (07 R176). -/
def Dev.pixWrite (P : Part) (d : Dev) (r : Nat) (v : Word) : Dev :=
  if r = 0 then d.pixCtlWrite P v
  else if r = 4 then d.pixStatusW1c v
  else d.writeReg P (0x40000 + r) v

/-- A write in the HNG block (02 R63). -/
def Dev.hngWrite (P : Part) (d : Dev) (r : Nat) (v : Word) : Dev :=
  if r = 0 then d.hngCtlWrite P v
  else if r = 8 then d.hngStatusW1c v
  else if 0x400 ≤ r ∧ r < 0x800 then (if r % 16 = 0 then d.strCfgWrite P (Fin.ofNat 64 ((r - 0x400) / 16)) v else d)
  else d.writeReg P (0x50000 + r) v

/-- A write in the MOT block (08 R196). -/
def Dev.motWrite (P : Part) (d : Dev) (r : Nat) (v : Word) : Dev :=
  if r < 0x200 then
    let m : AxisId := if r < 0x100 then 0 else 1
    match r % 0x100 with
    | 0x00 => d.axisCtlWrite P m v
    | 0x08 => d.motStatusW1c m v
    | 0x5C => d.motOp m v
    | _ => d.writeReg P (0x60000 + r) v
  else d

/-- A write in the LS block (09 R220). -/
def Dev.lsWrite (P : Part) (d : Dev) (r : Nat) (v : Word) : Dev :=
  match r with
  | 0x1C => d.lowThWrite P v
  | 0x24 => d.lsRelease P v
  | 0x28 => { d with ls := { d.ls with relErr := d.ls.relErr && !bit v 0 } }
  | _ => d.writeReg P (0x70000 + r) v

/-- A write of DMA_CHn_CTL (09 R205, R213): GO = 1 starts an IDLE channel in register mode, GO = 0 is noted. -/
def Dev.dmaCtlWrite (P : Part) (d : Dev) (n : DmaId) (v : Word) : Dev :=
  let d := d.writeReg P (dmaOff n 0) (putBit v 0 (bit (d.dmaReg n 0) 0))
  if bit v 0 then
    (if d.dmaIdle n then d.dmaStartReg P n else d.setReg (dmaOff n 0) (putBit (d.dmaReg n 0) 0 true))
  else d.dmaGoClear n

/-- A write of DMA_CHn_HEAD (09 R205). -/
def Dev.dmaHeadWrite (P : Part) (d : Dev) (n : DmaId) (v : Word) : Dev :=
  let d := d.writeReg P (dmaOff n 0x14) v
  if v ≠ 0 ∧ d.dmaIdle n then d.dmaStartChain n v else d

/-- A write in the DMA block (09 R220). -/
def Dev.dmaRegWrite (P : Part) (d : Dev) (r : Nat) (v : Word) : Dev :=
  if 0x1000 ≤ r ∧ r < 0x2000 then
    let n : DmaId := Fin.ofNat 16 ((r - 0x1000) / 0x100)
    match r % 0x100 with
    | 0x00 => d.dmaCtlWrite P n v
    | 0x14 => d.dmaHeadWrite P n v
    | 0x24 => d.updDma n fun k => { k with tailIdle := k.tailIdle && !bit v 0, cut := k.cut && !bit v 1, abandon := k.abandon && !bit v 2 }
    | 0x28 => d.dmaRing n
    | 0x2C => if bit v 0 then d.dmaAbort P n else d
    | _ => d.writeReg P (0x80000 + r) v
  else d.writeReg P (0x80000 + r) v

/-- A write in the KL block (10 R249). -/
def Dev.klWrite (P : Part) (d : Dev) (r : Nat) (v : Word) : Dev :=
  if 0x100 ≤ r ∧ r < 0x400 then
    let k : LinkId := Fin.ofNat 3 (r / 0x100 - 1)
    match r % 0x100 with
    | 0x00 => d.lkCfgWrite P k v
    | 0x04 => d.lkCmd P k v
    | 0x2C => d.measureStart P k (v.extractLsb' 0 8)
    | _ => d
  else d.writeReg P (0x90000 + r) v

/-- A write in the HK block (11 R275). -/
def Dev.hkWrite (P : Part) (d : Dev) (r : Nat) (v : Word) : Dev :=
  if r = 4 then d.hkCmd v
  else if r = 0xC then d.updHk fun x => { x with cfgErr := x.cfgErr && !bit v 0, overrun := x.overrun && !bit v 1, abandon := x.abandon && !bit v 2 }
  else if r = 0x20 ∨ r = 0x24 ∨ r = 0x28 then d.aoutWrite P (0xA0000 + r) v
  else if 0x200 ≤ r ∧ r < 0x300 ∧ r % 16 = 0 then d.hkEntWrite P (Fin.ofNat 16 ((r - 0x200) / 16)) v
  else d.writeReg P (0xA0000 + r) v

/-- A write in the WDT block (12 R294), its owner already checked; pc and insn belong to the writing STW. -/
def Dev.wdtWrite (P : Part) (d : Dev) (m : Master) (pc insn : Word) (r : Nat) (v : Word) : Dev :=
  if 0x120 ≤ r ∧ r < 0x140 then d.wdtSlotWrite P (Fin.ofNat 8 ((r - 0x120) / 4)) v
  else match r with
    | 0x004 => if bit v 0 then d.wdtAStart P else d
    | 0x008 => d.svcSend (v.extractLsb' 0 8) pc insn
    | 0x00C => d.updWdt fun w => { w with seqErr := w.seqErr && !bit v 4 }
    | 0x100 => d.wdtBCtlWrite P v
    | 0x108 => d.wdtBKey v
    | 0x10C => d.updWdt fun w => { w with bKeyFail := w.bKeyFail && !bit v 1 }
    | 0x300 => if m = .debug then d.dbgHold P (bit v 0) else d
    | _ => d.writeReg P (0xB0000 + r) v

/-- A write in the CAS block (13 R321). -/
def Dev.casWrite (P : Part) (d : Dev) (r : Nat) (v : Word) : Dev :=
  match r with
  | 0x04 => d.chainCtlWrite P v
  | 0x18 => d.muxWrite P 0xC0018 v
  | 0x1C => d.muxWrite P 0xC001C v
  | 0x20 => d.updCas fun c => c.w1c v
  | 0x40 => d.pairCtlWrite P v
  | 0x44 =>
    let d := if bit v 0 then d.repair else d
    if bit v 1 then d.rejoin P else d
  | _ => d.writeReg P (0xC0000 + r) v

/-- A write in the PWR, NVM or TRC block (14 R353), by its offset in the MMIO region. -/
def Dev.pwrWrite (P : Part) (d : Dev) (m : Master) (o : Nat) (v : Word) : Dev :=
  match o with
  | 0xD0004 => d.updPwr fun p => { p with abandoned := p.abandoned && !bit v 8 }
  | 0xD0014 => d.pwrCmd P m v
  | 0xD0020 => d.updPwr fun p => { p with supLatch := p.supLatch &&& ~~~(v.extractLsb' 4 4) }
  | 0xE0014 => d.nvmCmd (fld v 0 2)
  | 0xE0018 => d.updPwr fun p => p.nvmW1c v
  | 0xE001C => d.wprotWrite v
  | 0xF0000 => d.trcCtlWrite P v
  | 0xF000C => d.trcRptrWrite P v
  | _ => d.writeReg P o v

/-- An accepted MMIO write (00 R4, R7, R10): the register's own rule; pc and insn are those of the context's STW, 0 for another master. -/
def Dev.mmioWrite (P : Part) (d : Dev) (m : Master) (pc insn : Word) (o : Nat) (v : Word) : Dev :=
  let r := o % 0x10000
  if regAbsent P o then d.setAbsent
  else match o / 0x10000 with
    | 0 => d.sysWrite r v
    | 1 => d.ctxWrite P m r v
    | 2 => d.evtWrite P m r v
    | 3 => d.portWrite P r v
    | 4 => d.pixWrite P r v
    | 5 => d.hngWrite P r v
    | 6 => d.motWrite P r v
    | 7 => d.lsWrite P r v
    | 8 => d.dmaRegWrite P r v
    | 9 => d.klWrite P r v
    | 10 => d.hkWrite P r v
    | 11 => d.wdtWrite P m pc insn r v
    | 12 => d.casWrite P r v
    | 13 => d.pwrWrite P m o v
    | 14 => d.pwrWrite P m o v
    | 15 => d.pwrWrite P m o v
    | _ => d

end Sys2Proof.Machine
end

