-- ==== Sys2Proof/Machine/Access.lean ====
section
/-!
DEFINITION. Accesses of the masters: the decode, privilege, owner, window and alignment checks, instruction issue with its fetch, loads and stores of a context, MMIO accesses of every master, and bursts at the target ports (01 R16-R22, R397-R399, 03 R66-R88, 12 R279).
-/
namespace Sys2Proof.Machine

/-! ### Checks -/

/-- An access of a context or of the management master that is a decode violation (01 R19), fetches apart. -/
def decodeBad (P : Part) (a size : Nat) (write : Bool) : Bool :=
  match regionOf P a with
  | .hole => true
  | .nvm => write
  | .mmio => size != 4 || a % 4 != 0
  | _ => false

/-- A window that covers an address and grants a permission bit: 0 R, 1 W, 2 X (03 R73). -/
def Window.grants (w : Window) (perm a : Nat) : Bool :=
  bit w.base perm && decide (w.base.toNat / 64 ≤ a / 64 ∧ a / 64 ≤ w.limit.toNat / 64)

/-- The windows of a context grant a permission at an address (03 R72, R73). -/
def Ctx.grants (x : Ctx) (perm a : Nat) : Bool := x.win.toList.any fun w => w.grants perm a

/-- A context's access lies in a window that grants the permission; an S context is not checked (03 R72). -/
def Ctx.may (x : Ctx) (perm a : Nat) : Bool := x.priv || x.grants perm a

/-- Offset of WDT_A_SVC. -/
def svcOff : Nat := 0xB0008

/-- WDT_A_SVC may be written by this context: context 0 in S privilege (12 R279). -/
def Dev.ownsSvc (d : Dev) (c : CtxId) : Bool := c == 0 && (d.ctx[c]).priv

/-- Between misalignment and a decode violation, the cause of the one that is reported (DESIGN CHOICE, log 17). -/
def firstCause (mis dec : Bool) : Option Nat :=
  if mis && (!dec || Config.misalignFirst) then some 2 else if dec then some 0x0A else none

/-- The first violation of a context's load or store (01 R19, 03 R70, R72, R76, 00 R396): alignment and decode, then the watchdog's owner rule in place of privilege for a write of WDT_A_SVC, privilege, windows. That the first two go before the others is DESIGN CHOICE (log 17): R75 orders the checks of atomics alone. -/
def Dev.accessCause (P : Part) (d : Dev) (c : CtxId) (a size : Nat) (write : Bool) : Option Nat :=
  let x := d.ctx[c]
  match firstCause (a % size != 0) (decodeBad P a size write) with
  | some k => some k
  | none =>
    let mm := regionOf P a == .mmio
    let o := a - 0x8000000
    if mm && write && o == svcOff then (if d.wdt.aRun && !d.ownsSvc c then some 6 else none)
    else if mm && !x.priv && uDenied o write then some 5
    else if !x.may (if write then 1 else 0) a then some 3
    else none

/-- The first violation of a SWAP or CAS, in the order of 03 R75. -/
def Dev.atomicCause (P : Part) (d : Dev) (c : CtxId) (a : Nat) : Option Nat :=
  let x := d.ctx[c]
  match regionOf P a with
  | .hole => some 0x0A
  | .mmio => some 0x0B
  | .nvm => some 0x0B
  | _ => if a % 4 ≠ 0 then some 2 else if !(x.may 0 a && x.may 1 a) then some 3 else none

/-- The first violation of a context's fetch at its PC (01 R19, 03 R72, R76), alignment and decode before the windows (DESIGN CHOICE, log 17). -/
def Dev.fetchCause (P : Part) (d : Dev) (c : CtxId) : Option Nat :=
  let x := d.ctx[c]
  let a := x.pc.toNat
  match firstCause (a % 4 != 0) (regionOf P a != .pd && regionOf P a != .nvm) with
  | some k => some k
  | none => if !x.may 2 a then some 4 else if d.eccBad P a 4 then some 9 else none

/-- What the fetch of the instruction that issues came to: one granted ahead of the issue has been checked then (03 R66, R74). -/
def Dev.issueCause (P : Part) (d : Dev) (c : CtxId) : Option Nat :=
  if (d.ctx[c]).fetched then (if (d.ctx[c]).fetchBad then some 9 else none) else d.fetchCause P c

/-- The violation of a load or store: an access that waits since its issue has been checked there (03 R74). -/
def Dev.checkedCause (P : Part) (d : Dev) (c : CtxId) (a size : Nat) (write : Bool) : Option Nat :=
  if (d.ctx[c]).held.isSome then none else d.accessCause P c a size write

/-- The violation of a SWAP or CAS, which is checked at its issue (03 R74). -/
def Dev.checkedAtomic (P : Part) (d : Dev) (c : CtxId) (a : Nat) : Option Nat :=
  if (d.ctx[c]).held.isSome then none else d.atomicCause P c a

/-- Accesses to NVM wait while it is busy (14 R341). -/
def Dev.nvmWaits (P : Part) (d : Dev) (a : Nat) : Bool := regionOf P a == .nvm && d.pwr.nvmOp.isSome

/-! ### Issue -/

/-- The cycle since which a context is issuable without issuing: while a full crossing keeps its next instruction back it is not (03 R67, 04 R97). -/
def Ctx.waitsSince (x : Ctx) : Nat := max x.issuableSince x.roomSince

/-- A context is promoted (03 R67): issuable without issuing for 256 cycles or more, and no promoted issue of its sequencer lies within the last 16. -/
def Dev.promoted (d : Dev) (c : CtxId) : Bool :=
  decide ((d.ctx[c]).waitsSince + 256 ≤ d.cycle) &&
    match d.promo[sequencerOf c] with
    | none => true
    | some t => decide (t + 16 ≤ d.cycle)

/-- A context's class and its place in it, smaller first (03 R67, 05 R128): promoted by the start of its waiting; urgent, those whose first instruction is due before the others, by their wake; any other by its last issue. -/
def Dev.rank (d : Dev) (c : CtxId) : Nat × Nat :=
  let x := d.ctx[c]
  if d.promoted c then (0, x.waitsSince)
  else if 0 < x.urgent then (if x.firstDue then 1 else 2, x.wokeAt)
  else (3, x.lastIssue)

/-- One rank comes before another. -/
def rankBefore (a b : Nat × Nat) : Bool := decide (a.1 < b.1 ∨ (a.1 = b.1 ∧ a.2 < b.2))

/-! ### Requests at the target ports -/

/-- The port of a context's next fetch; none when the fetch fails its checks and is no request (01 R19, 03 R66, R72). -/
def Dev.fetchPort (P : Part) (d : Dev) (c : CtxId) : Option Port :=
  match d.fetchCause P c with
  | none => some (portOf (regionOf P (d.ctx[c]).pc.toNat))
  | some 9 => some (portOf (regionOf P (d.ctx[c]).pc.toNat))
  | some _ => none

/-- A context presents the fetch of its next instruction at a port (03 R66). -/
def Dev.fetching (P : Part) (d : Dev) (c : CtxId) (p : Port) : Bool :=
  d.phase == .run && !d.recovery && ctxPresent P c && d.issuable c && !(d.ctx[c]).fetched && d.fetchPort P c == some p

/-- The access that an issued instruction waits to make, with the cycle since which it asks: that of its issue, or of the last drain it waited for (01 R17, 03 R87, R88); a write whose crossing is full is passed over (15 R356). -/
def Dev.heldAsk (P : Part) (d : Dev) (c : CtxId) (p : Port) : Option (Nat × Master × ReqKind) :=
  let x := d.ctx[c]
  match x.asks with
  | some (write, a) =>
    if x.held.isSome && x.sbuf.isEmpty && portOf (regionOf P a.toNat) == p && !(write && p == .mmio && !d.writeRoom P (a.toNat - 0x8000000))
    then some (max x.lastIssue x.sbAt, .ctx c, .access) else none
  | none => none

/-- Answers of the executor that wait for link credit (16 R372). -/
def Dev.heldAnswers (d : Dev) : Nat := (d.kl.staged.filter fun f => f.answer).length

/-- DEV of a request's first word; a part without chains takes it as 0 (16 R370). -/
def reqDev (P : Part) (w0 : Word) : Nat := if P.casc then fld w0 0 4 else 0

/-- COUNT of a request's first word. -/
def reqCount (w0 : Word) : Nat := fld w0 8 8

/-- A request of words is well formed: 1 to 64 words, and a body of its length (16 R370). -/
def reqOk (mtype : Nat) (body : List Word) : Bool :=
  let n := reqCount (body.headD 0)
  decide (1 ≤ n) && decide (n ≤ 64) && body.length == (if mtype = 1 then 2 else 2 + n)

/-- A message that the executor takes on this device (16 R367, R370). -/
def Dev.forExecutor (P : Part) (d : Dev) (x : RxMsg) : Bool :=
  ((x.mtype == 1 || x.mtype == 2) && reqDev P (x.body.headD 0) == d.ownAddr P) || x.mtype == 5 || x.mtype == 6 || x.mtype == 7

/-- The executor has begun a request of several words and not ended it (16 R367). -/
def Dev.midRequest (d : Dev) : Bool := d.kl.inbox.head?.any fun x => x.did != 0

/-- A request by SPI waits for the request in progress, and for the VC 64 requests that arrived before it or with it, unless their intake pauses (16 R367, R372). -/
def Dev.spiWaits (P : Part) (d : Dev) (age : Nat) : Bool :=
  d.midRequest || (decide (d.heldAnswers < 16) && d.kl.inbox.any fun x => d.forExecutor P x && decide (x.age ≤ age))

/-- The next word of the VC 64 request in front: since when it asks, its address, and whether it writes (16 R367). The first word asks since the request's arrival, every other since the one before it was done (DESIGN CHOICE, log 107). -/
def Dev.vcAsk (P : Part) (d : Dev) : Option (Nat × Word × Bool) :=
  match d.kl.inbox with
  | x :: _ =>
    if decide (d.heldAnswers < 16) && (x.mtype == 1 || x.mtype == 2) && reqDev P (x.body.headD 0) == d.ownAddr P && reqOk x.mtype x.body then
      some (max x.age x.nextAt, (x.body.drop 1).headD 0 + nword (4 * x.did), x.mtype == 2)
    else none
  | [] => none

/-- The word access that the executor asks for next (16 R367). -/
def Dev.mgmtAsk (P : Part) (d : Dev) : Option (Nat × Word × Bool) :=
  match d.spiReq with
  | r :: _ => if d.spiWaits P r.age then d.vcAsk P else some (r.age, r.addr, r.write)
  | [] => d.vcAsk P

/-- A word access of a master asks for a port; a write whose crossing is full is passed over (15 R356). -/
def Dev.asksPort (P : Part) (d : Dev) (a : Word) (write : Bool) (p : Port) : Bool :=
  portOf (regionOf P a.toNat) == p && !(write && p == .mmio && !d.writeRoom P (a.toNat - 0x8000000))

/-- The next beat that cascade ingress writes of the SLOTWRITE in front: since when it asks, and its address (13 R308). -/
def Dev.cascAsk (d : Dev) : Option (Nat × Nat) :=
  match d.kl.casIn with
  | m :: _ =>
    if m.raw.headD 0 = 2 ∧ !d.frozen .cascIn ∧ m.did < m.raw.length - 16 then
      (d.fillSlot (cpWord m.raw 2)).map fun n => (max m.age m.nextAt, d.slotBase n.val + (cpWord m.raw 1).toNat + m.did)
    else none
  | [] => none

/-- The next beat that mirror ingress writes of the checkpoint in front: since when it asks, and its address (13 R311, R313). -/
def Dev.mirrorAsk (P : Part) (d : Dev) : Option (Nat × Nat) :=
  match d.kl.mirIn with
  | m :: _ => if d.cas.pair = .standby ∧ !d.frozen .mirrorIn ∧ !bit (cpWord m.raw 1) 0 ∧ regionOf P d.cpHalfAt = .pd then some (max m.age m.nextAt, d.cpHalfAt + m.did) else none
  | [] => none

/-- Requests waiting at a port, as age, master and kind (01 R17, 03 R66, R85): loads, the oldest store of each buffer, fetches, accesses of issued instructions, bursts of channels whose share limit lets them through, the executor's next word, the oldest debug access, what the ingress masters write, the correlator's reads, and beats that engines have put out; a write burst in progress keeps its port until it ends. -/
def Dev.waiting (P : Part) (d : Dev) (p : Port) : List (Nat × Master × ReqKind) :=
  ((d.reqs.filter fun r => r.port == p).map fun r => (r.age, r.who, ReqKind.load)) ++
    ((List.finRange 64).filterMap fun c =>
      match (d.ctx[c]).sbuf with
      | e :: _ => if portOf (regionOf P e.addr.toNat) = p then some ((d.ctx[c]).sbAt, Master.ctx c, ReqKind.store) else none
      | [] => none) ++
    (((List.finRange 64).filter fun c => d.fetching P c p).map fun c => ((d.ctx[c]).issuableSince, Master.ctx c, ReqKind.fetch)) ++
    ((List.finRange 64).filterMap fun c => d.heldAsk P c p) ++
    (((List.finRange 16).filter fun n => d.dmaPort P n == some p && (decide (0 < (d.dma[n]).burst) || decide (d.dmaAge n p ≤ d.cycle))).map
      fun n => (if 0 < (d.dma[n]).burst then 0 else d.dmaAge n p, Master.dma n, ReqKind.burst)) ++
    ((d.mgmtAsk P).toList.filter fun r => d.asksPort P r.2.1 r.2.2 p).map (fun r => (r.1, Master.mgmt, ReqKind.burst)) ++
    ((d.dbgReq.take 1).filter fun r => !d.frozen .debug && d.asksPort P r.addr r.write p).map (fun r => (r.age, Master.debug, ReqKind.burst)) ++
    (d.cascAsk.toList.filter fun r => portOf (regionOf P r.2) == p).map (fun r => (r.1, Master.cascIn, ReqKind.burst)) ++
    ((d.mirrorAsk P).toList.filter fun r => portOf (regionOf P r.2) == p).map (fun r => (r.1, Master.mirrorIn, ReqKind.burst)) ++
    (if p = .ls ∧ d.corrAsks then [(d.pix.corrAsk, Master.corr, ReqKind.burst)] else []) ++
    (d.late.filter fun w => w.port == p && !(w.who == .debug && d.frozen .debug)).map (fun w => (w.age, w.who, ReqKind.late))

/-- The request an arbiter grants: the oldest, the lower master number on equal age (01 R17). -/
def oldestReq : List (Nat × Master × ReqKind) → Option (Master × ReqKind)
  | [] => none
  | q :: rest => some (rest.foldl (fun b r => if r.1 < b.1 ∨ (r.1 = b.1 ∧ mnum r.2.1 < mnum b.2.1) then r else b) q).2

/-- A port would grant a request of this age by this master now: no other master's waiting request comes before it, and no beat that the master has put out (01 R17). -/
def Dev.grantable (P : Part) (d : Dev) (p : Port) (age : Nat) (m : Master) : Bool :=
  (d.waiting P p).all fun r => (r.2.1 == m && r.2.2 != .late) || decide (age < r.1 ∨ (age = r.1 ∧ mnum m < mnum r.2.1))

/-- The oldest beat that a master has put out at a port is accepted. -/
def Dev.latePut (P : Part) (d : Dev) (m : Master) (p : Port) : Dev :=
  match d.late.find? fun w => w.who == m && w.port == p with
  | some w => { d with late := d.late.erase w }.store P w.addr w.bytes
  | none => d

/-- Beats that engines have put out are accepted where their port grants them now, one at each port. -/
def Dev.lateServe (P : Part) (d : Dev) : Dev :=
  (d.late.map fun w => w.port).dedup.foldl (fun d p => match oldestReq (d.waiting P p) with | some (m, .late) => d.latePut P m p | _ => d) d

/-- The fetch of a context's next instruction has been granted, or is granted now (03 R66, 14 R341). -/
def Dev.fetchGranted (P : Part) (d : Dev) (c : CtxId) : Bool :=
  (d.ctx[c]).fetched ||
    match d.fetchPort P c with
    | none => true
    | some p => !d.nvmWaits P (d.ctx[c]).pc.toNat && oldestReq (d.waiting P p) == some (.ctx c, .fetch)

/-- The crossing that an instruction word of a context passes is full, which keeps it from issuing (01 R25, 04 R97): that of an STW to MMIO, of HKREQ, or of KEY. -/
def Dev.crossFull (P : Part) (d : Dev) (c : CtxId) (w : Word) : Bool :=
  let a := ((d.ctx[c]).rd (Fin.ofNat 16 (fld w 18 4)) + sext (w.extractLsb' 0 18)).toNat
  match fld w 26 6 with
  | 0x13 => regionOf P a == .mmio && (d.accessCause P c a 4 true).isNone && !d.writeRoom P (a - 0x8000000)
  | 0x36 => legalWord w && decide (P.hkin ≠ 0) && !d.crossRoom 4
  | 0x38 => legalWord w && !d.crossRoom 6
  | _ => false

/-- The word at a context's PC. -/
def Dev.insnAt (d : Dev) (c : CtxId) : Word := d.word (d.ctx[c]).pc.toNat

/-- A context stands for the choice of its sequencer: it is issuable, its fetch is granted, and no full crossing keeps its instruction back, which for `me` its own command tells (03 R66, R67, 04 R97). -/
def Dev.contends (P : Part) (d : Dev) (me c : CtxId) : Bool :=
  sequencerOf c == sequencerOf me && ctxPresent P c && d.issuable c && d.fetchGranted P c && (c == me || !d.crossFull P c (d.insnAt c))

/-- The context that the sequencer of `me` issues from (03 R67), the lower number on a tie. -/
def Dev.pick (P : Part) (d : Dev) (me : CtxId) : Option CtxId :=
  (List.finRange 64).foldl (fun b c =>
    if d.contends P me c then
      match b with
      | none => some c
      | some k => if rankBefore (d.rank c) (d.rank k) then some c else some k
    else b) none

/-- A context may issue now (03 "Issue", R64, R66, R67, 14 R323): its fetch is granted and its sequencer picks it. -/
def Dev.mayIssue (P : Part) (d : Dev) (c : CtxId) : Bool :=
  d.phase == .run && !d.recovery && ctxPresent P c && d.issuable c && d.fetchGranted P c && d.pick P c == some c

/-- PC on the next instruction. -/
def Dev.advance (d : Dev) (c : CtxId) : Dev := d.updCtx c fun x => { x with pc := x.pc + 4 }

/-- What the issue of an instruction changes in its context (03 R67, R68). -/
def Dev.issued (d : Dev) (c : CtxId) : Dev :=
  { d.updCtx c fun x => { x with lastIssue := d.cycle, issuableSince := d.cycle, urgent := x.urgent - 1, firstDue := false, fetched := false } with
    promo := if d.promoted c then d.promo.set (sequencerOf c) (some d.cycle) else d.promo }

/-- The beat that a fetch reads when it passes its checks (01 R399, 03 R66). -/
def Dev.fetchBeat (P : Part) (d : Dev) (c : CtxId) : Dev :=
  match d.fetchPort P c with
  | some _ => d.beatRead P (d.ctx[c]).pc.toNat 4
  | none => d

/-- The beat that the issue of an instruction reads: none when the fetch was granted ahead of it. -/
def Dev.fetchEcc (P : Part) (d : Dev) (c : CtxId) : Dev := if (d.ctx[c]).fetched then d else d.fetchBeat P c

/-- An instruction that waits after its issue completes (03 R66, 04 R97): its effect, and what waited for the boundary behind it; from now on the context is issuable again. -/
def Dev.resume (P : Part) (d : Dev) (c : CtxId) (body : Dev → Dev) : Dev :=
  let d := (body d).updCtx c fun x => { x with held := none, asks := none, issuableSince := d.cycle }
  if (d.ctx[c]).atBoundary then d.boundary P c else d

/-- An instruction of a context issues (03 R66, R77, 04 R97, R104): nothing happens while the context may not issue; a failing fetch freezes the context; otherwise `body` is the instruction's effect. `ready` tells that the drain or the port it needs lets it complete; until then the issued instruction `insn` is held with the access that it makes, if any. The command of the same instruction completes it later, and until it has completed no other instruction of the context issues (03 R87, 04 R101, R400). -/
def Dev.issueFor (P : Part) (d : Dev) (c : CtxId) (insn : Word) (ask : Option (Bool × Word)) (ready : Bool) (body : Dev → Dev) : Dev :=
  match (d.ctx[c]).held with
  | some w => if w = insn ∧ d.phase = .run ∧ (d.ctx[c]).awake ∧ ready then d.resume P c body else d
  | none =>
    if d.mayIssue P c then
      match d.issueCause P c with
      | some k => (d.fetchEcc P c).freezeCtx P c k { addr := (d.ctx[c]).pc, size := 4, fetch := true } 0
      | none =>
        let d := (d.fetchEcc P c).issued c
        if ready then body d else d.updCtx c fun x => { x with held := some insn, asks := ask }
    else d

/-- An instruction that waits for nothing after its issue: its effect. -/
def Dev.issue (P : Part) (d : Dev) (c : CtxId) (body : Dev → Dev) : Dev := d.issueFor P c 0 none true body

/-- An instruction that makes no access at a port and waits after its issue until `ready`. -/
def Dev.issueWhen (P : Part) (d : Dev) (c : CtxId) (insn : Word) (ready : Bool) (body : Dev → Dev) : Dev := d.issueFor P c insn none ready body

/-- A violation by the instruction itself that names no address: its word is in the record, ADDR is 0 for ILLEGAL_OP, and what the record layout leaves open is a free value (03 R77, R81; log 25). -/
def Dev.violate (P : Part) (d : Dev) (c : CtxId) (cause : Nat) (insn : Word) : Dev :=
  let x : Access := { addr := if cause = 1 then 0 else Config.noAccessAddr d.free, size := Config.noAccessSize d.free }
  d.takeFree.2.freezeCtx P c cause x insn

/-! ### Loads and stores of a context -/

/-- Bytes of an access and of a buffered store overlap. -/
def SbEntry.overlaps (e : SbEntry) (a n : Nat) : Bool := decide (e.addr.toNat < a + n ∧ a < e.addr.toNat + e.size)

/-- The cycle since which the data access of a context's instruction asks for its port: that of its issue, or of the last drain it waited for. -/
def Dev.askedAt (d : Dev) (c : CtxId) : Nat := if (d.ctx[c]).held.isSome then max (d.ctx[c]).lastIssue (d.ctx[c]).sbAt else d.cycle

/-- What a load finds in the store buffer (03 R86): the youngest overlapping entry decides; `some none` is a wait for visibility, `none` no overlap. -/
def Ctx.forward (x : Ctx) (a n : Nat) : Option (Option Word) :=
  match x.sbuf.reverse.find? fun e => e.overlaps a n with
  | some e => if e.addr.toNat = a ∧ e.size = n then some (some e.data) else some none
  | none => none

/-- A value cut to its low n bytes. -/
def lowWord (v : Word) (n : Nat) : Word := if n = 1 then v &&& 0xFF else if n = 2 then v &&& 0xFFFF else v

/-- A load result in its register with PC on the next instruction. -/
def Dev.loadDone (d : Dev) (c : CtxId) (gd : Reg) (v : Word) : Dev := d.updCtx c fun x => { x.wr gd v with pc := x.pc + 4 }

/-- Whether a load can go ahead: an MMIO load starts with an empty store buffer and waits for the port, and a partial overlap waits (01 R17, 03 R86, R88). A load that violates needs no wait. -/
def Dev.loadReady (P : Part) (d : Dev) (c : CtxId) (a n : Nat) : Bool :=
  let x := d.ctx[c]
  (d.checkedCause P c a n false).isSome ||
    (if regionOf P a = .mmio then x.sbuf.isEmpty && d.grantable P .mmio (d.askedAt c) (.ctx c) else x.forward a n != some none)

/-- The effect of a load of n bytes at an address (03 R77, R86, R88, 04 R99). -/
def Dev.loadBody (P : Part) (c : CtxId) (gd : Reg) (addr : Word) (n : Nat) (insn : Word) (d : Dev) : Dev :=
  let a := addr.toNat
  match d.checkedCause P c a n false with
  | some k => d.freezeCtx P c k { addr := addr, size := n } insn
  | none =>
    if regionOf P a = .mmio then
      let r := d.mmioRead P (.ctx c) (a - 0x8000000)
      r.2.loadDone c gd r.1
    else match (d.ctx[c]).forward a n with
      | some (some v) => d.loadDone c gd (lowWord v n)
      | _ => { d.updCtx c fun x => { x with load := some ⟨addr, n, gd, insn, none⟩ } with
          reqs := d.reqs ++ [⟨portOf (regionOf P a), .ctx c, d.cycle⟩] }

/-- An MMIO write accepted by the interconnect: it takes up its crossing and has its effect (01 R25). -/
def Dev.accept (P : Part) (d : Dev) (m : Master) (pc insn : Word) (o : Nat) (v : Word) : Dev := (d.crossWrite P o).mmioWrite P m pc insn o v

/-- Whether a store can go ahead: an MMIO store waits for an empty store buffer, for the port, and for room in the crossing it passes (03 R88, 01 R17, R25). -/
def Dev.storeReady (P : Part) (d : Dev) (c : CtxId) (a n : Nat) : Bool :=
  (d.checkedCause P c a n true).isSome || regionOf P a != .mmio ||
    ((d.ctx[c]).sbuf.isEmpty && d.grantable P .mmio (d.askedAt c) (.ctx c) && d.writeRoom P (a - 0x8000000))

/-- The effect of a store of n bytes at an address (03 R77, R85, R88, 04 R99). -/
def Dev.storeBody (P : Part) (c : CtxId) (v addr : Word) (n : Nat) (insn : Word) (d : Dev) : Dev :=
  let a := addr.toNat
  match d.checkedCause P c a n true with
  | some k => d.freezeCtx P c k { addr := addr, size := n, write := true } insn
  | none =>
    if regionOf P a = .mmio then (d.advance c).accept P (.ctx c) (d.ctx[c]).pc insn (a - 0x8000000) v
    else d.updCtx c fun x => { x with pc := x.pc + 4, sbuf := x.sbuf ++ [⟨addr, n, lowWord v n⟩], sbAt := if x.sbuf.isEmpty then d.cycle else x.sbAt }

/-- An atomic access (03 R75, R87, 04 R100): `f old` is the word to write, if any, and the new Z, if it changes. -/
def Dev.atomicBody (P : Part) (c : CtxId) (gd : Reg) (addr : Word) (insn : Word) (f : Word → Option Word × Option Bool) (d : Dev) : Dev :=
  let a := addr.toNat
  match d.checkedAtomic P c a with
  | some k => d.freezeCtx P c k { addr := addr, size := 4, atomic := true } insn
  | none =>
    let d1 := d.beatRead P a 4
    if d.eccBad P a 4 then d1.freezeCtx P c 9 { addr := addr, size := 4, atomic := true } insn
    else
      let old := d1.fetchLE P a 4
      let r := f old
      let d2 := if regionOf P a = .lsAbsent then d1.setAbsent else d1
      let d3 := match r.1 with
        | some v => d2.store P a (wordBytes v)
        | none => d2
      d3.updCtx c fun x => { x.wr gd old with pc := x.pc + 4, z := r.2.getD x.z }

/-- An atomic access waits for an empty store buffer and for its port (01 R17, 03 R87). -/
def Dev.atomicReady (P : Part) (d : Dev) (c : CtxId) (a : Nat) : Bool :=
  (d.checkedAtomic P c a).isSome || ((d.ctx[c]).sbuf.isEmpty && d.grantable P (portOf (regionOf P a)) (d.askedAt c) (.ctx c))

/-! ### Ports -/

/-- A context's load granted (01 R22, 03 R76, R80): its data is taken, or an uncorrectable error freezes the context or, when it is frozen already, writes a further record. -/
def Dev.grantLoad (P : Part) (d : Dev) (c : CtxId) : Dev :=
  let d := { d with reqs := d.reqs.filter fun r => r.who != Master.ctx c }
  match (d.ctx[c]).load with
  | none => d
  | some l =>
    let a := l.addr.toNat
    let d1 := d.beatRead P a l.size
    if d.eccBad P a l.size then
      let d2 := d1.updCtx c fun x => { x with load := none }
      let x : Access := { addr := l.addr, size := l.size }
      (if (d.ctx[c]).frozen then d2.record P c.val 9 true (d.ctx[c]).pc x (d.ctx[c]).priv l.insn (stWord d.ctx[c])
      else d2.freezeCtx P c 9 x l.insn).boundary P c
    else
      let d1 := if regionOf P a = Region.lsAbsent then d1.setAbsent else d1
      d1.updCtx c fun x => { x with load := some { l with data := some (d.fetchLE P a l.size) } }

/-- The write bursts in progress end: a grant decision follows whole bursts (01 R17). -/
def Dev.dmaEnd (P : Part) (d : Dev) : Dev := (List.finRange 16).foldl (fun d n => d.dmaFlush P n) d

/-- A channel's request at a port is granted now; a step that needs no port waits for none (01 R17, 09 R211). -/
def Dev.dmaGranted (P : Part) (d : Dev) (n : DmaId) : Bool :=
  match d.dmaPort P n with
  | some p => decide (d.dmaAge n p ≤ d.cycle) && d.grantable P p (d.dmaAge n p) (.dma n)
  | none => true

/-- DESCRIPTOR_FETCH (09 R207), when the port grants the read. -/
def Dev.descriptorFetch (P : Part) (d : Dev) (n : DmaId) : Dev := if d.dmaGranted P n then d.fetchNow P n else d

/-- DESCRIPTOR_COMPLETE (09 R207), when the port grants the write of w7. -/
def Dev.descriptorComplete (P : Part) (d : Dev) (n : DmaId) : Dev :=
  let d := d.dmaFlush P n
  if d.dmaGranted P n then d.completeNow P n else d

/-- TAIL_REREAD (09 R215), when the port grants the read. -/
def Dev.tailReread (P : Part) (d : Dev) (n : DmaId) : Dev := if d.dmaGranted P n then d.rereadNow P n else d

/-- STORE_BUFFER_DRAIN (01 R17, 03 R85): the oldest store of a context's buffer is accepted when its port grants it. -/
def Dev.drainGranted (P : Part) (d : Dev) (c : CtxId) : Dev :=
  match (d.ctx[c]).sbuf with
  | e :: _ => if oldestReq (d.waiting P (portOf (regionOf P e.addr.toNat))) = some (.ctx c, .store) then d.drainOne P c else d
  | [] => d

/-- LOAD_COMPLETE (03 R77, R86): the granted data reaches its register and the context stands at an instruction boundary. -/
def Dev.loadComplete (P : Part) (d : Dev) (c : CtxId) : Dev :=
  match (d.ctx[c]).load with
  | some l =>
    match l.data with
    | some v => ((d.updCtx c fun x => { x with load := none, issuableSince := d.cycle }).loadDone c l.gd v).boundary P c
    | none => d
  | none => d

/-- The further record of a frozen master other than a context whose read in flight meets an uncorrectable error: event 53 and the record (03 R80). -/
def Dev.inflightRecord (P : Part) (d : Dev) (m : Master) (pc addr : Word) (size : Nat) (insn : Word) : Dev :=
  (d.raise 53 (nword (eccBase P addr.toNat))).record P (mnum m) 9 true pc { addr := addr, size := size } false insn 0

/-- FROZEN_INFLIGHT_ECC (03 R80): a frozen master's access in flight meets an uncorrectable error: a context's load, a channel's read burst, a debug read. It is discarded. -/
def Dev.inflightEcc (P : Part) (d : Dev) (m : Master) (addr : Word) : Dev :=
  let w := eccBase P addr.toNat
  if d.frozen m ∧ d.mark w = some .double then
    match m with
    | .ctx c =>
      match (d.ctx[c]).load with
      | some l => if l.data = none ∧ (eccWords P l.addr.toNat l.size).contains w then d.grantLoad P c else d
      | none => d
    | .dma n =>
      if (d.dma[n]).flight.contains w
      then (d.updDma n fun k => { k with flight := [] }).inflightRecord P m (d.dma[n]).cur addr 16 (if (d.dma[n]).chain then (d.dma[n]).ctl4 else 0)
      else d
    | .debug =>
      match d.dbgReq with
      | r :: rest => if !r.write ∧ eccBase P r.addr.toNat = w then { d with dbgReq := rest }.inflightRecord P m 0 r.addr 4 0 else d
      | [] => d
    | _ => d
  else d

/-- ECC_WRITE_BACK (01 R22): the corrected word is written back; NVM has none (14 R341). -/
def Dev.writeBack (P : Part) (d : Dev) (addr : Word) : Dev :=
  let w := eccBase P addr.toNat
  if d.mark w = some (.single true) ∧ regionOf P w ≠ .nvm then d.setMark w none else d

/-! ### MMIO accesses of the masters -/

/-- The device is out of reset and its fast clocks have locked once. -/
def Dev.up (d : Dev) : Bool := d.phase != .inReset && d.phase != .clocks

/-- CK_CORE runs: the boot, RUN, and the entry to STANDBY. -/
def Dev.coreOn (d : Dev) : Bool := d.phase == .verify || d.phase == .run || d.phase == .entering

/-- The blocks whose registers mirror ingress reaches: CTX, HNG and MOT (01 R397). -/
def mirrorReach (o : Nat) : Bool := o / 0x10000 == 1 || o / 0x10000 == 5 || o / 0x10000 == 6

/-- A register write by master 83: one of WDT_A_SVC while WDT-A runs freezes it, since it does not own that register (12 R279). -/
def Dev.debugWrite (P : Part) (d : Dev) (o : Nat) (v : Word) : Dev :=
  if o = svcOff ∧ d.wdt.aRun then d.freezeMst P .debug 6 0 { addr := nword (0x8000000 + o), size := 4, write := true } 0
  else d.accept P .debug 0 0 o v

/-- A word access of the management executor: OK, or a status code of 16 R368 with its record (01 R20). -/
def Dev.mgmtErr (P : Part) (d : Dev) (a : Word) (write : Bool) : Dev := d.freezeMst P .mgmt 0x20 0 { addr := a, size := 4, write := write } 0

/-- What the host-access lock refuses (16 R369). -/
def Dev.haLocked (P : Part) (d : Dev) (a : Nat) : Bool :=
  let sysOk := a == 0x8000008 || a == 0x8000014 || decide (0x8000080 ≤ a ∧ a < 0x80000C0)
  let nvmOk := d.recovery && decide (0x80E0000 ≤ a ∧ a < 0x80F0000)
  P.halock && !sysOk && !nvmOk

/-- A word write must wait for room in the crossing it passes (01 R25). -/
def Dev.wordHeld (P : Part) (d : Dev) (a : Word) : Bool := decide (regionOf P a.toNat = .mmio) && !d.writeRoom P (a.toNat - 0x8000000)

/-- The management master, which has asked since a cycle, may access a word now: no request before its own waits at the port, the NVM is not busy, and a write finds room in its crossing (01 R17, R25, 14 R341). -/
def Dev.wordFree (P : Part) (d : Dev) (age : Nat) (a : Word) (write : Bool) : Bool :=
  !d.nvmWaits P a.toNat && d.grantable P (portOf (regionOf P a.toNat)) age .mgmt && !(write && d.wordHeld P a)

/-- A word read by the management master (01 R20, 16 R368): status and data. A misaligned address is a decode violation in every region (DESIGN CHOICE, log 81). -/
def Dev.mgmtRead (P : Part) (d : Dev) (a : Word) : Nat × Word × Dev :=
  let n := a.toNat
  if n % 4 ≠ 0 ∨ decodeBad P n 4 false then (1, 0, d.mgmtErr P a false)
  else if regionOf P n = .mmio then
    let r := d.mmioRead P .mgmt (n - 0x8000000)
    (0, r.1, r.2)
  else if regionOf P n = .lsAbsent then (0, 0, d.setAbsent)
  else
    let d1 := d.beatRead P n 4
    if d.eccBad P n 4 then (2, 0, d1.mgmtErr P a false) else (0, d1.word n, d1)

/-- A word write by the management master (01 R20, 12 R279, 16 R368, R369): status. A misaligned address is a decode violation in every region (DESIGN CHOICE, log 81). -/
def Dev.mgmtWrite (P : Part) (d : Dev) (a v : Word) : Nat × Dev :=
  let n := a.toNat
  if d.haLocked P n then (3, d)
  else if n % 4 ≠ 0 ∨ decodeBad P n 4 true then (1, d.mgmtErr P a true)
  else if regionOf P n = .mmio then
    (if n - 0x8000000 = svcOff ∧ d.wdt.aRun then (7, d.mgmtErr P a true) else (0, d.accept P .mgmt 0 0 (n - 0x8000000) v))
  else (0, d.store P n (wordBytes v))

/-- A register access as a step of its own may be made by a master other than a context: CK_CORE runs, the part has the master, it is not frozen, the port grants it now where it reaches that, and no request of the executor is half done (00 R6, 01 R17, 03 R78, 16 R367). -/
def Dev.busFree (P : Part) (d : Dev) (m : Master) : Bool :=
  d.coreOn && masterPresent P m && !d.frozen m && (!reaches m .mmio || d.grantable P .mmio d.cycle m) && !(m == .mgmt && d.midRequest)

/-- A channel's access to a register that it does not reach (01 R18): the read burst that it has presented stands in flight (03 R80). -/
def Dev.dmaStray (P : Part) (d : Dev) (n : DmaId) (a : Nat) (write : Bool) : Dev := (d.updDma n fun k => { k with flight := d.inFlight P n }).dmaFreeze P n 0x0A a write

/-- A master's read of an MMIO register as a step of its own: the value read, and the device. A context reads as its LDW does, with PC left where it stands. -/
def Dev.busRead (P : Part) (d : Dev) (m : Master) (o : Nat) : Option Word × Dev :=
  let a := 0x8000000 + o
  let bad : Access := { addr := nword a, size := 4 }
  match m with
  | .ctx c =>
    if d.coreOn && d.mayIssue P c && d.loadReady P c a 4 then
      match d.accessCause P c a 4 false with
      | some k => (none, d.freezeCtx P c k bad (d.insnAt c))
      | none => let r := d.mmioRead P m o; (some r.1, r.2)
    else (none, d)
  | m =>
    if !d.busFree P m then (none, d)
    else match m with
      | .mgmt => let r := d.mgmtRead P (nword a); (if r.1 = 0 then some r.2.1 else none, r.2.2)
      | .writer => (none, d)
      | .debug => if P.dbgdis then (none, d) else let r := d.mmioRead P m o; (some r.1, r.2)
      | .mirrorIn => if mirrorReach o then let r := d.mmioRead P m o; (some r.1, r.2) else (none, d.freezeMst P m 0x0A 0 bad 0)
      | .dma n => (none, d.dmaStray P n a false)
      | m => (none, d.freezeMst P m 0x0A 0 bad 0)

/-- Bytes that a channel writes at an egress window as a step of its own; they wait while the framer has no room (01 R18, 10 R240). -/
def Dev.dmaEgress (P : Part) (d : Dev) (n : DmaId) (a : Nat) (bs : List Byte) : Dev :=
  match (d.dma[n]).bound with
  | some s => (d.toFramer P n s a bs).getD d
  | none => d

/-- A master's write of an MMIO register as a step of its own. A context writes as its STW does, with PC left where it stands. Channels and cascade ingress reach the egress windows, whose writes go to the framer (01 R16, R18); bytes of cascade ingress belong to no bound line, and the framer appends them to none (DESIGN CHOICE, log 89). -/
def Dev.busWrite (P : Part) (d : Dev) (m : Master) (o : Nat) (v : Word) : Dev :=
  let a := 0x8000000 + o
  let bad : Access := { addr := nword a, size := 4, write := true }
  match m with
  | .ctx c =>
    if d.coreOn && d.mayIssue P c && d.storeReady P c a 4 then
      match d.accessCause P c a 4 true with
      | some k => d.freezeCtx P c k bad (d.insnAt c)
      | none => d.accept P m (d.ctx[c]).pc (d.insnAt c) o v
    else d
  | m =>
    if !d.busFree P m then d
    else match m with
      | .mgmt => if d.writeRoom P o then (d.mgmtWrite P (nword a) v).2 else d
      | .writer => d
      | .debug => if P.dbgdis || !d.writeRoom P o then d else if o % 4 ≠ 0 then d.freezeMst P m 0x0A 0 bad 0 else d.debugWrite P o v
      | .dma n => if d.egressOk P n a then d.dmaEgress P n a (wordBytes v) else d.dmaStray P n a true
      | .cascIn => if (egressStream a).isSome then d else d.freezeMst P m 0x0A 0 bad 0
      | .mirrorIn => if mirrorReach o && o % 4 == 0 then d.accept P m 0 0 o v else d.freezeMst P m 0x0A 0 bad 0
      | m => d.freezeMst P m 0x0A 0 bad 0

/-- A read whose value the model keeps in rdata for the reader. -/
def Dev.busReadKept (P : Part) (d : Dev) (m : Master) (o : Nat) : Dev :=
  match d.busRead P m o with
  | (some v, d) => { d with rdata := v }
  | (none, d) => d

end Sys2Proof.Machine
end

