-- ==== Sys2Proof/Machine/Mgmt.lean ====
section
/-!
DEFINITION. The management executor: VC 64 requests and SPI transactions (16 R367-R375, 13 R299), debug accesses and the TAP (01 R25, 17 R393).
-/
namespace Sys2Proof.Machine

/-! ### Requests on VC 64 -/

/-- A received message is this request; the body of a CAPS is empty, and one that is not counts as well. -/
def isReq (k : LinkId) (mtype : Nat) (tag : Word) (body : List Word) (x : RxMsg) : Bool :=
  x.link == k && x.mtype == mtype && x.tag == tag && (mtype == 6 || x.body == body)

/-- The cycle since which the request at the head of the receive buffer asks; now, when none stands there. -/
def Dev.inboxAge (d : Dev) : Nat := (d.kl.inbox.head?.map fun x => x.age).getD d.cycle

/-- The executor takes a VC 64 request (10 R243, 16 R367, R372): it comes on a link the part has, it is the next in arrival order, and no SPI request arrived before it. -/
def Dev.takesRequest (P : Part) (d : Dev) (k : LinkId) (mtype : Nat) (tag : Word) (body : List Word) : Bool :=
  d.coreOn && linkPresent P k && decide (d.heldAnswers < 16) && d.isNext (isReq k mtype tag body) && d.spiReq.all fun r => decide (d.inboxAge ≤ r.age)

/-- A request leaves the receive buffer. -/
def Dev.dequeue (d : Dev) (k : LinkId) (mtype : Nat) (tag : Word) (body : List Word) : Dev := d.asMsg (isReq k mtype tag body) id

/-- A request that arrives with its command and cannot be executed yet stays in the receive buffer (16 R372; log 39). -/
def Dev.keepRequest (P : Part) (d : Dev) (k : LinkId) (mtype : Nat) (tag : Word) (body : List Word) : Dev :=
  if d.coreOn && linkPresent P k && d.kl.inbox.isEmpty then
    d.updKl fun x => { x with inbox := [{ link := k, mtype := mtype, tag := tag, body := body, units := 0, age := d.cycle }] }
  else d

/-- An MRESP on the link a request came by (16 R370, R371). -/
def Dev.mresp (P : Part) (d : Dev) (k : LinkId) (tag : Word) (status : Nat) (fail : Word) (data : List Word) (count : Nat) : Dev :=
  d.stageMsg k 3 tag ([place status 0 ||| place (d.ownAddr P) 8 ||| place count 16, fail] ++ data) true

/-- What becomes of a request for a chain address that is not the receiver's own (13 R299, 16 R370): NODEV at the master for an address at or above LEN, otherwise it goes on along the chain. -/
def Dev.routeRequest (P : Part) (d : Dev) (k : LinkId) (mtype : Nat) (tag : Word) (body : List Word) (dev : Nat) : Dev :=
  if d.role P ≠ 0 ∧ d.cas.len ≤ dev then d.mresp P k tag 6 0 [] 0
  else d.stageMsg (if k = 2 then 1 else 2) mtype tag body false

/-- First failing word of a request: its status and address. -/
def firstFail (st : Nat) (a : Word) (acc : Nat × Word) : Nat × Word := if acc.1 = 0 ∧ st ≠ 0 then (st, a) else acc

/-- Words read one after another, each by a grant of its own, until one has to wait (01 R17, 16 R367, R371): the first failing word, the words read, how many are left, and the device. The first asks since a cycle, the others since the one before them. -/
def Dev.readWords (P : Part) : Nat → Nat → Word → Nat × Word → List Word → Dev → (Nat × Word) × List Word × Nat × Dev
  | 0, _, _, acc, ws, d => (acc, ws, 0, d)
  | n + 1, age, a, acc, ws, d =>
    if d.wordFree P age a false then
      let r := d.mgmtRead P a
      Dev.readWords P n r.2.2.cycle (a + 4) (firstFail r.1 a acc) (ws ++ [r.2.1]) r.2.2
    else (acc, ws, n + 1, d)

/-- Words written one after another, each by a grant of its own, until a reset ends the request or one has to wait (01 R17, R25, 16 R367, R371): the first failing word, the words left, and the device. -/
def Dev.writeWords (P : Part) : List Word → Nat → Word → Nat × Word → Dev → (Nat × Word) × List Word × Dev
  | [], _, _, acc, d => (acc, [], d)
  | v :: vs, age, a, acc, d =>
    if !d.coreOn then (acc, [], d)
    else if d.wordFree P age a true then
      let r := d.mgmtWrite P a v
      Dev.writeWords P vs r.2.cycle (a + 4) (firstFail r.1 a acc) r.2
    else (acc, v :: vs, d)

/-- How far the request in front has come: the words done, the first failing one and the words read (16 R367); a request that has only now arrived has done none. -/
def Dev.reqDone (d : Dev) : Nat × (Nat × Word) × List Word :=
  match d.kl.inbox with
  | x :: _ => (x.did, x.fail, x.got)
  | [] => (0, (0, 0), [])

/-- The request in front, with its progress: its next word asks from now on. -/
def Dev.noteDone (d : Dev) (did : Nat) (fail : Nat × Word) (got : List Word) : Dev :=
  match d.kl.inbox with
  | x :: rest => d.updKl fun k => { k with inbox := { x with did := did, fail := fail, got := got, nextAt := if did = x.did then x.nextAt else d.cycle } :: rest }
  | [] => d

/-- The cycle since which the next word of the request at the head of the receive buffer asks; now, when none stands there. -/
def Dev.inboxAsk (d : Dev) : Nat := (d.kl.inbox.head?.map fun x => max x.age x.nextAt).getD d.cycle

/-- MREAD (16 R370, R371). Where a word has to wait the request stays in front with the words it has read (01 R17, 14 R341), and the same command goes on with the others. -/
def Dev.mread (P : Part) (d : Dev) (k : LinkId) (tag : Word) (body : List Word) : Dev :=
  let w0 := body.headD 0
  let a := (body.drop 1).headD 0
  let n := reqCount w0
  if !d.takesRequest P k 1 tag body then d.keepRequest P k 1 tag body
  else if reqDev P w0 ≠ d.ownAddr P then (d.dequeue k 1 tag body).routeRequest P k 1 tag body (reqDev P w0)
  else if !reqOk 1 body then (d.dequeue k 1 tag body).mresp P k tag 5 0 [] 0
  else
    let s := d.reqDone
    let r := Dev.readWords P (n - s.1) d.inboxAsk (a + nword (4 * s.1)) s.2.1 s.2.2 (d.keepRequest P k 1 tag body)
    if r.2.2.1 ≠ 0 then r.2.2.2.noteDone (n - r.2.2.1) r.1 r.2.1
    else (r.2.2.2.dequeue k 1 tag body).mresp P k tag r.1.1 r.1.2 r.2.1 n

/-- Event 43 (16 R371). -/
def Dev.mgmtMsg (d : Dev) (mtype : Nat) : Dev := if d.coreOn then d.raise 43 (nword mtype) else d

/-- MWRITE (16 R370, R371): one MRESP unless NORESP = 1 and every word ended OK, and event 43. Where a word has to wait the request stays in front with the words that are left (01 R17, R25, 14 R341), and the same command goes on with them. -/
def Dev.mwrite (P : Part) (d : Dev) (k : LinkId) (tag : Word) (body : List Word) : Dev :=
  let w0 := body.headD 0
  let a := (body.drop 1).headD 0
  let n := reqCount w0
  let s := d.reqDone
  if !d.takesRequest P k 2 tag body then d.keepRequest P k 2 tag body
  else if reqDev P w0 ≠ d.ownAddr P then (d.dequeue k 2 tag body).routeRequest P k 2 tag body (reqDev P w0)
  else if !reqOk 2 body then (d.dequeue k 2 tag body).mresp P k tag 5 0 [] 0
  else
    let r := Dev.writeWords P (body.drop (2 + s.1)) d.inboxAsk (a + nword (4 * s.1)) s.2.1 (d.keepRequest P k 2 tag body)
    if !r.2.2.coreOn then r.2.2
    else if r.2.1 ≠ [] then r.2.2.noteDone (n - r.2.1.length) r.1 []
    else
      let d1 := r.2.2.dequeue k 2 tag body
      let d2 := if bit w0 16 ∧ r.1.1 = 0 then d1 else d1.mresp P k tag r.1.1 r.1.2 [] n
      d2.mgmtMsg 2

/-- The pairs of a CREDIT body: stream word and lines. -/
def creditPairs : List Word → List (Word × Word)
  | a :: b :: rest => (a, b) :: creditPairs rest
  | _ => []

/-- CREDIT (16 R370, 02 R41): grants for this device are applied in body order, those for devices below go on down the chain. At the master one NODEV answers a message that names an address at or above LEN (DESIGN CHOICE, log 36). A message with no pair for this device is not executed here and raises no event 43 (16 R371). -/
def Dev.creditMsg (P : Part) (d : Dev) (k : LinkId) (tag : Word) (body : List Word) : Dev :=
  if !d.takesRequest P k 5 tag body then d.keepRequest P k 5 tag body
  else
    let d := d.dequeue k 5 tag body
    let dev := fun (p : Word × Word) => if P.casc then fld p.1 8 4 else 0
    let mine := (creditPairs body).filter fun p => dev p == d.ownAddr P
    let others := (creditPairs body).filter fun p => dev p != d.ownAddr P
    let below := others.filter fun p => d.role P == 0 || decide (dev p < d.cas.len)
    let d := mine.foldl (fun d p => (d.grant (Fin.ofNat 64 (fld p.1 0 6)) p.2.toNat).2) d
    let d := if below.isEmpty then d else d.stageMsg 2 5 tag (below.flatMap fun p => [p.1, p.2]) false
    let d := if below.length = others.length then d else d.mresp P k tag 6 0 [] 0
    if mine.isEmpty && !others.isEmpty then d else d.mgmtMsg 5

/-- The answer to CAPS (16 R370). -/
def Dev.capsAnswer (P : Part) (d : Dev) : List Word :=
  [P.id, P.caps, d.sys.boot, 0x0102, d.sys.supId, d.sys.lnkId, place (d.ownAddr P) 0 ||| place d.cas.len 4]

/-- CAPS_MESSAGE (16 R370). -/
def Dev.capsMsg (P : Part) (d : Dev) (k : LinkId) (tag : Word) : Dev :=
  if !d.takesRequest P k 6 tag [] then d.keepRequest P k 6 tag []
  else
    let d := d.dequeue k 6 tag []
    d.stageMsg k 6 tag (d.capsAnswer P) true

/-- PING (16 R370, R371): its body comes back in a PING; a body above 64 bytes is discarded and counted. -/
def Dev.pingMsg (P : Part) (d : Dev) (k : LinkId) (tag : Word) (body : List Word) : Dev :=
  if !d.takesRequest P k 7 tag body then d.keepRequest P k 7 tag body
  else
    let d := d.dequeue k 7 tag body
    if 16 < body.length then d.discardMsg else (d.stageMsg k 7 tag body true).mgmtMsg 7

/-! ### SPI -/

/-- The response of the SPI target: a status byte, data and CRC-8 (16 R373). -/
def spiResponse (status : Nat) (data : List Byte) : List Byte :=
  let bs := BitVec.ofNat 8 (0xA0 + status) :: data
  bs ++ [crc8 bs]

/-- A response given out on MISO; what CS_N has not yet clocked out stands in spi. -/
def Dev.spiAnswer (d : Dev) (status : Nat) (data : List Byte) : Dev :=
  { d with spi := spiResponse status data }.emitOut (.spi (spiResponse status data))

/-- A failed request CRC (16 R374). -/
def Dev.spiBadCrc (d : Dev) : Dev :=
  (d.updSys fun y => { y with spiCrc := if y.spiCrc = 255 then 255 else y.spiCrc + 1 }).spiAnswer 4 []

/-- The response to a request that was accepted; nothing comes when its transaction has been abandoned (16 R375). -/
def Dev.spiRespond (d : Dev) (r : SpiReq) (status : Nat) (data : List Byte) : Dev := if r.wanted then d.spiAnswer status data else d

/-- The oldest SPI request makes its access and is answered, unless it waits for the requests before it, for an NVM that is busy, for its port, or for room in the crossing it passes (01 R17, R25, 14 R341, 16 R367, R374). -/
def Dev.spiServe (P : Part) (d : Dev) : Dev :=
  match d.spiReq with
  | [] => d
  | r :: rest =>
    if !d.coreOn || d.spiWaits P r.age || !d.wordFree P r.age r.addr r.write then d
    else
      let d := { d with spiReq := rest }
      if r.write then
        let w := d.mgmtWrite P r.addr r.data
        if w.2.coreOn then w.2.spiRespond r w.1 [] else w.2
      else
        let w := d.mgmtRead P r.addr
        w.2.2.spiRespond r w.1 (wordBytesBE w.2.1)

/-- A request whose CRC has passed is accepted; one of an earlier transaction that still waits is no longer answered (16 R374, R375). -/
def Dev.spiAccept (P : Part) (d : Dev) (write : Bool) (addr data : Word) : Dev :=
  Dev.spiServe P { d with spiReq := (d.spiReq.map fun r : SpiReq => { r with wanted := false }) ++ [⟨write, addr, data, d.cycle, true⟩] }

/-- SPI_READ (16 R373, R374): command 0x03. -/
def Dev.spiRead (P : Part) (d : Dev) (addr : Word) (crc : Byte) : Dev :=
  if !d.coreOn then d
  else if crc8 (0x03 :: wordBytesBE addr) ≠ crc then d.spiBadCrc
  else d.spiAccept P false addr 0

/-- SPI_WRITE (16 R373, R374): command 0x02. -/
def Dev.spiWrite (P : Part) (d : Dev) (addr data : Word) (crc : Byte) : Dev :=
  if !d.coreOn then d
  else if crc8 (0x02 :: (wordBytesBE addr ++ wordBytesBE data)) ≠ crc then d.spiBadCrc
  else d.spiAccept P true addr data

/-- SPI_UNKNOWN_COMMAND (16 R374): FORMAT after the CRC byte, for a command byte that is neither READ nor WRITE. -/
def Dev.spiUnknown (d : Dev) (cmd : Byte) (body : List Byte) (crc : Byte) : Dev :=
  if !d.coreOn ∨ cmd = 0x02 ∨ cmd = 0x03 then d
  else if crc8 (cmd :: body) ≠ crc then d.spiBadCrc
  else d.spiAnswer 5 []

/-- SPI_CS_RISE (16 R375): an incomplete request is gone, or the rest of the response is dropped; an access that waits is still made. -/
def Dev.spiCsRise (d : Dev) : Dev := { d with spi := [], spiReq := d.spiReq.map fun r : SpiReq => { r with wanted := false } }

/-! ### Debug -/

/-- A debug access made by master 83 (01 R16, R19, 03 R78). -/
def Dev.debugMade (P : Part) (d : Dev) (write : Bool) (addr data : Word) : Dev :=
  let a := addr.toNat
  let x : Access := { addr := addr, size := 4, write := write }
  match firstCause (a % 4 != 0) (!reaches .debug (regionOf P a) || decodeBad P a 4 write) with
  | some k => d.freezeMst P .debug k 0 x 0
  | none =>
    if regionOf P a = .mmio then
      (if write then d.debugWrite P (a - 0x8000000) data
      else
        let r := d.mmioRead P .debug (a - 0x8000000)
        r.2.emitOut (.tap (some r.1)))
    else if write then d.store P a (wordBytes data)
    else
      let d1 := d.beatRead P a 4
      if d.eccBad P a 4 then d1.freezeMst P .debug 9 0 x 0 else d1.emitOut (.tap (some (d.word a)))

/-- The oldest debug access is made, unless the master is frozen, or its port or a write's crossing keeps it waiting (01 R17, R25, 03 R78). -/
def Dev.debugServe (P : Part) (d : Dev) : Dev :=
  match d.dbgReq with
  | [] => d
  | r :: rest =>
    if !d.coreOn || d.frozen .debug || !d.grantable P (portOf (regionOf P r.addr.toNat)) r.age .debug || (r.write && d.wordHeld P r.addr) then d
    else { d with dbgReq := rest }.debugMade P r.write r.addr r.data

/-- DEBUG_ACCESS_REQUEST (01 R25, 03 R78): the request crosses from TCK and master 83 makes one word access at PD or MMIO, once the accesses before it are made; the TAP returns busy while the master is frozen, CK_CORE stands still or the crossing holds 4 requests, and a blown debug fuse leaves no access (17 R393). -/
def Dev.debugAccess (P : Part) (d : Dev) (write : Bool) (addr data : Word) : Dev :=
  if P.dbgdis then d
  else if !d.coreOn || d.frozen .debug || !d.crossRoom 8 || decide (4 ≤ d.dbgReq.length) then d.emitOut (.tap none)
  else Dev.debugServe P { d.cross 8 with dbgReq := d.dbgReq ++ [⟨write, addr, data, d.cycle⟩] }

/-- IDCODE of a variant (17 R393). -/
def Part.idcode (P : Part) : Word :=
  match P.variant with
  | .yk4860 => 0x1486074F
  | .yk4840 => 0x1484074F
  | .yk4820 => 0x1482074F

/-- The balls of the boundary register in order (17 R376, R393). -/
def balls : List Ball :=
  ((List.finRange 4).flatMap fun p => (List.finRange 9).map fun i => Ball.port p i) ++
    ((List.finRange 2).flatMap fun m => [.step m, .dir m, .en m, .enc m 0, .enc m 1, .enc m 2]) ++ (List.finRange 8).map Ball.gpi ++
    [.wake, .resetN, .intN, .role 0, .role 1, .chnI, .chnO, .lsync, .lholdN, .forceO, .forceI, .sck, .csN, .mosi, .miso, .testen]

/-- A ball belongs to a unit that the part has (00 R1, 17 R378). -/
def ballPresent (P : Part) : Ball → Bool
  | .port p _ => portPresent P p
  | .chnI => P.casc
  | .chnO => P.casc
  | .lsync => P.casc
  | .lholdN => P.casc
  | .forceO => P.pair
  | .forceI => P.pair
  | _ => true

/-- A ball is an input alone (17 R376). -/
def ballInput : Ball → Bool
  | .enc _ _ => true
  | .gpi _ => true
  | .wake => true
  | .resetN => true
  | .role _ => true
  | .chnI => true
  | .forceI => true
  | .sck => true
  | .csN => true
  | .mosi => true
  | .testen => true
  | _ => false

/-- An open-drain ball: it is pulled low or let go (17 R376). -/
def openDrain (b : Ball) : Bool := b == .intN || b == .lholdN

/-- The level that the device's logic gives to an output ball; none is high impedance, as at every ball of an absent unit (17 R378) and at MISO between transactions (16 R375). LSYNC is low but for its pulses. MISO carries 0x00 while an accepted request waits for its response (16 R373); the bits of the response are an output record. -/
def Dev.coreOut (P : Part) (d : Dev) : Ball → Option Bool
  | .port p i => (d.portOut P p).map fun v => v.getLsbD i.val
  | .step m => (d.axisOut m).map fun x => x.step
  | .dir m => (d.axisOut m).map fun x => x.dir
  | .en m => (d.axisOut m).map fun x => x.en
  | .intN => if d.intLow then some false else none
  | .chnO => if P.casc then some d.cas.chnO else none
  | .lsync => if d.chainMaster P || (d.pairRole P && !d.hearsLsync P) then some false else none
  | .lholdN => if d.lholdPulled P then some false else none
  | .forceO => if P.pair then some d.cas.forceO else none
  | .miso => if d.spiReq.any fun r => r.wanted then some false else none
  | _ => none

/-- The level at a ball that the state tells: RESET_N is low in a reset that it has caused, and high wherever the device is not held in reset (14 R330). -/
def Dev.ballIn (P : Part) (d : Dev) (b : Ball) : Option Bool :=
  match b with
  | .gpi n => some (d.pins.gpi.getLsbD n.val)
  | .role i => some (d.pins.role.getLsbD i.val)
  | .chnI => some d.pins.chnI
  | .forceI => if P.pair then some d.pins.forceI else none
  | .enc m i => if i = 0 then some (d.mot[m]).encA else if i = 1 then some (d.mot[m]).encB else none
  | .resetN => if d.phase ≠ .inReset then some true else if d.pwr.rstCause = 2 then some false else none
  | .lholdN => some (!d.lholdPulled P && d.pins.lholdN)
  | b => d.coreOut P b

/-- SAMPLE takes the levels of the balls into the boundary register, and PRELOAD fills its output stage with what is shifted in meanwhile; a level that no state tells, and the bits shifted in, which no command names, are free (17 R393; log 37). -/
def Dev.sampleBalls (P : Part) (d : Dev) : Dev :=
  { d.takeFree.2 with
    bsr := balls.zipIdx.map fun b => (d.ballIn P b.1).getD (Config.ballLevel d.free b.2)
    preload := balls.zipIdx.map fun b => Config.preloaded d.free b.2 }

/-- What a ball drives (17 R376, R378, R393): EXTEST and CLAMP drive the output balls of present units from what was preloaded, an open-drain one low or not at all; HIGHZ lets every ball go, and otherwise the device's logic drives it. -/
def Dev.ballOut (P : Part) (d : Dev) (b : Ball) : Option Bool :=
  match d.tap.toNat with
  | 0 | 3 =>
    let level := d.preload.getD (balls.idxOf b) false
    if ballInput b || !ballPresent P b || (openDrain b && level) then none else some level
  | 4 => none
  | _ => d.coreOut P b

/-- TAP_INSTRUCTION (17 R393): the code in force; undefined codes, and with the debug fuse blown every code but IDCODE, act as BYPASS. IDCODE shifts its word out, and SAMPLE/PRELOAD takes the balls' levels and fills the output stage. -/
def Dev.tapInstruction (P : Part) (d : Dev) (code : BitVec 4) : Dev :=
  let known := decide (code.toNat ≤ 4)
  let eff : BitVec 4 := if code = 2 then 2 else if known && !P.dbgdis then code else 0xF
  let d := { d with tap := eff }
  if eff = 2 then d.emitOut (.tap (some P.idcode)) else if eff = 1 then d.sampleBalls P else d

/-! ### Grants -/

/-- BURST_GRANT (01 R17, 14 R341): a request that a command of its own carries out is left to that command. -/
def Dev.burstGrant (P : Part) (d : Dev) (p : Port) : Dev :=
  if p = .nvm ∧ d.pwr.nvmOp.isSome then d
  else
  let d := d.dmaEnd P
  match oldestReq (d.waiting P p) with
    | some (.ctx c, .load) => d.grantLoad P c
    | some (.ctx c, .store) => d.drainOne P c
    | some (.ctx c, .fetch) => (d.fetchBeat P c).updCtx c fun x => { x with fetched := true, fetchBad := d.eccBad P x.pc.toNat 4, issuableSince := d.cycle }
    | some (m, .late) => d.latePut P m p
    | some (.dma n, _) => d.dmaBurst P n
    | some (.mgmt, _) => d.spiServe P
    | some (.debug, _) => d.debugServe P
    | some (.corr, _) => d.corrBurst P
    | _ => d

end Sys2Proof.Machine
end

