-- ==== Sys2Proof/Machine/Junath.lean ====
section
/-!
DEFINITION. What the meanings of the commands share: a command acts on the device, and the instruction shapes of the Junath set (04 R92-R115).
-/
namespace Sys2Proof.Machine

/-- A command changes the device and nothing else: the queue and the part stay as they are. -/
def act (f : Part → Dev → Dev) (s : State) : Host.Outcome State Fault Refusal := .next { s with dev := f s.part s.dev }

/-- A step that takes place only under a condition; otherwise nothing changes. -/
def Dev.when (d : Dev) (b : Bool) (f : Dev → Dev) : Dev := if b then f d else d

/-- A step of CK_CORE: nothing happens while that clock stands still. -/
def coreStep (f : Part → Dev → Dev) (s : State) : Host.Outcome State Fault Refusal := act (fun P d => d.when d.coreOn (f P)) s

/-- A step of a domain that runs from the boot on, STANDBY included. -/
def upStep (f : Part → Dev → Dev) (s : State) : Host.Outcome State Fault Refusal := act (fun P d => d.when d.up (f P)) s

/-- A step of CK_AON or of the clock monitor, which run from the end of reset. -/
def aonStep (f : Part → Dev → Dev) (s : State) : Host.Outcome State Fault Refusal := act (fun P d => d.when (d.phase != .inReset) (f P)) s

/-- A write of a register as a command of its own. -/
def regWrite (m : Master) (o : Nat) (v : Word) (s : State) : Host.Outcome State Fault Refusal := act (fun P d => d.busWrite P m o v) s

/-- A read of a register as a command of its own. -/
def regRead (m : Master) (o : Nat) (s : State) : Host.Outcome State Fault Refusal := act (fun P d => d.busReadKept P m o) s

/-! ### ALU and control -/

/-- An ALU instruction (04 R95, R96, R98): result to gd, flags, PC on the next instruction. -/
def Dev.alu (P : Part) (d : Dev) (c : CtxId) (gd : Reg) (f : Ctx → Word × Flags) : Dev :=
  d.issue P c fun d => d.updCtx c fun x => { (x.wr gd (f x).1).setFlags (f x).2 with pc := x.pc + 4 }

/-- A taken jump: PC on the target, with its BRANCH packet (14 R349). -/
def Dev.jump (P : Part) (d : Dev) (c : CtxId) (target : Word) : Dev :=
  (d.trace P c 1 (d.ctx[c]).pc target).updCtx c fun x => { x with pc := target }

/-- A branch (04 R102). -/
def Dev.branch (P : Part) (d : Dev) (c : CtxId) (imm : Imm14) (cond : Ctx → Bool) : Dev :=
  d.issue P c fun d => if cond d.ctx[c] then d.jump P c (branchTarget (d.ctx[c]).pc imm) else d.advance c

/-- The effect of JAL (04 R103). -/
def Dev.jalBody (P : Part) (c : CtxId) (imm : Imm26) (d : Dev) : Dev :=
  let pc := (d.ctx[c]).pc
  (d.jump P c (jumpTarget pc imm)).updCtx c fun x => x.wr 13 (pc + 4)

/-- The effect of JR (04 R103, R104). -/
def Dev.jrBody (P : Part) (c : CtxId) (gd ga : Reg) (imm : Imm14) (insn : Word) (d : Dev) : Dev :=
  let pc := (d.ctx[c]).pc
  let t := (d.ctx[c]).addr14 ga imm
  if t.toNat % 4 ≠ 0 then d.freezeCtx P c 2 { addr := t, size := 4, fetch := true } insn
  else (d.jump P c t).updCtx c fun x => x.wr gd (pc + 4)

/-! ### Memory -/

/-- What an instruction that is held asks of the MMIO port; a load of memory asks once it goes ahead. -/
def mmioAsk (P : Part) (write : Bool) (a : Word) : Option (Bool × Word) := if regionOf P a.toNat = .mmio then some (write, a) else none

/-- A load of n bytes (04 R99). -/
def Dev.load (P : Part) (d : Dev) (c : CtxId) (gd ga : Reg) (imm : Imm18) (n : Nat) (insn : Word) : Dev :=
  let a := (d.ctx[c]).addr18 ga imm
  d.issueFor P c insn (mmioAsk P false a) (d.loadReady P c a.toNat n) (Dev.loadBody P c gd a n insn)

/-- A store of n bytes (04 R99): it does not issue while the crossing that it passes is full (04 R97). -/
def Dev.storeInsn (P : Part) (d : Dev) (c : CtxId) (gd ga : Reg) (imm : Imm18) (n : Nat) (insn : Word) : Dev :=
  let a := (d.ctx[c]).addr18 ga imm
  d.when ((d.ctx[c]).held.isSome || !d.crossFull P c insn) fun d =>
    d.issueFor P c insn (mmioAsk P true a) (d.storeReady P c a.toNat n) (Dev.storeBody P c ((d.ctx[c]).rd gd) a n insn)

/-- SWAP and CAS (04 R100). -/
def Dev.atomic (P : Part) (d : Dev) (c : CtxId) (gd ga : Reg) (imm : Imm14) (insn : Word) (f : Word → Option Word × Option Bool) : Dev :=
  let a := (d.ctx[c]).addr14 ga imm
  d.issueFor P c insn (some (true, a)) (d.atomicReady P c a.toNat) (Dev.atomicBody P c gd a insn f)

/-- What SWAP does with the old word: the value to write, and no change of Z. -/
def swapRule (v _old : Word) : Option Word × Option Bool := (some v, none)

/-- What CAS does with the old word: it writes on equality, and Z tells the comparison. -/
def casRule (expect v old : Word) : Option Word × Option Bool := (if old = expect then some v else none, some (decide (old = expect)))

/-- A fence (03 R87, 04 R101): it completes once every earlier store is visible; earlier loads have completed. -/
def Dev.fence (P : Part) (d : Dev) (c : CtxId) (insn : Word) : Dev := d.issueWhen P c insn (d.ctx[c]).sbuf.isEmpty fun d => d.advance c

/-! ### Scheduling -/

/-- The effect of YIELD: urgency ends (04 R109). -/
def Dev.yieldBody (c : CtxId) (d : Dev) : Dev := d.updCtx c fun x => { x with pc := x.pc + 4, urgent := 0 }

/-- The oldest queued record whose source is in a mask, and the queue without it (04 R105). -/
def takeQueued (m : BitVec 64) : List EvRec → Option (EvRec × List EvRec)
  | [] => none
  | r :: rs => if m.getLsbD r.src.val then some (r, rs) else (takeQueued m rs).map fun p => (p.1, r :: p.2)

/-- The effect of WAIT (04 R105, R106). While the context waits PC stays on the WAIT. -/
def Dev.waitBody (P : Part) (c : CtxId) (ga gb : Reg) (d : Dev) : Dev :=
  let x := d.ctx[c]
  let m : BitVec 64 := x.rd gb ++ x.rd ga
  if m = 0 then Dev.yieldBody c (d.updCtx c fun x => { x with emask := m, z := true })
  else match takeQueued m x.queue with
    | some (r, rest) =>
      let d := d.updCtx c fun x => { x.takeRec r with emask := m, queue := rest, urgent := 0 }
      d.trace P c 2 (recWords r)[0] (d.ctx[c]).pc
    | none => d.setRun P c fun x => { x with emask := m, run := .waiting, urgent := 0 }

/-- The effect of TS (04 R109). -/
def Dev.tsBody (c : CtxId) (gd ga : Reg) (d : Dev) : Dev :=
  d.updCtx c fun x => { (x.wr gd (d.stb.extractLsb' 0 32)).wr ga ((d.stb.extractLsb' 32 16).setWidth 32) with pc := x.pc + 4 }

/-! ### Device and supervisor instructions -/

/-- The end of a device instruction: Z and PC. -/
def Dev.devDone (d : Dev) (c : CtxId) (z : Bool) : Dev := d.updCtx c fun x => { x with z := z, pc := x.pc + 4 }

/-- A device instruction (04 R111, R112): it acts on its unit, and Z is its result. The commands of one cycle come in the order of R111, SQ0, SQ1, then MMIO writes and messages (DESIGN CHOICE, log 110). -/
def Dev.devInsn (P : Part) (d : Dev) (c : CtxId) (f : Dev → Bool × Dev) : Dev :=
  d.issue P c fun d => (f d).2.devDone c (f d).1

/-- A device instruction that addresses an absent unit (00 R5, 04 R110): 0 to the destination, Z = 0 and ST.ABS. -/
def Dev.absentBody (c : CtxId) (gd : Reg) (d : Dev) : Dev :=
  d.updCtx c fun x => { x.wr gd 0 with z := false, abs := true, pc := x.pc + 4 }

/-- A device instruction of a unit that may be absent. -/
def Dev.unitInsn (P : Part) (d : Dev) (c : CtxId) (present : Bool) (f : Dev → Bool × Dev) : Dev :=
  if present then d.devInsn P c f else d.issue P c (Dev.absentBody c 0)

/-- The stream a CRED instruction names (04 R112). -/
def Ctx.stream (x : Ctx) (ga : Reg) : Fin 64 := Fin.ofNat 64 (fld (x.rd ga) 0 6)

/-- A CRED instruction in U privilege on a stream of another owner is a privilege violation (02 R44). -/
def Dev.credInsn (P : Part) (d : Dev) (c : CtxId) (ga : Reg) (insn : Word) (f : Fin 64 → Dev → Dev) : Dev :=
  d.issue P c fun d =>
    let s := (d.ctx[c]).stream ga
    if !(d.ctx[c]).priv && (d.hng.streams[s]).owner.toNat != c.val then d.violate P c 5 insn else f s d

/-- A supervisor instruction (04 R114): in U privilege it freezes the context with cause PRIVILEGE. -/
def Dev.supInsn (P : Part) (d : Dev) (c : CtxId) (ready : Bool) (insn : Word) (f : Dev → Dev) : Dev :=
  d.issueWhen P c insn (ready || !(d.ctx[c]).priv) fun d => if (d.ctx[c]).priv then f d else d.violate P c 5 insn

/-- The target context of a supervisor instruction, ga[5:0] (04 R114). -/
def Ctx.target (x : Ctx) (ga : Reg) : CtxId := Fin.ofNat 64 (fld (x.rd ga) 0 6)

/-- A supervisor instruction on a context that is absent: ST.ABS, Z unchanged (00 R5). -/
def Dev.absentCtx (c : CtxId) (d : Dev) : Dev := d.updCtx c fun x => { x with abs := true, pc := x.pc + 4 }

/-- CTX op (04 R114, R115): PC is on the next instruction when the operation acts. -/
def Dev.ctxInsn (P : Part) (d : Dev) (c : CtxId) (ga : Reg) (op : Nat) (insn : Word) : Dev :=
  d.supInsn P c true insn fun d =>
    let t := (d.ctx[c]).target ga
    if ctxPresent P t then (d.advance c).ctxOp P op t else Dev.absentCtx c d

/-- WIN (03 R74, 04 R114): both registers of a window change together. -/
def Dev.winBody (P : Part) (c : CtxId) (k : Fin 4) (gd ga gb : Reg) (d : Dev) : Dev :=
  let x := d.ctx[c]
  if ctxPresent P (x.target ga) then
    (d.updCtx (x.target ga) fun y => { y with win := y.win.set k ⟨winBase (x.rd gb), winLimit (x.rd gd)⟩ }).advance c
  else Dev.absentCtx c d

/-- THAW (03 R82, 04 R114). -/
def Dev.thawBody (P : Part) (c : CtxId) (ga : Reg) (d : Dev) : Dev :=
  let n := fld ((d.ctx[c]).rd ga) 0 8
  if masterAbsent P n then Dev.absentBody c 0 d else (d.thawNum P n).2.devDone c (d.thawNum P n).1

end Sys2Proof.Machine
end

