-- ==== Sys2Proof/Machine/AluGroup.lean ====
section
/-!
DEFINITION. Meanings of the ALU instructions (04 R95, R96, R98).
-/
namespace Sys2Proof.Machine

/-- ADD (04 R98): gd ← ga + b. -/
def execAdd (c : CtxId) (gd ga gb : Reg) (imm : Imm14) (s : State) : Host.Outcome State Fault Refusal :=
  act (fun P d => d.alu P c gd fun x => addR (x.rd ga) (x.opB gb imm)) s

/-- SUB (04 R98): gd ← ga − b. -/
def execSub (c : CtxId) (gd ga gb : Reg) (imm : Imm14) (s : State) : Host.Outcome State Fault Refusal :=
  act (fun P d => d.alu P c gd fun x => subR (x.rd ga) (x.opB gb imm)) s

/-- AND (04 R98). -/
def execAnd (c : CtxId) (gd ga gb : Reg) (imm : Imm14) (s : State) : Host.Outcome State Fault Refusal :=
  act (fun P d => d.alu P c gd fun x => logicR (x.rd ga &&& x.opB gb imm)) s

/-- OR (04 R98). -/
def execOr (c : CtxId) (gd ga gb : Reg) (imm : Imm14) (s : State) : Host.Outcome State Fault Refusal :=
  act (fun P d => d.alu P c gd fun x => logicR (x.rd ga ||| x.opB gb imm)) s

/-- XOR (04 R98). -/
def execXor (c : CtxId) (gd ga gb : Reg) (imm : Imm14) (s : State) : Host.Outcome State Fault Refusal :=
  act (fun P d => d.alu P c gd fun x => logicR (x.rd ga ^^^ x.opB gb imm)) s

/-- SHL (04 R98). -/
def execShl (c : CtxId) (gd ga gb : Reg) (imm : Imm14) (s : State) : Host.Outcome State Fault Refusal :=
  act (fun P d => d.alu P c gd fun x => shlR (x.rd ga) (x.opB gb imm)) s

/-- SHR (04 R98). -/
def execShr (c : CtxId) (gd ga gb : Reg) (imm : Imm14) (s : State) : Host.Outcome State Fault Refusal :=
  act (fun P d => d.alu P c gd fun x => shrR (x.rd ga) (x.opB gb imm)) s

/-- SRA (04 R98). -/
def execSra (c : CtxId) (gd ga gb : Reg) (imm : Imm14) (s : State) : Host.Outcome State Fault Refusal :=
  act (fun P d => d.alu P c gd fun x => sraR (x.rd ga) (x.opB gb imm)) s

/-- MUL (04 R98). -/
def execMul (c : CtxId) (gd ga gb : Reg) (imm : Imm14) (s : State) : Host.Outcome State Fault Refusal :=
  act (fun P d => d.alu P c gd fun x => mulR (x.rd ga) (x.opB gb imm)) s

/-- MULH (04 R98). -/
def execMulh (c : CtxId) (gd ga gb : Reg) (imm : Imm14) (s : State) : Host.Outcome State Fault Refusal :=
  act (fun P d => d.alu P c gd fun x => mulhR (x.rd ga) (x.opB gb imm)) s

/-- MIN (04 R98). -/
def execMin (c : CtxId) (gd ga gb : Reg) (imm : Imm14) (s : State) : Host.Outcome State Fault Refusal :=
  act (fun P d => d.alu P c gd fun x => minR (x.rd ga) (x.opB gb imm)) s

/-- MAX (04 R98). -/
def execMax (c : CtxId) (gd ga gb : Reg) (imm : Imm14) (s : State) : Host.Outcome State Fault Refusal :=
  act (fun P d => d.alu P c gd fun x => maxR (x.rd ga) (x.opB gb imm)) s

/-- CMP (04 R98): flags of ga − b and no register. -/
def execCmp (c : CtxId) (ga gb : Reg) (imm : Imm14) (s : State) : Host.Outcome State Fault Refusal :=
  act (fun P d => d.alu P c 0 fun x => subR (x.rd ga) (x.opB gb imm)) s

/-- ADDI (04 R98). -/
def execAddi (c : CtxId) (gd ga : Reg) (imm : Imm18) (s : State) : Host.Outcome State Fault Refusal :=
  act (fun P d => d.alu P c gd fun x => addR (x.rd ga) (sext imm)) s

/-- LUI (04 R98): gd ← imm18 shifted left by 14, with no flags. -/
def execLui (c : CtxId) (gd : Reg) (imm : Imm18) (s : State) : Host.Outcome State Fault Refusal :=
  act (fun P d => d.alu P c gd fun x => (imm.setWidth 32 <<< 14, ⟨x.z, x.n, x.c, x.v⟩)) s

end Sys2Proof.Machine
end

