-- ==== Sys2Proof/Machine/BusSteps.lean ====
section
/-!
DEFINITION. Meanings of the steps of the interconnect, the sequencers and the reading masters (01 R17-R28, 03 R80-R88, 14 R322, 02 R63, 08 R196, 09 R199).
-/
namespace Sys2Proof.Machine

/-- STORE_BUFFER_DRAIN (03 R85). -/
def execStoreBufferDrain (c : CtxId) (s : State) : Host.Outcome State Fault Refusal := coreStep (fun P d => d.drainGranted P c) s

/-- LOAD_COMPLETE (03 R86). -/
def execLoadComplete (c : CtxId) (s : State) : Host.Outcome State Fault Refusal := coreStep (fun P d => d.loadComplete P c) s

/-- FROZEN_INFLIGHT_ECC (03 R80). -/
def execFrozenInflightEcc (m : Master) (addr : Word) (s : State) : Host.Outcome State Fault Refusal :=
  coreStep (fun P d => d.inflightEcc P m addr) s

/-- BURST_GRANT (01 R17). -/
def execBurstGrant (p : Port) (s : State) : Host.Outcome State Fault Refusal := coreStep (fun P d => d.burstGrant P p) s

/-- ECC_WRITE_BACK (01 R22). -/
def execEccWriteBack (addr : Word) (s : State) : Host.Outcome State Fault Refusal := coreStep (fun P d => d.writeBack P addr) s

/-- SEQUENCER_GATE (14 R322). -/
def execSequencerGate (q : Fin 2) (s : State) : Host.Outcome State Fault Refusal := coreStep (fun P d => d.seqGate P q) s

/-- SYS_STB_LO_READ (01 R28). -/
def execSysStbLoRead (m : Master) (s : State) : Host.Outcome State Fault Refusal := regRead m 0x00040 s

/-- HNG_NEXT_LO_READ (02 R63). -/
def execHngNextLoRead (m : Master) (s : State) : Host.Outcome State Fault Refusal := regRead m 0x50010 s

/-- HNG_LAST_LO_READ (02 R63). -/
def execHngLastLoRead (m : Master) (s : State) : Host.Outcome State Fault Refusal := regRead m 0x50018 s

/-- MOT_CMD_LO_READ (08 R196). -/
def execMotCmdLoRead (m : Master) (a : AxisId) (s : State) : Host.Outcome State Fault Refusal := regRead m (motOff a 0x18) s

/-- MOT_ENC_LO_READ (08 R196). -/
def execMotEncLoRead (m : Master) (a : AxisId) (s : State) : Host.Outcome State Fault Refusal := regRead m (motOff a 0x20) s

/-- MOT_SETPOS_LO_READ (08 R196). -/
def execMotSetposLoRead (m : Master) (a : AxisId) (s : State) : Host.Outcome State Fault Refusal := regRead m (motOff a 0x54) s

/-- LS_CNT0_READ (09 R199). -/
def execLsCnt0Read (m : Master) (s : State) : Host.Outcome State Fault Refusal := regRead m 0x70010 s

end Sys2Proof.Machine
end

