-- ==== Sys2Proof/Machine/ChainSteps.lean ====
section
/-!
DEFINITION. Meanings of the steps of chains and redundant pairs (13 R295-R321). The step of a message acts when its message stands in front of the receive buffer, or none waits (10 R243).
-/
namespace Sys2Proof.Machine

/-- A step of the chain logic, which only parts with cascade links have (00 R6). -/
def chainStep (f : Part → Dev → Dev) (s : State) : Host.Outcome State Fault Refusal := coreStep (fun P d => d.when P.casc (f P)) s

/-- A step of the pair logic, which only parts with SYS_CAPS.PAIR have (00 R6). -/
def pairStep (f : Part → Dev → Dev) (s : State) : Host.Outcome State Fault Refusal := coreStep (fun P d => d.when P.pair (f P)) s

/-- The step of a cascade message with an MTYPE and a body that passes a test (10 R243). -/
def cascadeStep (t : Nat) (body : List Word → Bool) (f : Part → Dev → Dev) (s : State) : Host.Outcome State Fault Refusal :=
  chainStep (fun P d => d.asMsg (fun x => x.mtype == t && body x.body) (f P)) s

/-- ASSIGN (13 R298). -/
def execAssign (a : BitVec 4) (s : State) : Host.Outcome State Fault Refusal :=
  cascadeStep 0x10 (fun b => fld (b.headD 0) 0 4 == a.toNat) (fun P d => d.assignRx P a) s

/-- ASSIGNED (13 R298). -/
def execAssigned (a : BitVec 4) (s : State) : Host.Outcome State Fault Refusal :=
  cascadeStep 0x11 (fun b => fld (b.headD 0) 0 4 == a.toNat) (fun P d => d.assignedRx P a) s

/-- CHAIN_END (13 R298). -/
def execChainEnd (a : BitVec 4) (s : State) : Host.Outcome State Fault Refusal :=
  cascadeStep 0x12 (fun b => fld (b.headD 0) 0 4 == a.toNat) (fun P d => d.chainEndRx P a) s

/-- ENUM_TIMEOUT (13 R298). -/
def execEnumTimeout (s : State) : Host.Outcome State Fault Refusal := chainStep (fun _ d => d.enumTimeout) s

/-- ENUM (13 R298): a write of CAS_CHAIN_CTL with ENUM = 1 that keeps MODE. -/
def execEnum (m : Master) (s : State) : Host.Outcome State Fault Refusal :=
  act (fun P d => d.busWrite P m 0xC0004 (d.reg 0xC0004 ||| 1)) s

/-- CHAIN_START (13 R305). -/
def execChainStart (n0 : Word) (pstr : BitVec 18) (s : State) : Host.Outcome State Fault Refusal :=
  cascadeStep 0x13 (fun b => b.headD 0 == n0 && fld ((b.drop 1).headD 0) 0 18 == pstr.toNat) (fun P d => d.chainStartRx P n0 pstr.toNat) s

/-- CHAIN_STOP (13 R305). -/
def execChainStop (s : State) : Host.Outcome State Fault Refusal := cascadeStep 0x14 (fun _ => true) (fun P d => d.chainStopRx P) s

/-- SEAMSET (13 R304). -/
def execSeamset (voff hoff : Byte) (s : State) : Host.Outcome State Fault Refusal :=
  cascadeStep 0x15 (fun b => fld (b.headD 0) 0 8 == voff.toNat && fld (b.headD 0) 8 8 == hoff.toNat) (fun P d => d.seamsetRx P voff hoff) s

/-- TBSYNC (13 R309). -/
def execTbsync (cnt : Half) (stb : Pos) (s : State) : Host.Outcome State Fault Refusal :=
  cascadeStep 0x16 (fun b => fld (b.headD 0) 0 16 == cnt.toNat) (fun P d => d.tbsyncRx P cnt stb) s

/-- PAIR_HELLO (13 R310). -/
def execPairHello (st : BitVec 3) (s : State) : Host.Outcome State Fault Refusal :=
  cascadeStep 0x17 (fun b => fld (b.headD 0) 0 3 == st.toNat) (fun P d => d.when P.pair Dev.helloRx) s

/-- PAIR_HELLO_SEND (13 R310). -/
def execPairHelloSend (s : State) : Host.Outcome State Fault Refusal := pairStep (fun _ d => d.helloSend) s

/-- LSYNC_PULSE (13 R297). -/
def execLsyncPulse (width : Nat) (s : State) : Host.Outcome State Fault Refusal := chainStep (fun P d => d.lsyncPulse P width) s

/-- TIMEBASE_PULSE (13 R303). -/
def execTimebasePulse (s : State) : Host.Outcome State Fault Refusal := chainStep (fun P d => d.timebasePulse P) s

/-- SLOTWRITE (13 R308). -/
def execSlotwrite (src : BitVec 4) (off line : Word) (data : List Byte) (s : State) : Host.Outcome State Fault Refusal :=
  chainStep (fun P d => d.slotwriteRx P (fun d age a => d.grantable P (portOf (regionOf P a)) age .cascIn) src off line data) s

/-- SEGEND (13 R308). -/
def execSegend (src : BitVec 4) (line : Word) (s : State) : Host.Outcome State Fault Refusal := chainStep (fun P d => d.segendRx P src line) s

/-- SEGMENT_TIMEOUT (13 R308). -/
def execSegmentTimeout (n : Fin 256) (s : State) : Host.Outcome State Fault Refusal := chainStep (fun P d => d.segTimeout P n) s

/-- CHECKPOINT_SEND (13 R312). -/
def execCheckpointSend (s : State) : Host.Outcome State Fault Refusal := pairStep (fun P d => d.checkpointSend P) s

/-- HEARTBEAT_SEND (13 R312). -/
def execHeartbeatSend (s : State) : Host.Outcome State Fault Refusal := pairStep (fun _ d => d.heartbeatSend) s

/-- CHECKPOINT_RECEIVE (13 R313). -/
def execCheckpointReceive (data : List Byte) (s : State) : Host.Outcome State Fault Refusal := pairStep (fun P d => d.checkpointRx P (fun d age a => d.grantable P (portOf (regionOf P a)) age .mirrorIn) data) s

/-- PAIR_PEER_LOST (13 R315). -/
def execPairPeerLost (s : State) : Host.Outcome State Fault Refusal := pairStep (fun _ d => d.pairPeerLost) s

/-- TAKEOVER_LOAD (13 R316). -/
def execTakeoverLoad (s : State) : Host.Outcome State Fault Refusal := pairStep (fun P d => d.takeoverLoad P) s

/-- PAIR_TAKEOVER (13 R318). -/
def execPairTakeover (s : State) : Host.Outcome State Fault Refusal := pairStep (fun P d => d.pairTakeover P) s

/-- PAIR_FORCE_IN (13 R320): the ball's level changes in every state; a part without pairs has no such ball. -/
def execPairForceIn (high : Bool) (s : State) : Host.Outcome State Fault Refusal := act (fun P d => d.when P.pair fun d => d.pairForceIn P high) s

/-- PAIR_ENABLE (13 R310): a write of CAS_PAIR_CTL with EN = 1. -/
def execPairEnable (m : Master) (v : Word) (s : State) : Host.Outcome State Fault Refusal := regWrite m 0xC0040 (putBit v 0 true) s

/-- REPAIR (13 R315). -/
def execRepair (m : Master) (s : State) : Host.Outcome State Fault Refusal := regWrite m 0xC0044 1 s

/-- REJOIN (13 R310). -/
def execRejoin (m : Master) (s : State) : Host.Outcome State Fault Refusal := regWrite m 0xC0044 2 s

end Sys2Proof.Machine
end

