-- ==== Sys2Proof/Machine/ControlGroup.lean ====
section
/-!
DEFINITION. Meanings of the control, scheduling and event instructions (04 R102-R109, 03 R65).
-/
namespace Sys2Proof.Machine

/-- BEQ, register form (04 R102). -/
def execBeq (c : CtxId) (ga gb : Reg) (imm : Imm14) (s : State) : Host.Outcome State Fault Refusal :=
  act (fun P d => d.branch P c imm fun x => x.rd ga == x.rd gb) s

/-- BNE, register form (04 R102). -/
def execBne (c : CtxId) (ga gb : Reg) (imm : Imm14) (s : State) : Host.Outcome State Fault Refusal :=
  act (fun P d => d.branch P c imm fun x => x.rd ga != x.rd gb) s

/-- BLT, register form (04 R102). -/
def execBlt (c : CtxId) (ga gb : Reg) (imm : Imm14) (s : State) : Host.Outcome State Fault Refusal :=
  act (fun P d => d.branch P c imm fun x => decide ((x.rd ga).toInt < (x.rd gb).toInt)) s

/-- BGE, register form (04 R102). -/
def execBge (c : CtxId) (ga gb : Reg) (imm : Imm14) (s : State) : Host.Outcome State Fault Refusal :=
  act (fun P d => d.branch P c imm fun x => decide ((x.rd gb).toInt ≤ (x.rd ga).toInt)) s

/-- BLTU, register form (04 R102). -/
def execBltu (c : CtxId) (ga gb : Reg) (imm : Imm14) (s : State) : Host.Outcome State Fault Refusal :=
  act (fun P d => d.branch P c imm fun x => decide ((x.rd ga).toNat < (x.rd gb).toNat)) s

/-- BEQ.F (04 R102). -/
def execBeqF (c : CtxId) (imm : Imm14) (s : State) : Host.Outcome State Fault Refusal := act (fun P d => d.branch P c imm fun x => x.z) s

/-- BNE.F (04 R102). -/
def execBneF (c : CtxId) (imm : Imm14) (s : State) : Host.Outcome State Fault Refusal := act (fun P d => d.branch P c imm fun x => !x.z) s

/-- BLT.F (04 R102). -/
def execBltF (c : CtxId) (imm : Imm14) (s : State) : Host.Outcome State Fault Refusal := act (fun P d => d.branch P c imm fun x => x.n != x.v) s

/-- BGE.F (04 R102). -/
def execBgeF (c : CtxId) (imm : Imm14) (s : State) : Host.Outcome State Fault Refusal := act (fun P d => d.branch P c imm fun x => x.n == x.v) s

/-- BLTU.F (04 R102). -/
def execBltuF (c : CtxId) (imm : Imm14) (s : State) : Host.Outcome State Fault Refusal := act (fun P d => d.branch P c imm fun x => x.c) s

/-- BEQ.A (04 R102). -/
def execBeqA (c : CtxId) (imm : Imm14) (s : State) : Host.Outcome State Fault Refusal := act (fun P d => d.branch P c imm fun x => x.abs) s

/-- BNE.A (04 R102). -/
def execBneA (c : CtxId) (imm : Imm14) (s : State) : Host.Outcome State Fault Refusal := act (fun P d => d.branch P c imm fun x => !x.abs) s

/-- JAL (04 R103). -/
def execJal (c : CtxId) (imm : Imm26) (s : State) : Host.Outcome State Fault Refusal :=
  act (fun P d => d.issue P c (Dev.jalBody P c imm)) s

/-- JR (04 R103, R104). -/
def execJr (c : CtxId) (gd ga : Reg) (imm : Imm14) (s : State) : Host.Outcome State Fault Refusal :=
  act (fun P d => d.issue P c (Dev.jrBody P c gd ga imm (fmtA 0x26 gd ga 0 imm))) s

/-- ILLEGAL_OP (04 R93): a word that is legal is no illegal operation, and the command then changes nothing. -/
def execIllegalOp (c : CtxId) (w : Word) (s : State) : Host.Outcome State Fault Refusal :=
  act (fun P d => d.when (!legalWord w) fun d => d.issue P c fun d => d.violate P c 1 w) s

/-- WAIT (04 R105, R106). -/
def execWait (c : CtxId) (ga gb : Reg) (s : State) : Host.Outcome State Fault Refusal :=
  act (fun P d => d.issue P c (Dev.waitBody P c ga gb)) s

/-- EMIT (04 R108, 03 R89). -/
def execEmit (c : CtxId) (n : Fin 4) (ga : Reg) (s : State) : Host.Outcome State Fault Refusal :=
  act (fun P d => d.issueWhen P c (fmtA 0x29 0 ga 0 (BitVec.ofNat 14 n.val)) (d.ctx[c]).sbuf.isEmpty fun d => (d.swRaise n ((d.ctx[c]).rd ga) c.val).advance c) s

/-- YIELD (04 R109). -/
def execYield (c : CtxId) (s : State) : Host.Outcome State Fault Refusal :=
  act (fun P d => d.issue P c (Dev.yieldBody c)) s

/-- HALT (03 R65, 04 R109). -/
def execHalt (c : CtxId) (s : State) : Host.Outcome State Fault Refusal :=
  act (fun P d => d.issue P c fun d => (d.advance c).ctxHalt P c) s

/-- TS (04 R109): one register named twice, g0 apart, is a reserved encoding. -/
def execTs (c : CtxId) (gd ga : Reg) (s : State) : Host.Outcome State Fault Refusal :=
  act (fun P d => d.issue P c fun d =>
    if gd = ga ∧ gd ≠ 0 then d.violate P c 1 (fmtA 0x2C gd ga 0 0) else Dev.tsBody c gd ga d) s

end Sys2Proof.Machine
end

