-- ==== Sys2Proof/Machine/DeviceGroup.lean ====
section
/-!
DEFINITION. Meanings of the device instructions (04 R110-R113).
-/
namespace Sys2Proof.Machine

/-- LINE START (04 R112, 02 R33). -/
def execLineStart (c : CtxId) (gd ga gb : Reg) (s : State) : Host.Outcome State Fault Refusal :=
  act (fun P d => d.devInsn P c fun d => d.lineStart P ((d.ctx[c]).pair48 gd ga) ((d.ctx[c]).rd gb)) s

/-- LINE STOP (04 R112). -/
def execLineStop (c : CtxId) (s : State) : Host.Outcome State Fault Refusal := act (fun P d => d.devInsn P c fun d => d.lineStop P) s

/-- ARM (04 R112, 06 R142). -/
def execArm (c : CtxId) (p : PortId) (b : Fin 2) (s : State) : Host.Outcome State Fault Refusal :=
  act (fun P d => d.unitInsn P c (portPresent P p) fun d => d.armPort p b) s

/-- MOVE in mode 0 (04 R112, 08 R190). -/
def execMoveTo (c : CtxId) (m : AxisId) (gd ga : Reg) (s : State) : Host.Outcome State Fault Refusal :=
  act (fun P d => d.devInsn P c fun d => d.moveAxis m (.pos ((d.ctx[c]).pair48 gd ga * 65536))) s

/-- MOVE in mode 1 (04 R112, 08 R190). -/
def execMoveBy (c : CtxId) (m : AxisId) (gd ga : Reg) (s : State) : Host.Outcome State Fault Refusal :=
  act (fun P d => d.devInsn P c fun d => d.moveAxis m (.pos (d.moveBase m + (d.ctx[c]).pair48 gd ga * 65536))) s

/-- MOVE in mode 2 (04 R93, R112, 08 R190): its gd field is unused, so a word that names a register there is an illegal operation (DEDUCED, log 61). -/
def execMoveRun (c : CtxId) (m : AxisId) (gd ga : Reg) (s : State) : Host.Outcome State Fault Refusal :=
  act (fun P d =>
    if gd = 0 then d.devInsn P c fun d => d.moveAxis m (.vel ((d.ctx[c]).rd ga).toInt)
    else d.issue P c fun d => d.violate P c 1 (fmtA 0x32 gd ga 0 (BitVec.ofNat 14 (4 + m.val)))) s

/-- MSTOP (04 R112, 08 R190). -/
def execMstop (c : CtxId) (m : AxisId) (s : State) : Host.Outcome State Fault Refusal := act (fun P d => d.devInsn P c fun d => d.mstopAxis m) s

/-- SEAM FREEZE (04 R112, 02 R49). -/
def execSeamFreeze (c : CtxId) (s : State) : Host.Outcome State Fault Refusal := act (fun P d => d.devInsn P c fun d => d.seamFreeze P) s

/-- SEAM RESUME (04 R112, 02 R55). -/
def execSeamResume (c : CtxId) (s : State) : Host.Outcome State Fault Refusal := act (fun P d => d.devInsn P c fun d => d.seamResume) s

/-- SEAM RESET (04 R112, 07 R170). -/
def execSeamReset (c : CtxId) (s : State) : Host.Outcome State Fault Refusal :=
  act (fun P d => d.devInsn P c fun d => (true, d.loadOffsets P 0 0)) s

/-- CAPS (00 R2, 04 R112). -/
def execCaps (c : CtxId) (gd : Reg) (s : State) : Host.Outcome State Fault Refusal :=
  act (fun P d => d.issue P c fun d => d.updCtx c fun x => { x.wr gd P.caps with abs := false, pc := x.pc + 4 }) s

/-- CRED GRANT (04 R112, 02 R41, R44). -/
def execCredGrant (c : CtxId) (ga gb : Reg) (s : State) : Host.Outcome State Fault Refusal :=
  act (fun P d => d.credInsn P c ga (fmtA 0x3A 0 ga gb 0) fun n d =>
    (d.grant n ((d.ctx[c]).rd gb).toNat).2.devDone c (d.grant n ((d.ctx[c]).rd gb).toNat).1) s

/-- CRED CLOSE (04 R112, 02 R43, R44). -/
def execCredClose (c : CtxId) (ga : Reg) (s : State) : Host.Outcome State Fault Refusal :=
  act (fun P d => d.credInsn P c ga (fmtA 0x3A 0 ga 0 1) fun n d => (d.closeStream n).2.devDone c (d.closeStream n).1) s

/-- CRED OPEN (04 R112, 02 R43, R44). -/
def execCredOpen (c : CtxId) (ga : Reg) (s : State) : Host.Outcome State Fault Refusal :=
  act (fun P d => d.credInsn P c ga (fmtA 0x3A 0 ga 0 2) fun n d => (d.openStream n).2.devDone c (d.openStream n).1) s

/-- CRED READ (04 R112, 02 R44). -/
def execCredRead (c : CtxId) (gd ga : Reg) (s : State) : Host.Outcome State Fault Refusal :=
  act (fun P d => d.credInsn P c ga (fmtA 0x3A gd ga 0 3) fun n d =>
    (d.updCtx c fun x => x.wr gd (d.hng.streams[n]).avail).devDone c (d.hng.streams[n]).opened) s

/-- XFER (04 R112, 09 R205). -/
def execXfer (c : CtxId) (ch : DmaId) (ga : Reg) (s : State) : Host.Outcome State Fault Refusal :=
  act (fun P d => d.unitInsn P c (dmaPresent P ch) fun d => d.dmaXfer P ch ((d.ctx[c]).rd ga)) s

/-- DRING (04 R112, 09 R216). -/
def execDring (c : CtxId) (ch : DmaId) (s : State) : Host.Outcome State Fault Refusal :=
  act (fun P d => d.unitInsn P c (dmaPresent P ch) fun d => (true, d.dmaRing ch)) s

/-- An HKREQ: it is not issuable while the crossing to CK_HK is full (01 R25, 04 R97), and on a part without the front end it is a no-op. -/
def Dev.hkreq (P : Part) (d : Dev) (c : CtxId) (f : Dev → Bool × Dev) : Dev :=
  d.when (decide (P.hkin = 0) || d.crossRoom 4) fun d => d.unitInsn P c (decide (P.hkin ≠ 0)) f

/-- HKREQ SEQ (04 R112, 11 R256). -/
def execHkreqSeq (c : CtxId) (s : State) : Host.Outcome State Fault Refusal :=
  act (fun P d => d.hkreq P c fun d => if d.hkStart.1 then (d.cross 4).hkStart else d.hkStart) s

/-- HKREQ URGENT (04 R112, R113, 11 R261): the request itself stands in the crossing until it arrives. -/
def execHkreqUrgent (c : CtxId) (u : Fin 2) (e : HkEnt) (s : State) : Host.Outcome State Fault Refusal :=
  act (fun P d => d.hkreq P c fun d => d.hkUrgent u e) s

/-- HKREQ STOP (04 R112, 11 R256). -/
def execHkreqStop (c : CtxId) (s : State) : Host.Outcome State Fault Refusal :=
  act (fun P d => d.hkreq P c fun d => (true, (d.cross 4).hkStop)) s

/-- The effect of HKRD (04 R112, 11 R260): Z tells VALID and FRESH of the word read. -/
def Dev.hkrdBody (c : CtxId) (gd : Reg) (e : HkEnt) (peek : Bool) (d : Dev) : Dev :=
  let r := d.hkRead (.ctx c) e peek
  (r.2.updCtx c fun x => x.wr gd r.1).devDone c (bit r.1 31 && bit r.1 30)

/-- HKRD (04 R110, R112, 11 R260). -/
def execHkrd (c : CtxId) (gd : Reg) (e : HkEnt) (peek : Bool) (s : State) : Host.Outcome State Fault Refusal :=
  act (fun P d => d.issue P c (if P.hkin = 0 then Dev.absentBody c gd else Dev.hkrdBody c gd e peek)) s

/-- The effect of KEY (04 R112, R113, 12 R283). -/
def Dev.keyBody (P : Part) (c : CtxId) (k : Fin 8) (d : Dev) : Dev :=
  match d.keySend c k with
  | some r => r.2.devDone c r.1
  | none => d.violate P c 7 (fmtA 0x38 0 0 0 (BitVec.ofNat 14 k.val))

/-- KEY (04 R97, R112, R113): it is not issuable while the crossing to the WDT-B clock is full (01 R25). -/
def execKey (c : CtxId) (k : Fin 8) (s : State) : Host.Outcome State Fault Refusal :=
  act (fun P d => d.when (d.crossRoom 6) fun d => d.issue P c (Dev.keyBody P c k)) s

end Sys2Proof.Machine
end

