-- ==== Sys2Proof/Machine/DmaSteps.lean ====
section
/-!
DEFINITION. Meanings of the steps of the DMA engine (09 R205-R219, 10 R240).
-/
namespace Sys2Proof.Machine

/-- DMA_GO (09 R205): a write of DMA_CHn_CTL with GO = 1. -/
def execDmaGo (m : Master) (ch : DmaId) (v : Word) (s : State) : Host.Outcome State Fault Refusal :=
  regWrite m (dmaOff ch 0) (putBit v 0 true) s

/-- GO_CLEAR (09 R213): a write of DMA_CHn_CTL with GO = 0. -/
def execGoClear (m : Master) (ch : DmaId) (v : Word) (s : State) : Host.Outcome State Fault Refusal :=
  regWrite m (dmaOff ch 0) (putBit v 0 false) s

/-- DMA_HEAD_WRITE (09 R205). -/
def execDmaHeadWrite (m : Master) (ch : DmaId) (v : Word) (s : State) : Host.Outcome State Fault Refusal := regWrite m (dmaOff ch 0x14) v s

/-- DMA_DRING_WRITE (09 R216). -/
def execDmaDringWrite (m : Master) (ch : DmaId) (v : Word) (s : State) : Host.Outcome State Fault Refusal := regWrite m (dmaOff ch 0x28) v s

/-- DMA_ABORT (09 R217). -/
def execDmaAbort (m : Master) (ch : DmaId) (s : State) : Host.Outcome State Fault Refusal := regWrite m (dmaOff ch 0x2C) 1 s

/-- DMA_LINE_BIND (09 R212). -/
def execDmaLineBind (ch : DmaId) (s : State) : Host.Outcome State Fault Refusal := coreStep (fun P d => d.lineBind P ch) s

/-- DESCRIPTOR_FETCH (09 R207). -/
def execDescriptorFetch (ch : DmaId) (s : State) : Host.Outcome State Fault Refusal := coreStep (fun P d => d.descriptorFetch P ch) s

/-- DESCRIPTOR_COMPLETE (09 R207). -/
def execDescriptorComplete (ch : DmaId) (s : State) : Host.Outcome State Fault Refusal := coreStep (fun P d => d.descriptorComplete P ch) s

/-- TAIL_WAIT_EXPIRY (09 R215). -/
def execTailWaitExpiry (ch : DmaId) (s : State) : Host.Outcome State Fault Refusal := coreStep (fun _ d => d.tailExpiry ch) s

/-- TAIL_REREAD (09 R215). -/
def execTailReread (ch : DmaId) (s : State) : Host.Outcome State Fault Refusal := coreStep (fun P d => d.tailReread P ch) s

/-- EGRESS_BEAT_ACCEPT (10 R240). -/
def execEgressBeatAccept (ch : DmaId) (s : State) : Host.Outcome State Fault Refusal := coreStep (fun P d => d.egressBeat P ch) s

end Sys2Proof.Machine
end

