-- ==== Sys2Proof/Machine/EventSteps.lean ====
section
/-!
DEFINITION. Meanings of the steps of the event fabric (05 R116-R134).
-/
namespace Sys2Proof.Machine

/-- EVENT_RECORD_ISSUE (05 R118, R121, R122). -/
def execEventRecordIssue (s : State) : Host.Outcome State Fault Refusal := coreStep (fun P d => d.recordIssue P) s

/-- WAKE_PORT_SERVE (05 R128). -/
def execWakePortServe (q : Fin 2) (s : State) : Host.Outcome State Fault Refusal := coreStep (fun P d => d.wakeServe P q) s

/-- EVENT_MESSAGE_SEND (05 R123). -/
def execEventMessageSend (s : State) : Host.Outcome State Fault Refusal := coreStep (fun _ d => d.eventMessage) s

/-- EVT_INTPEND_CLEAR (05 R124). -/
def execEvtIntpendClear (m : Master) (hi : Bool) (v : Word) (s : State) : Host.Outcome State Fault Refusal :=
  regWrite m (if hi then 0x20014 else 0x20010) v s

/-- EVT_SWRAISE (05 R132). -/
def execEvtSwraise (m : Master) (n : Fin 4) (v : Word) (s : State) : Host.Outcome State Fault Refusal := regWrite m (0x20020 + 4 * n.val) v s

/-- EVT_CTL_WRITE (05 R123). -/
def execEvtCtlWrite (m : Master) (v : Word) (s : State) : Host.Outcome State Fault Refusal := regWrite m 0x20000 v s

/-- EVT_TMR_ENABLE (05 R131): a write of EVT_TMRk_CTL with EN = 1. -/
def execEvtTmrEnable (m : Master) (k : Fin 4) (v : Word) (s : State) : Host.Outcome State Fault Refusal :=
  regWrite m (tmrOff k) (putBit v 0 true) s

/-- TIMER_EXPIRY (05 R131). -/
def execTimerExpiry (k : Fin 4) (s : State) : Host.Outcome State Fault Refusal := coreStep (fun _ d => d.timerExpiry k) s

/-- GPI_EDGE (05 R116, 14 R326): before the fast clocks have locked only the level changes. -/
def execGpiEdge (n : Fin 8) (level : Bool) (s : State) : Host.Outcome State Fault Refusal :=
  act (fun P d =>
    if d.up then d.gpiEdge P n level
    else { d with pins := { d.pins with gpi := if level then d.pins.gpi ||| (1#8 <<< n.val) else d.pins.gpi &&& ~~~(1#8 <<< n.val) } }) s

end Sys2Proof.Machine
end

