-- ==== Sys2Proof/Machine/HkSteps.lean ====
section
/-!
DEFINITION. Meanings of the steps of the housekeeping front end (11 R251-R275).
-/
namespace Sys2Proof.Machine

/-- A step of the front end, which a part without measurement channels lacks (00 R6). -/
def hkStep (f : Part → Dev → Dev) (s : State) : Host.Outcome State Fault Refusal := upStep (fun P d => d.when (P.hkin != 0) (f P)) s

/-- HK_CMD_START (11 R256). -/
def execHkCmdStart (m : Master) (s : State) : Host.Outcome State Fault Refusal := regWrite m 0xA0004 1 s

/-- HK_CMD_STOP (11 R256). -/
def execHkCmdStop (m : Master) (s : State) : Host.Outcome State Fault Refusal := regWrite m 0xA0004 2 s

/-- CLRDROP (11 R275). -/
def execClrdrop (m : Master) (s : State) : Host.Outcome State Fault Refusal := regWrite m 0xA0004 4 s

/-- URGENT_REQUEST_ARRIVAL (11 R262). -/
def execUrgentRequestArrival (s : State) : Host.Outcome State Fault Refusal := coreStep (fun P d => d.when (P.hkin != 0) Dev.urgentArrival) s

/-- REF_SETTLED (11 R254). -/
def execRefSettled (s : State) : Host.Outcome State Fault Refusal := hkStep (fun _ d => d.hkRefSettled) s

/-- INTEGRATION_START (11 R254). -/
def execIntegrationStart (s : State) : Host.Outcome State Fault Refusal := hkStep (fun _ d => d.integrationStart) s

/-- REF_UNSETTLED (11 R254). -/
def execRefUnsettled (s : State) : Host.Outcome State Fault Refusal := hkStep (fun _ d => d.hkRefUnsettled) s

/-- INTEGRATION_END (11 R251). -/
def execIntegrationEnd (x : HkMeas) (s : State) : Host.Outcome State Fault Refusal := hkStep (fun _ d => d.integrationEnd x) s

/-- RESULT_PUBLISH (11 R259, 14 R326). -/
def execResultPublish (s : State) : Host.Outcome State Fault Refusal := hkStep (fun P d => d.publishWake P) s

/-- HK_PERIOD_EXPIRY (11 R257). -/
def execHkPeriodExpiry (s : State) : Host.Outcome State Fault Refusal := hkStep (fun _ d => d.hkPeriod) s

/-- HK_RES_READ (11 R260). -/
def execHkResRead (m : Master) (e : HkEnt) (s : State) : Host.Outcome State Fault Refusal := regRead m (0xA0100 + 4 * e.val) s

/-- HK_PEEK_READ (11 R260). -/
def execHkPeekRead (m : Master) (e : HkEnt) (s : State) : Host.Outcome State Fault Refusal := regRead m (0xA0140 + 4 * e.val) s

/-- HK_ENT_CFG_WRITE (11 R272). -/
def execHkEntCfgWrite (m : Master) (e : HkEnt) (v : Word) (s : State) : Host.Outcome State Fault Refusal :=
  regWrite m (0xA0200 + 16 * e.val) v s

end Sys2Proof.Machine
end

