-- ==== Sys2Proof/Machine/LineSteps.lean ====
section
/-!
DEFINITION. Meanings of the steps of the Hinge, the planners and encoders, the sensor ports, the LEDs, the pixel pipeline and the line store (02, 06, 07, 08, 09).
-/
namespace Sys2Proof.Machine

/-- A step of a sensor port that the part has (00 R6). -/
def portStep (p : PortId) (f : Part → Dev → Dev) (s : State) : Host.Outcome State Fault Refusal := coreStep (fun P d => d.when (portPresent P p) (f P)) s

/-- LINE_FIRE (02 R33). -/
def execLineFire (s : State) : Host.Outcome State Fault Refusal := coreStep (fun P d => d.lineFire P) s

/-- OVERLAP_CAPTURE_FIRE (02 R57). -/
def execOverlapCaptureFire (s : State) : Host.Outcome State Fault Refusal := coreStep (fun P d => d.overlapFire P) s

/-- GUARD_CAPTURE_FIRE (02 R57). -/
def execGuardCaptureFire (s : State) : Host.Outcome State Fault Refusal := coreStep (fun P d => d.guardFire P) s

/-- STORE_FULL (09 R200). -/
def execStoreFull (s : State) : Host.Outcome State Fault Refusal := coreStep (fun _ d => d.storeFull) s

/-- PLANNER_INTERVAL (08 R185). -/
def execPlannerInterval (s : State) : Host.Outcome State Fault Refusal := coreStep (fun P d => d.plannerInterval P) s

/-- STEP_EMIT (08 R179). -/
def execStepEmit (a : AxisId) (s : State) : Host.Outcome State Fault Refusal := coreStep (fun _ d => d.stepEmit a) s

/-- HOLD_CURRENT (08 R180). -/
def execHoldCurrent (a : AxisId) (s : State) : Host.Outcome State Fault Refusal := coreStep (fun _ d => d.holdCurrent a) s

/-- ENCODER_COUNT (08 R182). -/
def execEncoderCount (a : AxisId) (la lb : Bool) (s : State) : Host.Outcome State Fault Refusal := coreStep (fun _ d => d.encoderCount a la lb) s

/-- ENCODER_INDEX (08 R184). -/
def execEncoderIndex (a : AxisId) (s : State) : Host.Outcome State Fault Refusal := upStep (fun _ d => d.encIndex a) s

/-- AXIS_DISABLE (08 R192): a write of MOT_Mm_CTL with EN = 0. -/
def execAxisDisable (m : Master) (a : AxisId) (v : Word) (s : State) : Host.Outcome State Fault Refusal :=
  regWrite m (motOff a 0) (putBit v 0 false) s

/-- STALL_CLEAR (08 R195). -/
def execStallClear (m : Master) (a : AxisId) (s : State) : Host.Outcome State Fault Refusal := regWrite m (motOff a 8) 1 s

/-- SYNC (08 R195). -/
def execSync (m : Master) (a : AxisId) (s : State) : Host.Outcome State Fault Refusal := regWrite m (motOff a 0x5C) 1 s

/-- SETPOS (08 R195). -/
def execSetpos (m : Master) (a : AxisId) (s : State) : Host.Outcome State Fault Refusal := regWrite m (motOff a 0x5C) 2 s

/-- PERIOD_START (06 R139). -/
def execPeriodStart (p : PortId) (s : State) : Host.Outcome State Fault Refusal := portStep p (fun _ d => d.periodStart p) s

/-- PERIOD_END (06 R140). -/
def execPeriodEnd (p : PortId) (s : State) : Host.Outcome State Fault Refusal := portStep p (fun P d => d.periodEnd P p) s

/-- PERIOD_TIMEOUT (06 R150). -/
def execPeriodTimeout (p : PortId) (s : State) : Host.Outcome State Fault Refusal := portStep p (fun P d => d.periodTimeout P p) s

/-- PERIOD_TRIGGER (06 R146). -/
def execPeriodTrigger (s : State) : Host.Outcome State Fault Refusal := coreStep (fun _ d => d.periodTrigger) s

/-- PORT_ENABLE (06 R147): a write of PORTn_CTL with EN = 1. -/
def execPortEnable (m : Master) (p : PortId) (v : Word) (s : State) : Host.Outcome State Fault Refusal :=
  regWrite m (portOff p 0) (putBit v 0 true) s

/-- PORT_DISABLE (06 R148): a write of PORTn_CTL with EN = 0. -/
def execPortDisable (m : Master) (p : PortId) (v : Word) (s : State) : Host.Outcome State Fault Refusal :=
  regWrite m (portOff p 0) (putBit v 0 false) s

/-- PLLP_LOCK (06 R138). -/
def execPllpLock (p : PortId) (s : State) : Host.Outcome State Fault Refusal := portStep p (fun _ d => d.pllpLock p) s

/-- SENSOR_CLOCK_LANE (06 R138). -/
def execSensorClockLane (p : PortId) (present : Bool) (s : State) : Host.Outcome State Fault Refusal :=
  upStep (fun P d => if portPresent P p then d.clockLane p present else d) s

/-- PORT_EDGE_WRITE (06 R141). -/
def execPortEdgeWrite (m : Master) (p : PortId) (b : Fin 2) (i : Fin 64) (v : Word) (s : State) : Host.Outcome State Fault Refusal :=
  regWrite m (portOff p (0x400 + 0x100 * b.val + 4 * i.val)) v s

/-- LED_PULSE_START (06 R151). -/
def execLedPulseStart (k : Fin 4) (s : State) : Host.Outcome State Fault Refusal := coreStep (fun _ d => d.ledPulseStart k) s

/-- LED_SAMPLE (06 R152). -/
def execLedSample (k : Fin 4) (isns : BitVec 10) (dsns : Nat) (s : State) : Host.Outcome State Fault Refusal :=
  coreStep (fun _ d => d.ledSample k isns dsns) s

/-- LED_PULSE_END (06 R152): a pulse that is on ends. -/
def execLedPulseEnd (k : Fin 4) (s : State) : Host.Outcome State Fault Refusal :=
  coreStep (fun _ d => d.ledPulseEnd k) s

/-- PIPELINE_PIXELS (07 R156). -/
def execPipelinePixels (p : PortId) (vids : List Vid) (take : Nat) (s : State) : Host.Outcome State Fault Refusal :=
  coreStep (fun P d => d.pipelinePixels P p vids take) s

/-- LINE_STORE_COMPLETE (09 R201). -/
def execLineStoreComplete (n : Fin 256) (s : State) : Host.Outcome State Fault Refusal := coreStep (fun P d => d.lineStoreComplete P n) s

/-- CORRELATION_DONE (07 R173). -/
def execCorrelationDone (s : State) : Host.Outcome State Fault Refusal := coreStep (fun P d => d.correlationDone P fun d age => d.grantable P .ls age .corr) s

/-- GEOMETRY_APPLY (09 R401). -/
def execGeometryApply (s : State) : Host.Outcome State Fault Refusal := coreStep (fun _ d => d.geometryApply) s

/-- LS_RELEASE (09 R203). -/
def execLsRelease (m : Master) (v : Word) (s : State) : Host.Outcome State Fault Refusal := regWrite m 0x70024 v s

/-- LS_LOWTH_WRITE (09 R204). -/
def execLsLowthWrite (m : Master) (v : Word) (s : State) : Host.Outcome State Fault Refusal := regWrite m 0x7001C v s

/-- HNG_STR_CFG_WRITE (02 R43). -/
def execHngStrCfgWrite (m : Master) (n : Fin 64) (v : Word) (s : State) : Host.Outcome State Fault Refusal :=
  regWrite m (0x50400 + 16 * n.val) v s

end Sys2Proof.Machine
end

