-- ==== Sys2Proof/Machine/LinkSteps.lean ====
section
/-!
DEFINITION. Meanings of the steps of the Kentas links and their framer (10 R221-R250).
-/
namespace Sys2Proof.Machine

/-- A step of a lane that the part has (00 R6, 10 R250). -/
def laneStep (n : LaneId) (f : Part → Dev → Dev) (s : State) : Host.Outcome State Fault Refusal := coreStep (fun P d => d.when (lanePresent P n) (f P)) s

/-- FRAME_SEND (10 R241). -/
def execFrameSend (k : LinkId) (s : State) : Host.Outcome State Fault Refusal := coreStep (fun _ d => d.frameSend k) s

/-- FRAME_RECEIVE (10 R236). -/
def execFrameReceive (k : LinkId) (f : RxFrame) (s : State) : Host.Outcome State Fault Refusal := coreStep (fun P d => d.frameReceive P k f) s

/-- CREDIT_BLOCK_SEND (10 R239). -/
def execCreditBlockSend (n : LaneId) (s : State) : Host.Outcome State Fault Refusal := laneStep n (fun _ d => d.creditSend n) s

/-- CREDIT_BLOCK_RECEIVE (10 R238). -/
def execCreditBlockReceive (n : LaneId) (b : Block) (s : State) : Host.Outcome State Fault Refusal := laneStep n (fun _ d => d.creditReceive n b) s

/-- ALIGN_SEND (10 R226). -/
def execAlignSend (k : LinkId) (s : State) : Host.Outcome State Fault Refusal := coreStep (fun P d => d.alignSend P k) s

/-- ALIGN_RECEIVE (10 R226). -/
def execAlignReceive (n : LaneId) (b : Block) (s : State) : Host.Outcome State Fault Refusal := laneStep n (fun _ d => d.alignReceive n b) s

/-- BLOCK_LOCK_GAIN (10 R224). -/
def execBlockLockGain (n : LaneId) (s : State) : Host.Outcome State Fault Refusal := laneStep n (fun _ d => d.lockGain n) s

/-- BLOCK_LOCK_LOSS (10 R224). -/
def execBlockLockLoss (n : LaneId) (s : State) : Host.Outcome State Fault Refusal := laneStep n (fun P d => d.lockLoss P n) s

/-- PLLL_LOCK (10 R229). -/
def execPlllLock (s : State) : Host.Outcome State Fault Refusal := coreStep (fun P d => d.plllLock P) s

/-- DETECT_STEP (10 R229). -/
def execDetectStep (k : LinkId) (s : State) : Host.Outcome State Fault Refusal := coreStep (fun _ d => d.detectStep k) s

/-- PARTNER_DETECTED (10 R229). -/
def execPartnerDetected (k : LinkId) (s : State) : Host.Outcome State Fault Refusal := coreStep (fun P d => d.partnerDetected P k) s

/-- TRAIN_BLOCK_RECEIVE (10 R227). -/
def execTrainBlockReceive (n : LaneId) (b : Block) (s : State) : Host.Outcome State Fault Refusal := laneStep n (fun _ d => d.trainBlock n b) s

/-- LANE_ADAPTED (10 R227). -/
def execLaneAdapted (n : LaneId) (s : State) : Host.Outcome State Fault Refusal := laneStep n (fun _ d => d.laneAdapted n) s

/-- TRAIN_1MS_REACHED (10 R229). -/
def execTrain1msReached (k : LinkId) (s : State) : Host.Outcome State Fault Refusal := coreStep (fun P d => d.train1ms P k) s

/-- TRAIN_TIMEOUT (10 R228). -/
def execTrainTimeout (k : LinkId) (s : State) : Host.Outcome State Fault Refusal := coreStep (fun P d => d.trainTimeout P k) s

/-- LOCK_TIMEOUT (10 R229). -/
def execLockTimeout (k : LinkId) (s : State) : Host.Outcome State Fault Refusal := coreStep (fun P d => d.lockTimeout P k) s

/-- VALID_IDLE_BLOCKS (10 R229). -/
def execValidIdleBlocks (k : LinkId) (hl1 : Bool) (s : State) : Host.Outcome State Fault Refusal := coreStep (fun P d => d.validIdle P k hl1) s

/-- CAP_SEQUENCE_RECEIVE (10 R231). -/
def execCapSequenceReceive (k : LinkId) (ws : List Word) (crc : Word) (last : Byte) (s : State) : Host.Outcome State Fault Refusal :=
  coreStep (fun P d => d.capReceive P k ws crc last) s

/-- EXCHANGE_TIMEOUT (10 R229). -/
def execExchangeTimeout (k : LinkId) (s : State) : Host.Outcome State Fault Refusal := coreStep (fun P d => d.exchangeTimeout P k) s

/-- SQUELCH_CLOSE (10 R229). -/
def execSquelchClose (n : LaneId) (s : State) : Host.Outcome State Fault Refusal := laneStep n (fun P d => d.squelchClose P n) s

/-- SQUELCH_OPEN (10 R247, 14 R326). -/
def execSquelchOpen (n : LaneId) (s : State) : Host.Outcome State Fault Refusal := upStep (fun P d => d.when (lanePresent P n) fun d => d.squelch P n) s

/-- DEEP_REQ (10 R246). -/
def execDeepReq (n : LaneId) (b : Block) (s : State) : Host.Outcome State Fault Refusal := laneStep n (fun P d => d.deepReqRx P n b) s

/-- DEEP_ACK (10 R246). -/
def execDeepAck (n : LaneId) (b : Block) (s : State) : Host.Outcome State Fault Refusal := laneStep n (fun P d => d.deepAckRx P n b) s

/-- DEEP_NAK (10 R246, 14 R324). -/
def execDeepNak (n : LaneId) (b : Block) (s : State) : Host.Outcome State Fault Refusal := laneStep n (fun P d => d.nakWake P n b) s

/-- WAKE_BLOCK_RECEIVE (10 R247). -/
def execWakeBlockReceive (n : LaneId) (b : Block) (s : State) : Host.Outcome State Fault Refusal := laneStep n (fun _ d => d.wakeBlock n b) s

/-- DEEP_EXIT_TIMEOUT (10 R229). -/
def execDeepExitTimeout (k : LinkId) (s : State) : Host.Outcome State Fault Refusal := coreStep (fun P d => d.deepExitTimeout P k) s

/-- MEASURE_REQUEST_RECEIVE (10 R245). -/
def execMeasureRequestReceive (n : LaneId) (b : Block) (s : State) : Host.Outcome State Fault Refusal := laneStep n (fun P d => d.measureRx P n b) s

/-- MEASURE_END (10 R245). -/
def execMeasureEnd (k : LinkId) (s : State) : Host.Outcome State Fault Refusal := coreStep (fun _ d => d.measureEnd k) s

/-- Offset of a register of link k. -/
def linkOff (k : LinkId) (o : Nat) : Nat := 0x90100 + 0x100 * k.val + o

/-- KL_LINK_EN_WRITE (10 R229). -/
def execKlLinkEnWrite (m : Master) (k : LinkId) (v : Word) (s : State) : Host.Outcome State Fault Refusal := regWrite m (linkOff k 0) v s

/-- RESTART (10 R229). -/
def execRestart (m : Master) (k : LinkId) (s : State) : Host.Outcome State Fault Refusal := regWrite m (linkOff k 4) 1 s

/-- DEEP (10 R246). -/
def execDeep (m : Master) (k : LinkId) (s : State) : Host.Outcome State Fault Refusal := regWrite m (linkOff k 4) 2 s

/-- WAKE (10 R247). -/
def execWake (m : Master) (k : LinkId) (s : State) : Host.Outcome State Fault Refusal := regWrite m (linkOff k 4) 4 s

/-- DISABLE (10 R229). -/
def execDisable (m : Master) (k : LinkId) (s : State) : Host.Outcome State Fault Refusal := regWrite m (linkOff k 4) 8 s

/-- CLRCNT (10 R244). -/
def execClrcnt (m : Master) (k : LinkId) (s : State) : Host.Outcome State Fault Refusal := regWrite m (linkOff k 4) 16 s

/-- MEASURE_START (10 R245). -/
def execMeasureStart (m : Master) (k : LinkId) (n : Byte) (s : State) : Host.Outcome State Fault Refusal :=
  regWrite m (linkOff k 0x2C) (n.setWidth 32) s

end Sys2Proof.Machine
end

