-- ==== Sys2Proof/Machine/MemoryGroup.lean ====
section
/-!
DEFINITION. Meanings of the memory instructions (04 R99-R101, 03 R75, R85-R88).
-/
namespace Sys2Proof.Machine

/-- LDW (04 R99). -/
def execLdw (c : CtxId) (gd ga : Reg) (imm : Imm18) (s : State) : Host.Outcome State Fault Refusal :=
  act (fun P d => d.load P c gd ga imm 4 (fmtI 0x10 gd ga imm)) s

/-- LDH (04 R99). -/
def execLdh (c : CtxId) (gd ga : Reg) (imm : Imm18) (s : State) : Host.Outcome State Fault Refusal :=
  act (fun P d => d.load P c gd ga imm 2 (fmtI 0x11 gd ga imm)) s

/-- LDB (04 R99). -/
def execLdb (c : CtxId) (gd ga : Reg) (imm : Imm18) (s : State) : Host.Outcome State Fault Refusal :=
  act (fun P d => d.load P c gd ga imm 1 (fmtI 0x12 gd ga imm)) s

/-- STW (04 R99). -/
def execStw (c : CtxId) (gd ga : Reg) (imm : Imm18) (s : State) : Host.Outcome State Fault Refusal :=
  act (fun P d => d.storeInsn P c gd ga imm 4 (fmtI 0x13 gd ga imm)) s

/-- STH (04 R99). -/
def execSth (c : CtxId) (gd ga : Reg) (imm : Imm18) (s : State) : Host.Outcome State Fault Refusal :=
  act (fun P d => d.storeInsn P c gd ga imm 2 (fmtI 0x14 gd ga imm)) s

/-- STB (04 R99). -/
def execStb (c : CtxId) (gd ga : Reg) (imm : Imm18) (s : State) : Host.Outcome State Fault Refusal :=
  act (fun P d => d.storeInsn P c gd ga imm 1 (fmtI 0x15 gd ga imm)) s

/-- SWAP (04 R100): the word takes gb, gd the old word. -/
def execSwap (c : CtxId) (gd ga gb : Reg) (imm : Imm14) (s : State) : Host.Outcome State Fault Refusal :=
  act (fun P d => d.atomic P c gd ga imm (fmtA 0x16 gd ga gb imm) (swapRule ((d.ctx[c]).rd gb))) s

/-- CAS (04 R100): the word takes gb when it equals gd; gd takes the old word. -/
def execCas (c : CtxId) (gd ga gb : Reg) (imm : Imm14) (s : State) : Host.Outcome State Fault Refusal :=
  act (fun P d => d.atomic P c gd ga imm (fmtA 0x17 gd ga gb imm) (casRule ((d.ctx[c]).rd gd) ((d.ctx[c]).rd gb))) s

/-- FENCE.SL (03 R87, 04 R101). -/
def execFenceSl (c : CtxId) (s : State) : Host.Outcome State Fault Refusal := act (fun P d => d.fence P c (fmtA 0x18 0 0 0 1)) s

/-- FENCE.ALL (03 R87, 04 R101). -/
def execFenceAll (c : CtxId) (s : State) : Host.Outcome State Fault Refusal := act (fun P d => d.fence P c (fmtA 0x18 0 0 0 2)) s

end Sys2Proof.Machine
end

