-- ==== Sys2Proof/Machine/MgmtSteps.lean ====
section
/-!
DEFINITION. Meanings of the management messages, SPI transactions, debug steps and the MMIO writes of the SYS and CTX blocks (16 R363-R375, 03 R71, R82-R84, 01 R18, R25, 17 R393).
-/
namespace Sys2Proof.Machine

/-- MREAD (16 R370). -/
def execMread (k : LinkId) (tag : Word) (body : List Word) (s : State) : Host.Outcome State Fault Refusal := act (fun P d => d.mread P k tag body) s

/-- MWRITE (16 R370). -/
def execMwrite (k : LinkId) (tag : Word) (body : List Word) (s : State) : Host.Outcome State Fault Refusal := act (fun P d => d.mwrite P k tag body) s

/-- CREDIT (16 R370): its TAG, which no answer returns, is that of the message in front. -/
def execCredit (k : LinkId) (body : List Word) (s : State) : Host.Outcome State Fault Refusal :=
  act (fun P d => d.creditMsg P k ((d.kl.inbox.head?.map fun x => x.tag).getD 0) body) s

/-- CAPS_MESSAGE (16 R370). -/
def execCapsMessage (k : LinkId) (tag : Word) (s : State) : Host.Outcome State Fault Refusal := act (fun P d => d.capsMsg P k tag) s

/-- PING (16 R370). -/
def execPing (k : LinkId) (tag : Word) (body : List Word) (s : State) : Host.Outcome State Fault Refusal := act (fun P d => d.pingMsg P k tag body) s

/-- SPI_READ (16 R374). -/
def execSpiRead (addr : Word) (crc : Byte) (s : State) : Host.Outcome State Fault Refusal := act (fun P d => d.spiRead P addr crc) s

/-- SPI_WRITE (16 R374). -/
def execSpiWrite (addr data : Word) (crc : Byte) (s : State) : Host.Outcome State Fault Refusal := act (fun P d => d.spiWrite P addr data crc) s

/-- SPI_UNKNOWN_COMMAND (16 R374). -/
def execSpiUnknownCommand (cmd : Byte) (body : List Byte) (crc : Byte) (s : State) : Host.Outcome State Fault Refusal :=
  act (fun _ d => d.spiUnknown cmd body crc) s

/-- SPI_CS_RISE (16 R375). -/
def execSpiCsRise (s : State) : Host.Outcome State Fault Refusal := act (fun _ d => d.spiCsRise) s

/-- DEBUG_ACCESS_REQUEST (01 R25). -/
def execDebugAccessRequest (write : Bool) (addr data : Word) (s : State) : Host.Outcome State Fault Refusal :=
  act (fun P d => d.debugAccess P write addr data) s

/-- TAP_INSTRUCTION (17 R393). -/
def execTapInstruction (code : BitVec 4) (s : State) : Host.Outcome State Fault Refusal := act (fun P d => d.tapInstruction P code) s

/-- SYS_FR_RIDX_WRITE (16 R364). -/
def execSysFrRidxWrite (m : Master) (v : Word) (s : State) : Host.Outcome State Fault Refusal := regWrite m 0x00014 v s

/-- SYS_SEM_ACQ_READ (16 R365). -/
def execSysSemAcqRead (m : Master) (i : Fin 16) (s : State) : Host.Outcome State Fault Refusal := regRead m (0x000C0 + 4 * i.val) s

/-- CTX_THAW_WRITE (03 R82). -/
def execCtxThawWrite (m : Master) (v : Word) (s : State) : Host.Outcome State Fault Refusal := regWrite m 0x10020 v s

/-- A write of CTX_CMD with an operation and a target. -/
def ctxCmdWord (op : Nat) (n : Byte) : Word := n.setWidth 32 ||| place op 8

/-- CTX_CMD_START (03 R84). -/
def execCtxCmdStart (m : Master) (n : Byte) (s : State) : Host.Outcome State Fault Refusal := regWrite m 0x10024 (ctxCmdWord 1 n) s

/-- CTX_CMD_STOP (03 R84). -/
def execCtxCmdStop (m : Master) (n : Byte) (s : State) : Host.Outcome State Fault Refusal := regWrite m 0x10024 (ctxCmdWord 2 n) s

/-- CTX_CMD_RESET (03 R83). -/
def execCtxCmdReset (m : Master) (n : Byte) (s : State) : Host.Outcome State Fault Refusal := regWrite m 0x10024 (ctxCmdWord 3 n) s

/-- CTX_CMD_SET_U (03 R71). -/
def execCtxCmdSetU (m : Master) (n : Byte) (s : State) : Host.Outcome State Fault Refusal := regWrite m 0x10024 (ctxCmdWord 4 n) s

/-- CTX_CMD_SET_S (03 R71). -/
def execCtxCmdSetS (m : Master) (n : Byte) (s : State) : Host.Outcome State Fault Refusal := regWrite m 0x10024 (ctxCmdWord 5 n) s

/-- MMIO_WRITE (01 R18): a write at an address of the MMIO region; other addresses name no register. -/
def execMmioWrite (m : Master) (addr v : Word) (s : State) : Host.Outcome State Fault Refusal :=
  act (fun P d => d.when (regionOf P addr.toNat == .mmio) fun d => d.busWrite P m (addr.toNat - 0x8000000) v) s

end Sys2Proof.Machine
end

