-- ==== Sys2Proof/Machine/PowerSteps.lean ====
section
/-!
DEFINITION. Meanings of the steps of power, reset, boot, NVM and trace (14 R322-R353, 01 R30).
-/
namespace Sys2Proof.Machine

/-- DIE_TEMP_SAMPLE (14 R332). -/
def execDieTempSample (t : Half) (s : State) : Host.Outcome State Fault Refusal := upStep (fun _ d => d.dieTemp t) s

/-- SUPPLY_WARN (14 R332): the comparators work in every state, the latch and event 55 outside reset. -/
def execSupplyWarn (mon : Fin 4) (outside : Bool) (s : State) : Host.Outcome State Fault Refusal := act (fun _ d => d.supplyWarn mon outside) s

/-- STANDBY_DEEP_TIMEOUT (14 R324): a link has not reached DEEP, and the entry is abandoned. -/
def execStandbyDeepTimeout (s : State) : Host.Outcome State Fault Refusal :=
  act (fun P d => d.when (d.phase == .entering && !d.pwr.deepWait.isEmpty) fun d => d.abandonEntry P 8) s

/-- STANDBY_ENTRY (14 R324). -/
def execStandbyEntry (s : State) : Host.Outcome State Fault Refusal := act (fun P d => d.standbyEntry P) s

/-- WAKE_SOURCE (14 R326). -/
def execWakeSource (src : WakeSrc) (s : State) : Host.Outcome State Fault Refusal := act (fun P d => d.wakeSource P src) s

/-- PLLC_LOCK (14 R327). -/
def execPllcLock (s : State) : Host.Outcome State Fault Refusal := act (fun _ d => d.pllcLock) s

/-- STB_RELOAD (01 R30, 14 R327). -/
def execStbReload (n : Nat) (s : State) : Host.Outcome State Fault Refusal := act (fun P d => d.stbReload P n) s

/-- POWER_ON (14 R330). -/
def execPowerOn (s : State) : Host.Outcome State Fault Refusal := act (fun P d => d.resetDev P 1) s

/-- PIN (14 R330). -/
def execPin (s : State) : Host.Outcome State Fault Refusal := act (fun P d => d.resetDev P 2) s

/-- BROWNOUT (14 R330). -/
def execBrownout (s : State) : Host.Outcome State Fault Refusal := act (fun P d => d.resetDev P 8) s

/-- PWR_CMD_RESET (14 R330). -/
def execPwrCmdReset (m : Master) (s : State) : Host.Outcome State Fault Refusal := regWrite m 0xD0014 1 s

/-- RESET_RELEASE (14 R339). -/
def execResetRelease (s : State) : Host.Outcome State Fault Refusal := act (fun P d => d.resetRelease P) s

/-- BOOT_OUTCOME (14 R335). -/
def execBootOutcome (s : State) : Host.Outcome State Fault Refusal := act (fun P d => d.bootOutcome P) s

/-- PROGRAM (14 R340). -/
def execProgram (m : Master) (s : State) : Host.Outcome State Fault Refusal := regWrite m 0xE0014 1 s

/-- ERASE (14 R340). -/
def execErase (m : Master) (s : State) : Host.Outcome State Fault Refusal := regWrite m 0xE0014 2 s

/-- NVM_OPERATION_DONE (14 R340). -/
def execNvmOperationDone (s : State) : Host.Outcome State Fault Refusal := upStep (fun P d => d.nvmDone P) s

/-- NVM_WPROT_WRITE (14 R342). -/
def execNvmWprotWrite (m : Master) (v : Word) (s : State) : Host.Outcome State Fault Refusal := regWrite m 0xE001C v s

/-- TRC_ENABLE (14 R349): a write of TRC_CTL with EN = 1. -/
def execTrcEnable (m : Master) (v : Word) (s : State) : Host.Outcome State Fault Refusal := regWrite m 0xF0000 (putBit v 0 true) s

end Sys2Proof.Machine
end

