-- ==== Sys2Proof/Machine/SupervisorGroup.lean ====
section
/-!
DEFINITION. Meanings of the supervisor instructions (04 R114, R115, R400).
-/
namespace Sys2Proof.Machine

/-- CTX START (03 R84). -/
def execCtxStart (c : CtxId) (ga : Reg) (s : State) : Host.Outcome State Fault Refusal :=
  act (fun P d => d.ctxInsn P c ga 1 (fmtA 0x1C 0 ga 0 1)) s

/-- CTX STOP (03 R84). -/
def execCtxStop (c : CtxId) (ga : Reg) (s : State) : Host.Outcome State Fault Refusal :=
  act (fun P d => d.ctxInsn P c ga 2 (fmtA 0x1C 0 ga 0 2)) s

/-- CTX RESET (03 R83). -/
def execCtxReset (c : CtxId) (ga : Reg) (s : State) : Host.Outcome State Fault Refusal :=
  act (fun P d => d.ctxInsn P c ga 3 (fmtA 0x1C 0 ga 0 3)) s

/-- CTX set U (03 R71). -/
def execCtxSetU (c : CtxId) (ga : Reg) (s : State) : Host.Outcome State Fault Refusal :=
  act (fun P d => d.ctxInsn P c ga 4 (fmtA 0x1C 0 ga 0 4)) s

/-- CTX set S (03 R71). -/
def execCtxSetS (c : CtxId) (ga : Reg) (s : State) : Host.Outcome State Fault Refusal :=
  act (fun P d => d.ctxInsn P c ga 5 (fmtA 0x1C 0 ga 0 5)) s

/-- WIN (03 R74). -/
def execWin (c : CtxId) (k : Fin 4) (gd ga gb : Reg) (s : State) : Host.Outcome State Fault Refusal :=
  act (fun P d => d.supInsn P c true (fmtA 0x1D gd ga gb (BitVec.ofNat 14 k.val)) (Dev.winBody P c k gd ga gb)) s

/-- THAW (03 R82). -/
def execThaw (c : CtxId) (ga : Reg) (s : State) : Host.Outcome State Fault Refusal :=
  act (fun P d => d.supInsn P c true (fmtA 0x1E 0 ga 0 0) (Dev.thawBody P c ga)) s

/-- SYS RESET (04 R114, R400): it waits for the store buffer, then resets with cause SOFTWARE. -/
def execSysReset (c : CtxId) (s : State) : Host.Outcome State Fault Refusal :=
  act (fun P d => d.supInsn P c (d.ctx[c]).sbuf.isEmpty (fmtA 0x1F 0 0 0 1) fun d => d.resetDev P 6) s

/-- SYS STANDBY (04 R114, 14 R323). -/
def execSysStandby (c : CtxId) (s : State) : Host.Outcome State Fault Refusal :=
  act (fun P d => d.supInsn P c true (fmtA 0x1F 0 0 0 2) fun d => (d.standbyReq P).2.devDone c (d.standbyReq P).1) s

/-- SYS FUSE (04 R114, 16 R366). -/
def execSysFuse (c : CtxId) (gd ga : Reg) (s : State) : Host.Outcome State Fault Refusal :=
  act (fun P d => d.supInsn P c true (fmtA 0x1F gd ga 0 3) fun d =>
    (d.updCtx c fun x => x.wr gd (P.fuse (fld (x.rd ga) 0 6))).advance c) s

end Sys2Proof.Machine
end

