-- ==== Sys2Proof/Machine/WdtSteps.lean ====
section
/-!
DEFINITION. Meanings of the steps of the watchdogs and the clock monitor (12 R276-R294).
-/
namespace Sys2Proof.Machine

/-- WDT_A_START (12 R276). -/
def execWdtAStart (m : Master) (s : State) : Host.Outcome State Fault Refusal := regWrite m 0xB0004 1 s

/-- WDTA_WINDOW_OPEN (12 R277). -/
def execWdtaWindowOpen (s : State) : Host.Outcome State Fault Refusal := aonStep (fun P d => d.wdtaOpen P) s

/-- WDTA_EARLY (12 R278, 14 R326). -/
def execWdtaEarly (s : State) : Host.Outcome State Fault Refusal := aonStep (fun P d => d.wdtaEarlyWake P) s

/-- WDTA_EXPIRY (12 R278). -/
def execWdtaExpiry (s : State) : Host.Outcome State Fault Refusal := aonStep (fun P d => d.wdtaExpiry P) s

/-- WDT_A_SVC_WRITE (12 R279). -/
def execWdtASvcWrite (m : Master) (v : Word) (s : State) : Host.Outcome State Fault Refusal := regWrite m 0xB0008 v s

/-- WDTA_SERVICE_ARRIVAL (12 R281). -/
def execWdtaServiceArrival (s : State) : Host.Outcome State Fault Refusal := aonStep (fun P d => d.svcArrive P) s

/-- KEY_CHECKIN (12 R283). -/
def execKeyCheckin (s : State) : Host.Outcome State Fault Refusal := upStep (fun _ d => d.keyArrive) s

/-- WDTB_PERIOD_END (12 R284). -/
def execWdtbPeriodEnd (s : State) : Host.Outcome State Fault Refusal := upStep (fun _ d => d.wdtbPeriod) s

/-- WDTB_EVIDENCE_CAPTURE (12 R284). -/
def execWdtbEvidenceCapture (s : State) : Host.Outcome State Fault Refusal := upStep (fun P d => d.wdtbCapture P) s

/-- WDTB_ENABLE (12 R282): a write of WDT_B_CTL with EN = 1. -/
def execWdtbEnable (m : Master) (v : Word) (s : State) : Host.Outcome State Fault Refusal := regWrite m 0xB0100 (putBit v 0 true) s

/-- WDTB_DISABLE (12 R287): a write of WDT_B_CTL with EN = 0. -/
def execWdtbDisable (m : Master) (v : Word) (s : State) : Host.Outcome State Fault Refusal := regWrite m 0xB0100 (putBit v 0 false) s

/-- WDTB_LOCK (12 R287): a write of WDT_B_CTL with LOCK = 1. -/
def execWdtbLock (m : Master) (v : Word) (s : State) : Host.Outcome State Fault Refusal := regWrite m 0xB0100 (putBit v 4 true) s

/-- WDT_B_KEY_WRITE (12 R287). -/
def execWdtBKeyWrite (m : Master) (v : Word) (s : State) : Host.Outcome State Fault Refusal := regWrite m 0xB0108 v s

/-- DBG_WDT_HOLD (12 R293): master 83 writes WDT_DBG. -/
def execDbgWdtHold (hold : Bool) (s : State) : Host.Outcome State Fault Refusal := regWrite .debug 0xB0300 (flag hold 0) s

/-- DEBUG_SESSION (12 R293). -/
def execDebugSession (opened : Bool) (s : State) : Host.Outcome State Fault Refusal := upStep (fun P d => d.debugSession P opened) s

/-- LFXO_START (12 R288). -/
def execLfxoStart (s : State) : Host.Outcome State Fault Refusal := aonStep (fun _ d => d.lfxoStart) s

/-- LFXO_FAIL (12 R288). -/
def execLfxoFail (s : State) : Host.Outcome State Fault Refusal := aonStep (fun _ d => d.lfxoFail) s

/-- LFRC_FAIL (12 R289). -/
def execLfrcFail (s : State) : Host.Outcome State Fault Refusal := aonStep (fun P d => d.lfrcFail P) s

end Sys2Proof.Machine
end

