-- ==== Sys2Proof/Machine/Dispatch.lean ====
section
/-!
DEFINITION. Which meaning each command has: one arm per constructor of Instr.
-/
namespace Sys2Proof.Machine

def exec (i : Instr) (s : State) : Host.Outcome State Fault Refusal :=
  match i with
  | .add c gd ga gb imm => Sys2Proof.Machine.execAdd c gd ga gb imm s
  | .sub c gd ga gb imm => Sys2Proof.Machine.execSub c gd ga gb imm s
  | .and c gd ga gb imm => Sys2Proof.Machine.execAnd c gd ga gb imm s
  | .or c gd ga gb imm => Sys2Proof.Machine.execOr c gd ga gb imm s
  | .xor c gd ga gb imm => Sys2Proof.Machine.execXor c gd ga gb imm s
  | .shl c gd ga gb imm => Sys2Proof.Machine.execShl c gd ga gb imm s
  | .shr c gd ga gb imm => Sys2Proof.Machine.execShr c gd ga gb imm s
  | .sra c gd ga gb imm => Sys2Proof.Machine.execSra c gd ga gb imm s
  | .mul c gd ga gb imm => Sys2Proof.Machine.execMul c gd ga gb imm s
  | .mulh c gd ga gb imm => Sys2Proof.Machine.execMulh c gd ga gb imm s
  | .min c gd ga gb imm => Sys2Proof.Machine.execMin c gd ga gb imm s
  | .max c gd ga gb imm => Sys2Proof.Machine.execMax c gd ga gb imm s
  | .cmp c ga gb imm => Sys2Proof.Machine.execCmp c ga gb imm s
  | .addi c gd ga imm => Sys2Proof.Machine.execAddi c gd ga imm s
  | .lui c gd imm => Sys2Proof.Machine.execLui c gd imm s
  | .ldw c gd ga imm => Sys2Proof.Machine.execLdw c gd ga imm s
  | .ldh c gd ga imm => Sys2Proof.Machine.execLdh c gd ga imm s
  | .ldb c gd ga imm => Sys2Proof.Machine.execLdb c gd ga imm s
  | .stw c gd ga imm => Sys2Proof.Machine.execStw c gd ga imm s
  | .sth c gd ga imm => Sys2Proof.Machine.execSth c gd ga imm s
  | .stb c gd ga imm => Sys2Proof.Machine.execStb c gd ga imm s
  | .swap c gd ga gb imm => Sys2Proof.Machine.execSwap c gd ga gb imm s
  | .cas c gd ga gb imm => Sys2Proof.Machine.execCas c gd ga gb imm s
  | .fenceSl c => Sys2Proof.Machine.execFenceSl c s
  | .fenceAll c => Sys2Proof.Machine.execFenceAll c s
  | .beq c ga gb imm => Sys2Proof.Machine.execBeq c ga gb imm s
  | .bne c ga gb imm => Sys2Proof.Machine.execBne c ga gb imm s
  | .blt c ga gb imm => Sys2Proof.Machine.execBlt c ga gb imm s
  | .bge c ga gb imm => Sys2Proof.Machine.execBge c ga gb imm s
  | .bltu c ga gb imm => Sys2Proof.Machine.execBltu c ga gb imm s
  | .beqF c imm => Sys2Proof.Machine.execBeqF c imm s
  | .bneF c imm => Sys2Proof.Machine.execBneF c imm s
  | .bltF c imm => Sys2Proof.Machine.execBltF c imm s
  | .bgeF c imm => Sys2Proof.Machine.execBgeF c imm s
  | .bltuF c imm => Sys2Proof.Machine.execBltuF c imm s
  | .beqA c imm => Sys2Proof.Machine.execBeqA c imm s
  | .bneA c imm => Sys2Proof.Machine.execBneA c imm s
  | .jal c imm => Sys2Proof.Machine.execJal c imm s
  | .jr c gd ga imm => Sys2Proof.Machine.execJr c gd ga imm s
  | .illegalOp c w => Sys2Proof.Machine.execIllegalOp c w s
  | .wait c ga gb => Sys2Proof.Machine.execWait c ga gb s
  | .emit c n ga => Sys2Proof.Machine.execEmit c n ga s
  | .yield c => Sys2Proof.Machine.execYield c s
  | .halt c => Sys2Proof.Machine.execHalt c s
  | .ts c gd ga => Sys2Proof.Machine.execTs c gd ga s
  | .lineStart c gd ga gb => Sys2Proof.Machine.execLineStart c gd ga gb s
  | .lineStop c => Sys2Proof.Machine.execLineStop c s
  | .arm c p b => Sys2Proof.Machine.execArm c p b s
  | .moveTo c m gd ga => Sys2Proof.Machine.execMoveTo c m gd ga s
  | .moveBy c m gd ga => Sys2Proof.Machine.execMoveBy c m gd ga s
  | .moveRun c m gd ga => Sys2Proof.Machine.execMoveRun c m gd ga s
  | .mstop c m => Sys2Proof.Machine.execMstop c m s
  | .seamFreeze c => Sys2Proof.Machine.execSeamFreeze c s
  | .seamResume c => Sys2Proof.Machine.execSeamResume c s
  | .seamReset c => Sys2Proof.Machine.execSeamReset c s
  | .caps c gd => Sys2Proof.Machine.execCaps c gd s
  | .credGrant c ga gb => Sys2Proof.Machine.execCredGrant c ga gb s
  | .credClose c ga => Sys2Proof.Machine.execCredClose c ga s
  | .credOpen c ga => Sys2Proof.Machine.execCredOpen c ga s
  | .credRead c gd ga => Sys2Proof.Machine.execCredRead c gd ga s
  | .xfer c ch ga => Sys2Proof.Machine.execXfer c ch ga s
  | .dring c ch => Sys2Proof.Machine.execDring c ch s
  | .hkreqSeq c => Sys2Proof.Machine.execHkreqSeq c s
  | .hkreqUrgent c u e => Sys2Proof.Machine.execHkreqUrgent c u e s
  | .hkreqStop c => Sys2Proof.Machine.execHkreqStop c s
  | .hkrd c gd e peek => Sys2Proof.Machine.execHkrd c gd e peek s
  | .key c k => Sys2Proof.Machine.execKey c k s
  | .ctxStart c ga => Sys2Proof.Machine.execCtxStart c ga s
  | .ctxStop c ga => Sys2Proof.Machine.execCtxStop c ga s
  | .ctxReset c ga => Sys2Proof.Machine.execCtxReset c ga s
  | .ctxSetU c ga => Sys2Proof.Machine.execCtxSetU c ga s
  | .ctxSetS c ga => Sys2Proof.Machine.execCtxSetS c ga s
  | .win c k gd ga gb => Sys2Proof.Machine.execWin c k gd ga gb s
  | .thaw c ga => Sys2Proof.Machine.execThaw c ga s
  | .sysReset c => Sys2Proof.Machine.execSysReset c s
  | .sysStandby c => Sys2Proof.Machine.execSysStandby c s
  | .sysFuse c gd ga => Sys2Proof.Machine.execSysFuse c gd ga s
  | .storeBufferDrain c => Sys2Proof.Machine.execStoreBufferDrain c s
  | .loadComplete c => Sys2Proof.Machine.execLoadComplete c s
  | .frozenInflightEcc m addr => Sys2Proof.Machine.execFrozenInflightEcc m addr s
  | .burstGrant p => Sys2Proof.Machine.execBurstGrant p s
  | .eccWriteBack addr => Sys2Proof.Machine.execEccWriteBack addr s
  | .sequencerGate q => Sys2Proof.Machine.execSequencerGate q s
  | .sysStbLoRead m => Sys2Proof.Machine.execSysStbLoRead m s
  | .hngNextLoRead m => Sys2Proof.Machine.execHngNextLoRead m s
  | .hngLastLoRead m => Sys2Proof.Machine.execHngLastLoRead m s
  | .motCmdLoRead m a => Sys2Proof.Machine.execMotCmdLoRead m a s
  | .motEncLoRead m a => Sys2Proof.Machine.execMotEncLoRead m a s
  | .motSetposLoRead m a => Sys2Proof.Machine.execMotSetposLoRead m a s
  | .lsCnt0Read m => Sys2Proof.Machine.execLsCnt0Read m s
  | .eventRecordIssue => Sys2Proof.Machine.execEventRecordIssue s
  | .wakePortServe q => Sys2Proof.Machine.execWakePortServe q s
  | .eventMessageSend => Sys2Proof.Machine.execEventMessageSend s
  | .evtIntpendClear m hi v => Sys2Proof.Machine.execEvtIntpendClear m hi v s
  | .evtSwraise m n v => Sys2Proof.Machine.execEvtSwraise m n v s
  | .evtCtlWrite m v => Sys2Proof.Machine.execEvtCtlWrite m v s
  | .evtTmrEnable m k v => Sys2Proof.Machine.execEvtTmrEnable m k v s
  | .timerExpiry k => Sys2Proof.Machine.execTimerExpiry k s
  | .lineFire => Sys2Proof.Machine.execLineFire s
  | .overlapCaptureFire => Sys2Proof.Machine.execOverlapCaptureFire s
  | .guardCaptureFire => Sys2Proof.Machine.execGuardCaptureFire s
  | .storeFull => Sys2Proof.Machine.execStoreFull s
  | .plannerInterval => Sys2Proof.Machine.execPlannerInterval s
  | .stepEmit a => Sys2Proof.Machine.execStepEmit a s
  | .holdCurrent a => Sys2Proof.Machine.execHoldCurrent a s
  | .encoderCount a la lb => Sys2Proof.Machine.execEncoderCount a la lb s
  | .encoderIndex a => Sys2Proof.Machine.execEncoderIndex a s
  | .axisDisable m a v => Sys2Proof.Machine.execAxisDisable m a v s
  | .stallClear m a => Sys2Proof.Machine.execStallClear m a s
  | .sync m a => Sys2Proof.Machine.execSync m a s
  | .setpos m a => Sys2Proof.Machine.execSetpos m a s
  | .periodStart p => Sys2Proof.Machine.execPeriodStart p s
  | .periodEnd p => Sys2Proof.Machine.execPeriodEnd p s
  | .periodTimeout p => Sys2Proof.Machine.execPeriodTimeout p s
  | .periodTrigger => Sys2Proof.Machine.execPeriodTrigger s
  | .portEnable m p v => Sys2Proof.Machine.execPortEnable m p v s
  | .portDisable m p v => Sys2Proof.Machine.execPortDisable m p v s
  | .pllpLock p => Sys2Proof.Machine.execPllpLock p s
  | .portEdgeWrite m p b k v => Sys2Proof.Machine.execPortEdgeWrite m p b k v s
  | .ledPulseStart k => Sys2Proof.Machine.execLedPulseStart k s
  | .ledSample k isns dsns => Sys2Proof.Machine.execLedSample k isns dsns s
  | .ledPulseEnd k => Sys2Proof.Machine.execLedPulseEnd k s
  | .pipelinePixels p vids take => Sys2Proof.Machine.execPipelinePixels p vids take s
  | .lineStoreComplete n => Sys2Proof.Machine.execLineStoreComplete n s
  | .correlationDone => Sys2Proof.Machine.execCorrelationDone s
  | .dieTempSample t => Sys2Proof.Machine.execDieTempSample t s
  | .supplyWarn mon outside => Sys2Proof.Machine.execSupplyWarn mon outside s
  | .geometryApply => Sys2Proof.Machine.execGeometryApply s
  | .lsRelease m v => Sys2Proof.Machine.execLsRelease m v s
  | .lsLowthWrite m v => Sys2Proof.Machine.execLsLowthWrite m v s
  | .dmaGo m ch v => Sys2Proof.Machine.execDmaGo m ch v s
  | .goClear m ch v => Sys2Proof.Machine.execGoClear m ch v s
  | .dmaHeadWrite m ch v => Sys2Proof.Machine.execDmaHeadWrite m ch v s
  | .dmaDringWrite m ch v => Sys2Proof.Machine.execDmaDringWrite m ch v s
  | .dmaAbort m ch => Sys2Proof.Machine.execDmaAbort m ch s
  | .dmaLineBind ch => Sys2Proof.Machine.execDmaLineBind ch s
  | .descriptorFetch ch => Sys2Proof.Machine.execDescriptorFetch ch s
  | .descriptorComplete ch => Sys2Proof.Machine.execDescriptorComplete ch s
  | .tailWaitExpiry ch => Sys2Proof.Machine.execTailWaitExpiry ch s
  | .tailReread ch => Sys2Proof.Machine.execTailReread ch s
  | .egressBeatAccept ch => Sys2Proof.Machine.execEgressBeatAccept ch s
  | .frameSend k => Sys2Proof.Machine.execFrameSend k s
  | .frameReceive k f => Sys2Proof.Machine.execFrameReceive k f s
  | .creditBlockSend n => Sys2Proof.Machine.execCreditBlockSend n s
  | .creditBlockReceive n b => Sys2Proof.Machine.execCreditBlockReceive n b s
  | .alignSend k => Sys2Proof.Machine.execAlignSend k s
  | .alignReceive n b => Sys2Proof.Machine.execAlignReceive n b s
  | .blockLockGain n => Sys2Proof.Machine.execBlockLockGain n s
  | .blockLockLoss n => Sys2Proof.Machine.execBlockLockLoss n s
  | .plllLock => Sys2Proof.Machine.execPlllLock s
  | .detectStep k => Sys2Proof.Machine.execDetectStep k s
  | .partnerDetected k => Sys2Proof.Machine.execPartnerDetected k s
  | .trainBlockReceive n b => Sys2Proof.Machine.execTrainBlockReceive n b s
  | .laneAdapted n => Sys2Proof.Machine.execLaneAdapted n s
  | .trainTimeout k => Sys2Proof.Machine.execTrainTimeout k s
  | .lockTimeout k => Sys2Proof.Machine.execLockTimeout k s
  | .capSequenceReceive k ws crc last => Sys2Proof.Machine.execCapSequenceReceive k ws crc last s
  | .exchangeTimeout k => Sys2Proof.Machine.execExchangeTimeout k s
  | .squelchClose n => Sys2Proof.Machine.execSquelchClose n s
  | .squelchOpen n => Sys2Proof.Machine.execSquelchOpen n s
  | .deepReq n b => Sys2Proof.Machine.execDeepReq n b s
  | .deepAck n b => Sys2Proof.Machine.execDeepAck n b s
  | .deepNak n b => Sys2Proof.Machine.execDeepNak n b s
  | .wakeBlockReceive n b => Sys2Proof.Machine.execWakeBlockReceive n b s
  | .deepExitTimeout k => Sys2Proof.Machine.execDeepExitTimeout k s
  | .measureRequestReceive n b => Sys2Proof.Machine.execMeasureRequestReceive n b s
  | .measureEnd k => Sys2Proof.Machine.execMeasureEnd k s
  | .klLinkEnWrite m k v => Sys2Proof.Machine.execKlLinkEnWrite m k v s
  | .restart m k => Sys2Proof.Machine.execRestart m k s
  | .deep m k => Sys2Proof.Machine.execDeep m k s
  | .wake m k => Sys2Proof.Machine.execWake m k s
  | .disable m k => Sys2Proof.Machine.execDisable m k s
  | .clrcnt m k => Sys2Proof.Machine.execClrcnt m k s
  | .measureStart m k n => Sys2Proof.Machine.execMeasureStart m k n s
  | .mread k tag body => Sys2Proof.Machine.execMread k tag body s
  | .mwrite k tag body => Sys2Proof.Machine.execMwrite k tag body s
  | .credit k body => Sys2Proof.Machine.execCredit k body s
  | .capsMessage k tag => Sys2Proof.Machine.execCapsMessage k tag s
  | .ping k tag body => Sys2Proof.Machine.execPing k tag body s
  | .assign a => Sys2Proof.Machine.execAssign a s
  | .assigned a => Sys2Proof.Machine.execAssigned a s
  | .chainEnd a => Sys2Proof.Machine.execChainEnd a s
  | .enumTimeout => Sys2Proof.Machine.execEnumTimeout s
  | .enum m => Sys2Proof.Machine.execEnum m s
  | .chainStart n0 pstr => Sys2Proof.Machine.execChainStart n0 pstr s
  | .chainStop => Sys2Proof.Machine.execChainStop s
  | .seamset voff hoff => Sys2Proof.Machine.execSeamset voff hoff s
  | .tbsync cnt stb => Sys2Proof.Machine.execTbsync cnt stb s
  | .pairHello st => Sys2Proof.Machine.execPairHello st s
  | .pairHelloSend => Sys2Proof.Machine.execPairHelloSend s
  | .lsyncPulse width => Sys2Proof.Machine.execLsyncPulse width s
  | .timebasePulse => Sys2Proof.Machine.execTimebasePulse s
  | .slotwrite src off line data => Sys2Proof.Machine.execSlotwrite src off line data s
  | .segend src line => Sys2Proof.Machine.execSegend src line s
  | .segmentTimeout n => Sys2Proof.Machine.execSegmentTimeout n s
  | .checkpointSend => Sys2Proof.Machine.execCheckpointSend s
  | .heartbeatSend => Sys2Proof.Machine.execHeartbeatSend s
  | .checkpointReceive data => Sys2Proof.Machine.execCheckpointReceive data s
  | .pairPeerLost => Sys2Proof.Machine.execPairPeerLost s
  | .takeoverLoad => Sys2Proof.Machine.execTakeoverLoad s
  | .pairTakeover => Sys2Proof.Machine.execPairTakeover s
  | .pairForceIn high => Sys2Proof.Machine.execPairForceIn high s
  | .pairEnable m v => Sys2Proof.Machine.execPairEnable m v s
  | .repair m => Sys2Proof.Machine.execRepair m s
  | .rejoin m => Sys2Proof.Machine.execRejoin m s
  | .hkCmdStart m => Sys2Proof.Machine.execHkCmdStart m s
  | .hkCmdStop m => Sys2Proof.Machine.execHkCmdStop m s
  | .clrdrop m => Sys2Proof.Machine.execClrdrop m s
  | .urgentRequestArrival => Sys2Proof.Machine.execUrgentRequestArrival s
  | .refSettled => Sys2Proof.Machine.execRefSettled s
  | .integrationStart => Sys2Proof.Machine.execIntegrationStart s
  | .refUnsettled => Sys2Proof.Machine.execRefUnsettled s
  | .integrationEnd x => Sys2Proof.Machine.execIntegrationEnd x s
  | .resultPublish => Sys2Proof.Machine.execResultPublish s
  | .hkPeriodExpiry => Sys2Proof.Machine.execHkPeriodExpiry s
  | .hkResRead m e => Sys2Proof.Machine.execHkResRead m e s
  | .hkPeekRead m e => Sys2Proof.Machine.execHkPeekRead m e s
  | .hkEntCfgWrite m e v => Sys2Proof.Machine.execHkEntCfgWrite m e v s
  | .wdtAStart m => Sys2Proof.Machine.execWdtAStart m s
  | .wdtaWindowOpen => Sys2Proof.Machine.execWdtaWindowOpen s
  | .wdtaEarly => Sys2Proof.Machine.execWdtaEarly s
  | .wdtaExpiry => Sys2Proof.Machine.execWdtaExpiry s
  | .wdtASvcWrite m v => Sys2Proof.Machine.execWdtASvcWrite m v s
  | .wdtaServiceArrival => Sys2Proof.Machine.execWdtaServiceArrival s
  | .keyCheckin => Sys2Proof.Machine.execKeyCheckin s
  | .wdtbPeriodEnd => Sys2Proof.Machine.execWdtbPeriodEnd s
  | .wdtbEvidenceCapture => Sys2Proof.Machine.execWdtbEvidenceCapture s
  | .wdtbEnable m v => Sys2Proof.Machine.execWdtbEnable m v s
  | .wdtbDisable m v => Sys2Proof.Machine.execWdtbDisable m v s
  | .wdtbLock m v => Sys2Proof.Machine.execWdtbLock m v s
  | .wdtBKeyWrite m v => Sys2Proof.Machine.execWdtBKeyWrite m v s
  | .dbgWdtHold hold => Sys2Proof.Machine.execDbgWdtHold hold s
  | .lfxoStart => Sys2Proof.Machine.execLfxoStart s
  | .lfxoFail => Sys2Proof.Machine.execLfxoFail s
  | .lfrcFail => Sys2Proof.Machine.execLfrcFail s
  | .standbyDeepTimeout => Sys2Proof.Machine.execStandbyDeepTimeout s
  | .standbyEntry => Sys2Proof.Machine.execStandbyEntry s
  | .wakeSource src => Sys2Proof.Machine.execWakeSource src s
  | .pllcLock => Sys2Proof.Machine.execPllcLock s
  | .stbReload n => Sys2Proof.Machine.execStbReload n s
  | .powerOn => Sys2Proof.Machine.execPowerOn s
  | .pin => Sys2Proof.Machine.execPin s
  | .brownout => Sys2Proof.Machine.execBrownout s
  | .pwrCmdReset m => Sys2Proof.Machine.execPwrCmdReset m s
  | .resetRelease => Sys2Proof.Machine.execResetRelease s
  | .bootOutcome => Sys2Proof.Machine.execBootOutcome s
  | .program m => Sys2Proof.Machine.execProgram m s
  | .erase m => Sys2Proof.Machine.execErase m s
  | .nvmOperationDone => Sys2Proof.Machine.execNvmOperationDone s
  | .nvmWprotWrite m v => Sys2Proof.Machine.execNvmWprotWrite m v s
  | .trcEnable m v => Sys2Proof.Machine.execTrcEnable m v s
  | .spiRead addr crc => Sys2Proof.Machine.execSpiRead addr crc s
  | .spiWrite addr data crc => Sys2Proof.Machine.execSpiWrite addr data crc s
  | .spiCsRise => Sys2Proof.Machine.execSpiCsRise s
  | .sysFrRidxWrite m v => Sys2Proof.Machine.execSysFrRidxWrite m v s
  | .sysSemAcqRead m k => Sys2Proof.Machine.execSysSemAcqRead m k s
  | .ctxThawWrite m v => Sys2Proof.Machine.execCtxThawWrite m v s
  | .ctxCmdStart m n => Sys2Proof.Machine.execCtxCmdStart m n s
  | .ctxCmdStop m n => Sys2Proof.Machine.execCtxCmdStop m n s
  | .ctxCmdReset m n => Sys2Proof.Machine.execCtxCmdReset m n s
  | .ctxCmdSetU m n => Sys2Proof.Machine.execCtxCmdSetU m n s
  | .ctxCmdSetS m n => Sys2Proof.Machine.execCtxCmdSetS m n s
  | .hngStrCfgWrite m n v => Sys2Proof.Machine.execHngStrCfgWrite m n v s
  | .mmioWrite m addr v => Sys2Proof.Machine.execMmioWrite m addr v s
  | .gpiEdge n level => Sys2Proof.Machine.execGpiEdge n level s
  | .train1msReached k => Sys2Proof.Machine.execTrain1msReached k s
  | .validIdleBlocks k hl1 => Sys2Proof.Machine.execValidIdleBlocks k hl1 s
  | .sensorClockLane p present => Sys2Proof.Machine.execSensorClockLane p present s
  | .debugSession opened => Sys2Proof.Machine.execDebugSession opened s
  | .debugAccessRequest write addr data => Sys2Proof.Machine.execDebugAccessRequest write addr data s
  | .tapInstruction code => Sys2Proof.Machine.execTapInstruction code s
  | .spiUnknownCommand cmd body crc => Sys2Proof.Machine.execSpiUnknownCommand cmd body crc s

end Sys2Proof.Machine
end

