-- ==== Sys2Proof/Machine/Tick.lean ====
section
/-!
DEFINITION. The passing of time on an empty queue: 2.5 ns, one cycle of CK_CORE (01 R24, R27, 05 R131, 12 R276, R282, R292).
-/
namespace Sys2Proof.Machine

/-- What one cycle of CK_CORE counts: the cycle, STB and the timers. -/
def Dev.coreTick (d : Dev) : Dev := ({ d with cycle := d.cycle + 1, stb := d.stb + 1 }).tmrTick

/-- A context whose next instruction a full crossing has kept back in the cycle that ends is issuable from the next cycle on at the earliest (01 R25, 04 R97). -/
def Dev.heldBack (P : Part) (d : Dev) : Dev :=
  if (List.finRange 9).all d.crossRoom then d
  else (List.finRange 64).foldl (fun k c =>
    if ctxPresent P c ∧ d.crossFull P c (d.insnAt c) then k.updCtx c fun x => { x with roomSince := d.cycle + 1 } else k) d

/-- What has waited in CK_CORE goes on: beats put out at their ports (01 R17), results for room in their crossing (01 R25), the entry to STANDBY for its SUSPEND packet (14 R351), accesses of SPI and of debug for their turn (16 R374, 01 R17). -/
def Dev.coreWaits (P : Part) (d : Dev) : Dev := ((((d.lateServe P).hkWaits P).entryGo P).spiServe P).debugServe P

/-- 2.5 ns pass: the cycle of a fire that took C to zero ends (02 R42), CK_CORE counts while it runs, and the slow clocks from the end of reset on, STANDBY included (12 R292). -/
def Dev.tick (P : Part) (d : Dev) : Dev :=
  let d := if d.coreOn then (((d.creditStop P).heldBack P).coreTick.dmaTick P).coreWaits P else d
  if d.phase = .inReset then d else d.slowTick P

end Sys2Proof.Machine
end

