-- ==== Sys2Proof/Safety.lean ====
section
/-!
DEFINITION. The terms that claims about the part use: completion of a command, issue of an instruction, accepted register accesses, and the invariants.
-/
namespace Sys2Proof.Machine

/-- A command completes at a state with a device: exec answers a next state, and that state differs from the first in its device alone. -/
def Completes (i : Instr) (s : State) (d : Dev) : Prop := exec i s = .next { s with dev := d }

/-- A context's instruction issues: its sequencer picks it, its fetch is granted, and the fetch passed every check (01 R17, 03 R66, R67, R74, R76). -/
def State.issues (s : State) (c : CtxId) : Prop :=
  s.dev.mayIssue s.part c = true ∧ s.dev.issueCause s.part c = none

/-- The device as the effect of an issuing instruction finds it: the fetch has been checked and the issue counted. -/
def State.issued (s : State) (c : CtxId) : Dev := (s.dev.fetchEcc s.part c).issued c

/-- An ALU result in its place: the register, Z and N of the result, C, V, and PC on the next instruction (04 R96, R98). -/
def State.aluTo (s : State) (c : CtxId) (gd : Reg) (r : Word) (C V : Bool) : Dev :=
  (s.issued c).updCtx c fun x => { x.wr gd r with z := r == 0, n := r.msb, c := C, v := V, pc := x.pc + 4 }

/-- The device after a violation by the instruction a context has issued: FROZEN, the fault record and event 51 (03 R76, R77). -/
def State.violates (s : State) (c : CtxId) (cause : Nat) (x : Access) (insn : Word) : Dev := (s.issued c).freezeCtx s.part c cause x insn

/-- The youngest entry of a context's store buffer that overlaps n bytes at an address (03 R86). -/
def Ctx.hit (x : Ctx) (a n : Nat) : Option SbEntry := x.sbuf.reverse.find? fun e => e.overlaps a n

/-- A master other than a context reaches the MMIO port now: it is present and not frozen, no request of the executor is half done, and no older request waits at the port (00 R6, 01 R17, 03 R78, 16 R367). -/
def State.portFree (s : State) (m : Master) : Prop :=
  masterPresent s.part m = true ∧ s.dev.frozen m = false ∧ s.dev.grantable s.part .mmio s.dev.cycle m = true ∧ (m = .mgmt → s.dev.midRequest = false)

/-- A master's read of the MMIO offset o is accepted by the interconnect and its checks (01 R16, R19, R20, 03 R70, R72, R88). -/
def State.mayRead (s : State) (m : Master) (o : Nat) : Prop :=
  s.dev.coreOn = true ∧ o < 0x100000 ∧ o % 4 = 0 ∧
  match m with
  | .ctx c => s.dev.mayIssue s.part c = true ∧ (s.dev.ctx[c]).sbuf = [] ∧ s.dev.grantable s.part .mmio s.dev.cycle (.ctx c) = true ∧
      s.dev.accessCause s.part c (0x8000000 + o) 4 false = none
  | .mgmt => s.portFree m
  | .debug => s.portFree m ∧ s.part.dbgdis = false
  | .mirrorIn => s.portFree m ∧ mirrorReach o = true
  | _ => False

/-- A master's write of the MMIO offset o is accepted by the interconnect and its checks, and finds room in the crossing it passes (01 R16, R19, R20, R25, 03 R70, R72, R88, 12 R279, 16 R369). -/
def State.mayWrite (s : State) (m : Master) (o : Nat) : Prop :=
  s.dev.coreOn = true ∧ o < 0x100000 ∧ o % 4 = 0 ∧ s.dev.writeRoom s.part o = true ∧
  match m with
  | .ctx c => s.dev.mayIssue s.part c = true ∧ (s.dev.ctx[c]).sbuf = [] ∧ s.dev.grantable s.part .mmio s.dev.cycle (.ctx c) = true ∧
      s.dev.accessCause s.part c (0x8000000 + o) 4 true = none
  | .mgmt => s.portFree m ∧ s.dev.haLocked s.part (0x8000000 + o) = false ∧ (o = svcOff → s.dev.wdt.aRun = false)
  | .debug => s.portFree m ∧ s.part.dbgdis = false ∧ (o = svcOff → s.dev.wdt.aRun = false)
  | .mirrorIn => s.portFree m ∧ mirrorReach o = true
  | _ => False

/-- PC and word of the store behind a master's write; 0 for a master that is no context (12 R280). -/
def State.storeAt (s : State) (m : Master) : Word × Word :=
  match m with
  | .ctx c => ((s.dev.ctx[c]).pc, s.dev.insnAt c)
  | _ => (0, 0)

/-- Every byte of memory reads as before. -/
def sameBytes (d t : Dev) : Prop := ∀ a : Nat, t.byte a = d.byte a

/-- Every byte of memory outside n bytes at an address reads as before. -/
def sameBytesBut (d t : Dev) (at_ n : Nat) : Prop := ∀ a : Nat, a < at_ ∨ at_ + n ≤ a → t.byte a = d.byte a

/-- Two contexts agree in everything an instruction of the context can name or test: registers, PC, flags, privilege, FROZEN, windows, event mask and queue, wake latch, store buffer and run state. -/
def Ctx.sameArch (x y : Ctx) : Prop :=
  x.g = y.g ∧ x.pc = y.pc ∧ x.z = y.z ∧ x.n = y.n ∧ x.c = y.c ∧ x.v = y.v ∧ x.abs = y.abs ∧ x.priv = y.priv ∧ x.frozen = y.frozen ∧
  x.win = y.win ∧ x.emask = y.emask ∧ x.queue = y.queue ∧ x.wrec = y.wrec ∧ x.sbuf = y.sbuf ∧ x.run = y.run ∧ x.lastCause = y.lastCause ∧
  x.entry = y.entry ∧ x.mirror = y.mirror ∧ x.load = y.load ∧ x.wake = y.wake ∧ x.due = y.due

end Sys2Proof.Machine
end

