-- ==== Sys2Proof/WellFormed.lean ====
section
/-!
DEFINITION. Well-formed commands: what the operands of a row can be beyond their types. The meanings do not ask for it; a term that fails a check stands for nothing that can happen at the part.
-/
namespace Sys2Proof.Machine

/-- Why a command is not well-formed. -/
inductive IllFormed where
  /-- ILLEGAL_OP names a legal word (04 R93). -/
  | legalOpcode
  /-- TS names one register twice, which is the illegal word of ILLEGAL_OP (04 R93, R109). -/
  | registerTwice
  /-- MOVE in mode 2 names a register in its gd field, which is unused: the illegal word of ILLEGAL_OP (04 R93, R112). -/
  | unusedField
  /-- A frame's payload does not fit its data blocks (10 R235, R236). -/
  | frameBlocks
  /-- A management message is longer than a frame can carry (10 R233, 16 R367). -/
  | messageLength
  /-- A CAP sequence does not have its 41 words (10 R231). -/
  | capWords
  /-- SLOTWRITE data do not fit a frame (13 R308). -/
  | slotData
  /-- A checkpoint is longer than its half of PD (13 R313). -/
  | checkpointLength
  /-- The edge count of STANDBY does not fit PWR_SLEPT (01 R30, 14 R327). -/
  | sleptWidth
  /-- MMIO_WRITE names an address outside MMIO (01 R18). -/
  | notMmio
  /-- An SPI request that is READ or WRITE is not an unknown command (16 R373, R374). -/
  | knownCommand
  deriving DecidableEq, Repr

/-- A check that fails with a reason. -/
def need (ok : Bool) (why : IllFormed) : Option IllFormed := if ok then none else some why

/-- A message of a body fits one frame. -/
def bodyFits (body : List Word) : Bool := decide (8 + 4 * body.length ≤ 4064)

/-- What is wrong with a command, if anything. -/
def illFormed : Instr → Option IllFormed
  | .illegalOp _ w => need (!legalWord w) .legalOpcode
  | .ts _ gd ga => need (gd != ga || gd == 0) .registerTwice
  | .moveRun _ _ gd _ => need (gd == 0) .unusedField
  | .frameReceive _ f => need (decide (f.payload.length ≤ 8 * f.blocks)) .frameBlocks
  | .mread _ _ body => need (bodyFits body) .messageLength
  | .mwrite _ _ body => need (bodyFits body) .messageLength
  | .credit _ body => need (bodyFits body) .messageLength
  | .ping _ _ body => need (bodyFits body) .messageLength
  | .capSequenceReceive _ ws _ _ => need (ws.length == 41) .capWords
  | .slotwrite _ _ _ data => need (decide (data.length ≤ 4048)) .slotData
  | .checkpointReceive data => need (decide (data.length ≤ 8192)) .checkpointLength
  | .stbReload n => need (decide (n < 2 ^ 32)) .sleptWidth
  | .mmioWrite _ addr _ => need (decide (0x8000000 ≤ addr.toNat ∧ addr.toNat < 0x8100000)) .notMmio
  | .spiUnknownCommand cmd _ _ => need (cmd != 2 && cmd != 3) .knownCommand
  | _ => none

/-- A well-formed command. -/
def wellFormed (i : Instr) : Bool := (illFormed i).isNone

end Sys2Proof.Machine
end

