-- ==== Sys2Proof/Certificates/Slice0/Obligations.lean ====
section
/-!
DEFINITION. The statements for the provers: what the commands of the part do, what they leave, and the invariants that every step keeps.
-/
open Sys2Proof Sys2Proof.Machine

/-- The block's step: with a command at the front of the queue, step is exec of that command with the queue's rest, it answers a next state, and that state differs from it in the device alone; on an empty queue 2.5 ns pass (the model's choice, log 5): CK_CORE's cycle and STB count while that clock runs, and where no access of SPI or of debug waits, the contexts, but for the cycle since which a crossing has room for them (04 R97), the phase and the queue stay, and so does memory where no channel has a write burst in progress, no beat that an engine has put out waits and no SUSPEND packet waits. -/
def Obligations.FrontCommandRuns : Prop :=
  ∀ (s : State),
    (∀ (i : Instr) (rest : List Instr), s.pending = i :: rest →
      step s = exec i { s with pending := rest } ∧ ∃ d : Dev, step s = .next { s with pending := rest, dev := d }) ∧
    (s.pending = [] → ∃ d : Dev, step s = .next { s with dev := d } ∧ 
      (s.dev.spiReq = [] → s.dev.dbgReq = [] →
        (∀ c : CtxId, d.ctx[c] = { s.dev.ctx[c] with roomSince := (d.ctx[c]).roomSince }) ∧ ((∀ k : Fin 9, s.dev.crossRoom k = true) → d.ctx = s.dev.ctx) ∧
        d.phase = s.dev.phase ∧ ((∀ n : DmaId, (s.dev.dma[n]).burst = 0) → s.dev.late = [] → s.dev.pwr.suspDue = false → d.mem = s.dev.mem) ∧
        (s.dev.coreOn = true → d.cycle = s.dev.cycle + 1 ∧ d.stb = s.dev.stb + 1)) ∧
      (s.dev.coreOn = false → d.ctx = s.dev.ctx ∧ d.mem = s.dev.mem ∧ d.cycle = s.dev.cycle ∧ d.stb = s.dev.stb))

/-- The machine right after reset, which is the machine held in reset at its first power-on, before any boot (DEDUCED, log 7): STB 0 (01 R27), the Hinge OFF (02 R63), the cause POWER_ON (14 R330), AON zero (14 R331), g0 to g15 0 (03 "Context state"), no master frozen and no command waiting; every context, 0 and 32 too, which R64 puts in S privilege only after a boot, is STOPPED in U privilege with windows that grant nothing and entry 0 (logs 7 and 8); that NVM reads erased is the model's choice (log 6). -/
def Obligations.ResetState : Prop :=
  let s := State.reset
  s.pending = [] ∧ s.dev.phase = .inReset ∧ s.dev.stb = 0 ∧ s.dev.mfrozen = 0 ∧ s.dev.hng.st = .off ∧ s.dev.pwr.rstCause = 1 ∧ s.dev.sys.outcome = 0 ∧
  (∀ c : CtxId, (s.dev.ctx[c]).run = .stopped ∧ (s.dev.ctx[c]).priv = false ∧ (s.dev.ctx[c]).entry = 0 ∧ (s.dev.ctx[c]).frozen = false ∧
    (∀ k : Fin 4, (s.dev.ctx[c]).win[k] = ⟨0, 0⟩) ∧ ∀ r : Fin 16, (s.dev.ctx[c]).g[r] = 0) ∧
  memWf s.dev.mem = true ∧ (∀ a, regionOf s.part a = .aon → s.dev.byte a = 0) ∧ (∀ a, regionOf s.part a = .nvm → s.dev.byte a = 0xFF)

/-- Memory keeps its canonical form: from every state whose memory has it (addresses rising strictly, no entry equal to what its address reads unlisted), each step leaves a state whose memory has it. -/
def Obligations.MemoryStaysCanonical : Prop :=
  ∀ (s t : State), memWf s.dev.mem = true → step s = .next t → memWf t.dev.mem = true

/-- Decode and encode agree (04 R92, R93, R94): the word of every well-formed instruction, in the format of its row and with its opcode, fields and function code, decodes to that instruction with every operand; and every word decodes to a well-formed instruction, whose word it is, which is ILLEGAL_OP exactly where the word is not legal. -/
def Obligations.DecodeOfEncodeAndBack : Prop :=
  (∀ (i : Instr) (c : CtxId) (w : Word), wellFormed i = true → encodeInsn i = some (c, w) → decodeInsn c w = i) ∧
  (∀ (c : CtxId) (w : Word), wellFormed (decodeInsn c w) = true ∧ encodeInsn (decodeInsn c w) = some (c, w) ∧
    (legalWord w = false ↔ decodeInsn c w = .illegalOp c w))

/-- g0 reads 0 (03 "Context state"): from every state in which the register file of every context holds 0 in g0, each step leaves a state in which it does, so no instruction, event record, register write, load or takeover ever puts another value there. -/
def Obligations.RegisterZeroStays : Prop :=
  ∀ (s t : State), (∀ c : CtxId, (s.dev.ctx[c]).g[(0 : Fin 16)] = 0) → step s = .next t → ∀ c : CtxId, (t.dev.ctx[c]).g[(0 : Fin 16)] = 0

/-- The ALU instructions (R95, R96, R98): for every register and immediate the result goes to gd (g0 discards it), Z and N describe it, C and V are as the rules give them (C of a shift is the last bit shifted out, 0 for a shift by 0), PC moves to the next instruction, and nothing else changes after the fetch. And: What an issue leaves (R96, 03 R67, R68): the fetch can raise an ECC event and mark its word reported, the issue counts against the urgency, a promoted issue is noted for its sequencer, and every register, flag, window, mask, queue and buffered store of every context stays, with every byte of memory. -/
def Obligations.AluResultsAndFrame : Prop :=
  (∀ (s : State) (c : CtxId) (gd ga gb : Reg) (imm : Imm14) (imm18 : Imm18), s.issues c →
    let a := (s.dev.ctx[c]).rd ga
    let b := (s.dev.ctx[c]).rd gb + imm.signExtend 32
    let n := (b.extractLsb' 0 5).toNat
    let wide : BitVec 64 := a.signExtend 64 * b.signExtend 64
    Completes (.add c gd ga gb imm) s (s.aluTo c gd (a + b) (a.uaddOverflow b) (a.saddOverflow b)) ∧
    Completes (.sub c gd ga gb imm) s (s.aluTo c gd (a - b) (a.ult b) (a.ssubOverflow b)) ∧
    Completes (.and c gd ga gb imm) s (s.aluTo c gd (a &&& b) false false) ∧
    Completes (.or c gd ga gb imm) s (s.aluTo c gd (a ||| b) false false) ∧
    Completes (.xor c gd ga gb imm) s (s.aluTo c gd (a ^^^ b) false false) ∧
    Completes (.shl c gd ga gb imm) s (s.aluTo c gd (a <<< n) ((a.setWidth 64 <<< n).getLsbD 32) false) ∧
    Completes (.shr c gd ga gb imm) s (s.aluTo c gd (a >>> n) (((a.setWidth 64 <<< 32) >>> n).getLsbD 31) false) ∧
    Completes (.sra c gd ga gb imm) s (s.aluTo c gd (a.sshiftRight n) (((a.setWidth 64 <<< 32) >>> n).getLsbD 31) false) ∧
    Completes (.mul c gd ga gb imm) s (s.aluTo c gd (a * b) false (a.smulOverflow b)) ∧
    Completes (.mulh c gd ga gb imm) s (s.aluTo c gd (wide.extractLsb' 32 32) false false) ∧
    Completes (.min c gd ga gb imm) s (s.aluTo c gd (if a.slt b then a else b) false false) ∧
    Completes (.max c gd ga gb imm) s (s.aluTo c gd (if a.slt b then b else a) false false) ∧
    Completes (.cmp c ga gb imm) s (s.aluTo c 0 (a - b) (a.ult b) (a.ssubOverflow b)) ∧
    Completes (.addi c gd ga imm18) s
      (s.aluTo c gd (a + imm18.signExtend 32) (a.uaddOverflow (imm18.signExtend 32)) (a.saddOverflow (imm18.signExtend 32))) ∧
    Completes (.lui c gd imm18) s
      ((s.issued c).updCtx c fun x => { x.wr gd (imm18.setWidth 32 <<< 14) with pc := x.pc + 4 })) ∧
  (∀ (s : State) (c : CtxId),
    s.issued c = { s.dev with ctx := (s.issued c).ctx, ev := (s.issued c).ev, ecc := (s.issued c).ecc, promo := (s.issued c).promo } ∧
    sameBytes s.dev (s.issued c) ∧
    (∀ k : CtxId, k ≠ c → (s.issued c).ctx[k] = s.dev.ctx[k]) ∧
    ((s.issued c).ctx[c]).sameArch s.dev.ctx[c] ∧ ((s.issued c).ctx[c]).urgent = (s.dev.ctx[c]).urgent - 1)

/-- Loads (R99, 03 R66, R86, R88, 15 R356): for each size a load of memory takes its place at the target port with its address, register and word, and PC stays until it completes; a load that hits the youngest overlapping entry of its own store buffer (DEDUCED, log 70) with the same address and size returns that entry's data at once; a word load of MMIO with an empty buffer, where no older request waits at the port (01 R17), returns what the register reads, with what the read latches or changes. And: A load's way home (01 R17, R22, R399, 03 R77, R86, 14 R341): BURST_GRANT at a port serves the oldest request, and a load granted there, with no write burst in progress, reads its beats and takes the little-endian bytes at its address there and then (DEDUCED, log 28), unless an uncorrectable error stands in them; LOAD_COMPLETE writes the register with them (log 28; g0 discards it), moves PC on and frees the context. -/
def Obligations.LoadsIssueAndReturn : Prop :=
  (∀ (s : State) (c : CtxId) (gd ga : Reg) (imm : Imm18), s.issues c →
    let x := s.dev.ctx[c]
    let a := x.rd ga + imm.signExtend 32
    let goes (i : Instr) (n : Nat) (op : Nat) : Prop :=
      s.dev.accessCause s.part c a.toNat n false = none →
        (regionOf s.part a.toNat ≠ .mmio → x.hit a.toNat n = none →
          Completes i s
            { (s.issued c).updCtx c fun y => { y with load := some ⟨a, n, gd, fmtI op gd ga imm, none⟩ } with
              reqs := s.dev.reqs ++ [⟨portOf (regionOf s.part a.toNat), .ctx c, s.dev.cycle⟩] }) ∧
        (regionOf s.part a.toNat ≠ .mmio → ∀ e, x.hit a.toNat n = some e → e.addr = a → e.size = n →
          Completes i s ((s.issued c).updCtx c fun y => { y.wr gd (e.data &&& BitVec.ofNat 32 (2 ^ (8 * n) - 1)) with pc := x.pc + 4 }))
    goes (.ldw c gd ga imm) 4 0x10 ∧ goes (.ldh c gd ga imm) 2 0x11 ∧ goes (.ldb c gd ga imm) 1 0x12 ∧
    (s.dev.accessCause s.part c a.toNat 4 false = none → regionOf s.part a.toNat = .mmio → x.sbuf = [] →
      s.dev.grantable s.part .mmio s.dev.cycle (.ctx c) = true →
      let r := (s.issued c).mmioRead s.part (.ctx c) (a.toNat - 0x8000000)
      Completes (.ldw c gd ga imm) s (r.2.updCtx c fun y => { y.wr gd r.1 with pc := y.pc + 4 }))) ∧
  ((∀ (s : State) (p : Port) (c : CtxId) (l : Load), s.dev.coreOn = true → (p = .nvm → s.dev.pwr.nvmOp = none) → (∀ n : DmaId, (s.dev.dma[n]).burst = 0) →
    oldestReq (s.dev.waiting s.part p) = some (.ctx c, .load) → (s.dev.ctx[c]).load = some l →
    s.dev.eccBad s.part l.addr.toNat l.size = false → regionOf s.part l.addr.toNat ≠ .lsAbsent →
      Completes (.burstGrant p) s
        (({ s.dev with reqs := s.dev.reqs.filter fun r => r.who != Master.ctx c }.beatRead s.part l.addr.toNat l.size).updCtx c fun x =>
          { x with load := some { l with data := some (BitVec.ofNat 32 (leNat (s.dev.bytes l.addr.toNat l.size))) } })) ∧
  (∀ (s : State) (c : CtxId) (l : Load) (v : Word), s.dev.coreOn = true → (s.dev.ctx[c]).load = some l → l.data = some v →
    (s.dev.ctx[c]).due = {} →
      Completes (.loadComplete c) s
        (s.dev.updCtx c fun x => { x.wr l.gd v with load := none, issuableSince := s.dev.cycle, pc := x.pc + 4 })))

/-- Stores (R99, 03 R85, R88): a store of memory joins the end of its context's store buffer with the low bytes of its register, PC moves on and no byte of memory changes; a word store of MMIO with an empty buffer, room in the crossing that it passes (01 R25) and no older request waiting at the port (01 R17) writes the register at once. And: STORE_BUFFER_DRAIN (01 R17, 03 R85, 01 R398): granted at its port, the oldest entry leaves the buffer and its bytes are in memory, least significant first, at its address; every byte outside them stays, and so do the other contexts; a buffer that was full makes its context issuable from now on (R67). A frame over a context whose sequencer's clock runs. -/
def Obligations.StoresIssueAndDrain : Prop :=
  (∀ (s : State) (c : CtxId) (gd ga : Reg) (imm : Imm18), s.issues c →
    let x := s.dev.ctx[c]
    let a := x.rd ga + imm.signExtend 32
    let goes (i : Instr) (n : Nat) : Prop :=
      s.dev.accessCause s.part c a.toNat n true = none →
        (regionOf s.part a.toNat ≠ .mmio →
          Completes i s ((s.issued c).updCtx c fun y =>
            { y with pc := x.pc + 4, sbuf := x.sbuf ++ [⟨a, n, x.rd gd &&& BitVec.ofNat 32 (2 ^ (8 * n) - 1)⟩]
                     sbAt := if x.sbuf.isEmpty then s.dev.cycle else x.sbAt }) ∧
          sameBytes s.dev (s.issued c))
    goes (.stw c gd ga imm) 4 ∧ goes (.sth c gd ga imm) 2 ∧ goes (.stb c gd ga imm) 1 ∧
    (s.dev.accessCause s.part c a.toNat 4 true = none → regionOf s.part a.toNat = .mmio → x.sbuf = [] →
      s.dev.writeRoom s.part (a.toNat - 0x8000000) = true → s.dev.grantable s.part .mmio s.dev.cycle (.ctx c) = true →
        Completes (.stw c gd ga imm) s (((s.issued c).updCtx c fun y => { y with pc := y.pc + 4 }).accept s.part (.ctx c) x.pc
          (fmtI 0x13 gd ga imm) (a.toNat - 0x8000000) (x.rd gd)))) ∧
  (∀ (s : State) (c : CtxId) (e : SbEntry) (rest : List SbEntry), s.dev.coreOn = true → (s.dev.ctx[c]).sbuf = e :: rest →
    (s.dev.ctx[c]).resetting = false → e.size ≤ 4 →
    regionOf s.part e.addr.toNat ≠ .lsAbsent → regionOf s.part (e.addr.toNat + e.size - 1) ≠ .lsAbsent →
    oldestReq (s.dev.waiting s.part (portOf (regionOf s.part e.addr.toNat))) = some (.ctx c, .store) →
    ∃ t, Completes (.storeBufferDrain c) s t ∧
      t.ctx = upd s.dev.ctx c (fun x => { x with
        sbuf := rest, sbAt := s.dev.cycle, issuableSince := if 8 ≤ x.sbuf.length then s.dev.cycle else x.issuableSince }) ∧
      (s.dev.pwr.gated[sequencerOf c] = false →
        (∀ i : Nat, i < e.size → t.byte (e.addr.toNat + i) = e.data.extractLsb' (8 * i) 8) ∧
        sameBytesBut s.dev t e.addr.toNat e.size ∧
        t = { s.dev with ctx := t.ctx, mem := t.mem, ecc := t.ecc, ev := t.ev }))

/-- SWAP and CAS (R100, 03 R75, R87): with an empty store buffer, its port ready to grant it and no violation, gd takes the old word, which is the little-endian word at ga + imm; SWAP stores gb; CAS stores gb only where the old word equals gd, and Z tells whether it does; every byte outside the word stays. -/
def Obligations.AtomicAccesses : Prop :=
  ∀ (s : State) (c : CtxId) (gd ga gb : Reg) (imm : Imm14), s.issues c → (s.dev.ctx[c]).sbuf = [] →
    let x := s.dev.ctx[c]
    let a := (x.rd ga + imm.signExtend 32).toNat
    let old := s.dev.word a
    s.dev.atomicCause s.part c a = none → s.dev.eccBad s.part a 4 = false → regionOf s.part a ≠ .lsAbsent →
    s.dev.grantable s.part (portOf (regionOf s.part a)) s.dev.cycle (.ctx c) = true →
      (∃ t, Completes (.swap c gd ga gb imm) s t ∧ (t.ctx[c]).rd gd = (if gd = 0 then 0 else old) ∧ t.word a = x.rd gb ∧
        t.ctx = upd (s.issued c).ctx c (fun y => { y.wr gd old with pc := y.pc + 4 }) ∧ sameBytesBut s.dev t a 4) ∧
      (∃ t, Completes (.cas c gd ga gb imm) s t ∧ t.word a = (if old = x.rd gd then x.rd gb else old) ∧
        t.ctx = upd (s.issued c).ctx c (fun y => { y.wr gd old with pc := y.pc + 4, z := old == x.rd gd }) ∧ sameBytesBut s.dev t a 4)

/-- A violating access (R77, R76, R70, R72, R75): a load, a store or an atomic whose access has a violation does nothing but freeze its context with that cause, PC on it, and the record tells the access. And: What a freeze is (R76, R77, R79, R81, 05 R117, 14 R349, 16 R364): the context is FROZEN with its cause and has lost its urgency and nothing else; event 51 carries master, cause and SEQ; the entry of the ring that SYS_FR_WIDX names holds the record's eight words, w7 with SEQ and its inverse, and WRITE 0 for an atomic (log 31, DESIGN CHOICE); the index and SEQ count on, PENDING counts to 64, and OVERRUN is set with RIDX following when 64 records were unread, and in the cycle of a write of SYS_FR_RIDX the record goes before that write. Here no higher master has a record in the same cycle: it would stand behind this one. A context that is traced gets a STATE packet of its new state; without it every other byte of memory stays. -/
def Obligations.ViolationsFreezeWithRecord : Prop :=
  (∀ (s : State) (c : CtxId) (gd ga gb : Reg) (imm : Imm18) (imm14 : Imm14) (k : Nat), s.issues c →
    let x := s.dev.ctx[c]
    let a := x.rd ga + imm.signExtend 32
    let b := x.rd ga + imm14.signExtend 32
    let load (i : Instr) (n op : Nat) : Prop := s.dev.accessCause s.part c a.toNat n false = some k →
      Completes i s (s.violates c k { addr := a, size := n } (fmtI op gd ga imm))
    let store (i : Instr) (n op : Nat) : Prop := s.dev.accessCause s.part c a.toNat n true = some k →
      Completes i s (s.violates c k { addr := a, size := n, write := true } (fmtI op gd ga imm))
    let atomic (i : Instr) (op : Nat) : Prop := s.dev.atomicCause s.part c b.toNat = some k →
      Completes i s (s.violates c k { addr := b, size := 4, atomic := true } (fmtA op gd ga gb imm14))
    load (.ldw c gd ga imm) 4 0x10 ∧ load (.ldh c gd ga imm) 2 0x11 ∧ load (.ldb c gd ga imm) 1 0x12 ∧
    store (.stw c gd ga imm) 4 0x13 ∧ store (.sth c gd ga imm) 2 0x14 ∧ store (.stb c gd ga imm) 1 0x15 ∧
    atomic (.swap c gd ga gb imm14) 0x16 ∧ atomic (.cas c gd ga gb imm14) 0x17) ∧
  (∀ (P : Part) (d : Dev) (c : CtxId) (k : Nat) (x : Access) (insn : Word), k < 256 → (∀ r ∈ d.recordsNow, r.1 ≤ c.val) →
    let y := d.ctx[c]
    let stop (y : Ctx) : Ctx := { y with frozen := true, lastCause := BitVec.ofNat 8 k, urgent := 0 }
    let t := d.freezeCtx P c k x insn
    let at_ := 0x3000000 + 32 * d.sys.frW.toNat
    let six := [(1#16 ++ BitVec.ofNat 8 k ++ BitVec.ofNat 8 c.val : BitVec 32), y.pc, x.addr,
      BitVec.ofNat 32 (sizeCode x.size + 4 * x.write.toNat + 8 * x.fetch.toNat + 16 * x.atomic.toNat + 32 * y.priv.toNat),
      insn, d.stb.extractLsb' 0 32, ((stWord y).extractLsb' 0 16 ++ d.stb.extractLsb' 32 16 : BitVec 32)]
    let kept := d.recordsNow ++ [(c.val, six)]
    t.ctx = upd d.ctx c stop ∧
    t.pwr = (if d.traced c && !y.frozen then (d.updCtx c stop).trcWrite P (d.packet 3 c.val (runBits (stop y)) y.pc) else d).pwr ∧
    (d.traced c = false → t.ev = (d.raise 51 (d.sys.frSeq ++ BitVec.ofNat 8 k ++ BitVec.ofNat 8 c.val : BitVec 32)).ev) ∧
    (∀ i : Fin 7, t.word (at_ + 4 * i.val) = six[i.val]!) ∧
    t.word (at_ + 28) = (~~~d.sys.frSeq ++ d.sys.frSeq : BitVec 32) ∧
    (d.traced c = false → sameBytesBut d t at_ 32) ∧
    (d.traced c = false → d.sys.ridxAt ≠ some d.cycle → t.sys = { d.sys with
      frW := d.sys.frW + 1
      frSeq := d.sys.frSeq + 1
      frPend := if d.sys.frPend = 64 then 64 else d.sys.frPend + 1
      frR := if d.sys.frPend = 64 then d.sys.frW + 1 else d.sys.frR
      frOver := d.sys.frOver || d.sys.frPend == 64
      frNow := kept, frAt := d.cycle }) ∧
    (d.traced c = false → d.sys.ridxAt = some d.cycle →
      let was := d.sys.ridxWas.2
      t.sys = { d.sys with
        frW := d.sys.frW + 1
        frSeq := d.sys.frSeq + 1
        frPend := if d.sys.frW + 1 = d.sys.frR then (if 63 ≤ was ∧ was ≤ 64 then 64 else 0) else (d.sys.frW + 1 - d.sys.frR).toNat
        frOver := d.sys.frOver || was == 64
        ridxWas := (if was = 64 then d.sys.frW + 1 else d.sys.ridxWas.1, if was = 64 then 64 else was + 1)
        frNow := kept, frAt := d.cycle }))

/-- Branches (R102): each register, flag and absence form goes to pc + (sext imm shifted left by 2) when its condition holds and to the next instruction when it does not; no register, flag or other context changes, and nothing else at all unless a taken branch is traced. And: JAL and JR (R103, R104): JAL links pc + 4 in g13 and JR in gd (g0 discards it), and PC goes to the target; a JR to an address that is not a multiple of 4 freezes the context with cause MISALIGNED and links nothing. -/
def Obligations.BranchesAndJumps : Prop :=
  (∀ (s : State) (c : CtxId) (ga gb : Reg) (imm : Imm14), s.issues c →
    let x := s.dev.ctx[c]
    let a := x.rd ga
    let b := x.rd gb
    let goes (i : Instr) (taken : Bool) : Prop := ∃ t, Completes i s t ∧
      t.ctx = upd (s.issued c).ctx c (fun y => { y with pc := if taken then x.pc + (imm.signExtend 32 <<< 2) else x.pc + 4 }) ∧
      (taken = false ∨ s.dev.traced c = false → t = { s.issued c with ctx := t.ctx } ∧ sameBytes s.dev t)
    goes (.beq c ga gb imm) (a == b) ∧ goes (.bne c ga gb imm) (a != b) ∧ goes (.blt c ga gb imm) (a.slt b) ∧
    goes (.bge c ga gb imm) (b.sle a) ∧ goes (.bltu c ga gb imm) (a.ult b) ∧
    goes (.beqF c imm) x.z ∧ goes (.bneF c imm) (!x.z) ∧ goes (.bltF c imm) (x.n != x.v) ∧ goes (.bgeF c imm) (x.n == x.v) ∧
    goes (.bltuF c imm) x.c ∧ goes (.beqA c imm) x.abs ∧ goes (.bneA c imm) (!x.abs)) ∧
  (∀ (s : State) (c : CtxId) (gd ga : Reg) (imm : Imm14) (imm26 : Imm26), s.issues c →
    let x := s.dev.ctx[c]
    let target := x.rd ga + imm.signExtend 32
    (∃ t, Completes (.jal c imm26) s t ∧
      t.ctx = upd (s.issued c).ctx c (fun y => { y.wr 13 (x.pc + 4) with pc := x.pc + (imm26.signExtend 32 <<< 2) }) ∧
      (s.dev.traced c = false → t = { s.issued c with ctx := t.ctx } ∧ sameBytes s.dev t)) ∧
    (target.toNat % 4 = 0 → ∃ t, Completes (.jr c gd ga imm) s t ∧
      t.ctx = upd (s.issued c).ctx c (fun y => { y.wr gd (x.pc + 4) with pc := target }) ∧
      (s.dev.traced c = false → t = { s.issued c with ctx := t.ctx } ∧ sameBytes s.dev t)) ∧
    (target.toNat % 4 ≠ 0 → Completes (.jr c gd ga imm) s
      (s.violates c 2 { addr := target, size := 4, fetch := true } (fmtA 0x26 gd ga 0 imm))))

/-- YIELD, TS, CAPS, EMIT and the fences (R101, R108, R109, R112, 03 R68, R87, R89, 00 R2): each has its effect and PC moves on; EMIT raises its source as the unit of its context's number (05 R117), and EMIT and the fences go when the store buffer is empty. And: WAIT (R105, R106; PC on the WAIT while it waits, and the zero mask in the event mask, are log 38, DEDUCED): a zero mask yields with Z set; a queued record of a selected source is taken at once, the oldest first, into g14, g15, Z and the wake latch; otherwise the context waits with the mask as its event mask and PC on the WAIT. Urgency ends in each case. HALT stops the context with PC moved on. -/
def Obligations.PlainAndWaitingInstructions : Prop :=
  (∀ (s : State) (c : CtxId) (gd ga : Reg) (n : Fin 4), s.issues c →
    let x := s.dev.ctx[c]
    Completes (.yield c) s ((s.issued c).updCtx c fun y => { y with pc := y.pc + 4, urgent := 0 }) ∧
    (gd ≠ ga ∨ gd = 0 → Completes (.ts c gd ga) s ((s.issued c).updCtx c fun y =>
      { (y.wr gd (s.dev.stb.extractLsb' 0 32)).wr ga ((s.dev.stb.extractLsb' 32 16).setWidth 32) with pc := y.pc + 4 })) ∧
    Completes (.caps c gd) s ((s.issued c).updCtx c fun y => { y.wr gd s.part.caps with abs := false, pc := y.pc + 4 }) ∧
    (x.sbuf = [] → Completes (.emit c n ga) s
      (((s.issued c).assertBy c.val ⟨60 + n.val, by omega⟩ (x.rd ga)).updCtx c fun y => { y with pc := y.pc + 4 })) ∧
    (x.sbuf = [] → Completes (.fenceSl c) s ((s.issued c).updCtx c fun y => { y with pc := y.pc + 4 })) ∧
    (x.sbuf = [] → Completes (.fenceAll c) s ((s.issued c).updCtx c fun y => { y with pc := y.pc + 4 }))) ∧
  (∀ (s : State) (c : CtxId) (ga gb : Reg), s.issues c →
    let x := s.dev.ctx[c]
    let m : BitVec 64 := x.rd gb ++ x.rd ga
    (m = 0 → Completes (.wait c ga gb) s ((s.issued c).updCtx c fun y => { y with emask := 0, z := true, pc := x.pc + 4, urgent := 0 })) ∧
    (m ≠ 0 → ∀ (before after : List EvRec) (r : EvRec), x.queue = before ++ r :: after →
      (∀ q ∈ before, m.getLsbD q.src.val = false) → m.getLsbD r.src.val = true →
        ∃ t, Completes (.wait c ga gb) s t ∧
          t.ctx = upd (s.issued c).ctx c (fun y => { y with
            g := (x.g.set 14 (r.ts.extractLsb' 0 32)).set 15 (recG15 r), z := false, wrec := recWords r, pc := x.pc + 4
            emask := m, queue := before ++ after, urgent := 0 }) ∧
          (s.dev.traced c = false → t = { s.issued c with ctx := t.ctx } ∧ sameBytes s.dev t)) ∧
    (m ≠ 0 → (∀ q ∈ x.queue, m.getLsbD q.src.val = false) → ∃ t, Completes (.wait c ga gb) s t ∧
      t.ctx = upd (s.issued c).ctx c (fun y => { y with emask := m, run := .waiting, urgent := 0 }) ∧
      (s.dev.traced c = false → t = { s.issued c with ctx := t.ctx } ∧ sameBytes s.dev t)) ∧
    (∃ t, Completes (.halt c) s t ∧
      t.ctx = upd (s.issued c).ctx c (fun y => { y with run := .stopped, pc := x.pc + 4, urgent := 0, firstDue := false }) ∧
      (s.dev.traced c = false → t = { s.issued c with ctx := t.ctx } ∧ sameBytes s.dev t)))

/-- Instructions that are violations by themselves (R93, R109, R114, 02 R44): an illegal word, TS naming one register twice, MOVE in mode 2 with a register in its unused gd field (DEDUCED, log 61), every supervisor instruction in U privilege, and CRED on a stream of another owner in U privilege freeze the context with ILLEGAL_OP or PRIVILEGE and the word in the record; ADDR is 0 for ILLEGAL_OP; the SIZE, and the ADDR of the others, are values the record layout leaves open (log 25), and the statement holds for every value of them. -/
def Obligations.IllegalAndPrivileged : Prop :=
  ∀ (s : State) (c : CtxId) (gd ga gb : Reg) (k : Fin 4) (w : Word), s.issues c →
    let x := s.dev.ctx[c]
    let stops (i : Instr) (cause : Nat) (insn : Word) : Prop := ∃ (a : Word) (n : Nat), (cause = 1 → a = 0) ∧
      Completes i s ({ s.issued c with free := s.dev.free + 1 }.freezeCtx s.part c cause { addr := a, size := n } insn)
    (legalWord w = false → stops (.illegalOp c w) 1 w) ∧
    (gd ≠ 0 → stops (.ts c gd gd) 1 (fmtA 0x2C gd gd 0 0) ∧
      ∀ m : AxisId, stops (.moveRun c m gd ga) 1 (fmtA 0x32 gd ga 0 (BitVec.ofNat 14 (4 + m.val)))) ∧
    (x.priv = false →
      stops (.ctxStart c ga) 5 (fmtA 0x1C 0 ga 0 1) ∧ stops (.ctxStop c ga) 5 (fmtA 0x1C 0 ga 0 2) ∧
      stops (.ctxReset c ga) 5 (fmtA 0x1C 0 ga 0 3) ∧ stops (.ctxSetU c ga) 5 (fmtA 0x1C 0 ga 0 4) ∧
      stops (.ctxSetS c ga) 5 (fmtA 0x1C 0 ga 0 5) ∧ stops (.win c k gd ga gb) 5 (fmtA 0x1D gd ga gb (BitVec.ofNat 14 k.val)) ∧
      stops (.thaw c ga) 5 (fmtA 0x1E 0 ga 0 0) ∧ stops (.sysReset c) 5 (fmtA 0x1F 0 0 0 1) ∧
      stops (.sysStandby c) 5 (fmtA 0x1F 0 0 0 2) ∧ stops (.sysFuse c gd ga) 5 (fmtA 0x1F gd ga 0 3)) ∧
    (x.priv = false → (s.dev.hng.streams[x.stream ga]).owner.toNat ≠ c.val →
      stops (.credGrant c ga gb) 5 (fmtA 0x3A 0 ga gb 0) ∧ stops (.credClose c ga) 5 (fmtA 0x3A 0 ga 0 1) ∧
      stops (.credOpen c ga) 5 (fmtA 0x3A 0 ga 0 2) ∧ stops (.credRead c gd ga) 5 (fmtA 0x3A gd ga 0 3))

/-- LINE START, LINE STOP, SEAM FREEZE, SEAM RESUME and SEAM RESET (R112, 02 R33, R49, R55, 07 R170): Z tells whether the instruction took effect; LINE START in OFF, on a device that no chain commands and that is no standby (DEDUCED, log 85), starts a run with its origin, number and grid and keeps the reason of the last freeze; LINE STOP ends a run; SEAM FREEZE freezes RUN with reason SOFT where HNG_CTL.EN is 1; after either HNG_VTGT shows 0 (DESIGN CHOICE, log 83); SEAM RESUME is kept for a freeze of reason STALL or SOFT; SEAM RESET zeroes the seam offsets, and a chain master that tells its members stages a SEAMSET message of zeros for them on link 2 (13 R305). Where Z is 0 nothing else changes. -/
def Obligations.LineAndSeamInstructions : Prop :=
  ∀ (s : State) (c : CtxId) (gd ga gb : Reg), s.issues c →
    let x := s.dev.ctx[c]
    let p0 := (x.rd gd ++ x.rd ga : BitVec 64).extractLsb' 0 48
    let h := s.dev.hng
    let at_ (t : Dev) (z : Bool) : Prop := t.ctx = upd (s.issued c).ctx c (fun y => { y with z := z, pc := y.pc + 4 })
    let nothing (i : Instr) : Prop := Completes i s ((s.issued c).updCtx c fun y => { y with z := false, pc := y.pc + 4 })
    (h.st = .off → s.dev.slaved s.part = false → s.dev.cas.pair ≠ .standby → s.dev.cas.pair ≠ .takeover → ∃ t, Completes (.lineStart c gd ga gb) s t ∧ at_ t true ∧ sameBytes s.dev t ∧
      t.hng.st = .run ∧ t.hng.origin = p0.toInt ∧ t.hng.next = p0.toInt ∧ t.hng.lineNo = x.rd gb ∧ t.hng.fired = 0 ∧
      t.hng.seamCnt = 0 ∧ t.hng.reason = h.reason ∧ t.hng.valid = false ∧ t.hng.streams = h.streams ∧ t.hng.voff = h.voff ∧ t.hng.hoff = h.hoff) ∧
    (h.st ≠ .off ∨ s.dev.slaved s.part = true ∨ s.dev.cas.pair = .standby ∨ s.dev.cas.pair = .takeover → nothing (.lineStart c gd ga gb)) ∧
    (h.st ≠ .off → ∃ t, Completes (.lineStop c) s t ∧ at_ t true ∧ sameBytes s.dev t ∧ t.hng.st = .off ∧ t.hng.vtgt = 0 ∧
      t.hng.streams = h.streams ∧ t.hng.lineNo = h.lineNo ∧ t.hng.voff = h.voff ∧ t.hng.hoff = h.hoff) ∧
    (h.st = .off → nothing (.lineStop c)) ∧
    (h.st = .run → bit s.dev.hngCtl 0 = true → ∃ t, Completes (.seamFreeze c) s t ∧ at_ t true ∧ sameBytes s.dev t ∧
      t.hng.st = .freezing ∧ t.hng.reason = .soft ∧ t.hng.vtgt = 0 ∧ t.hng.lLast = h.lineNo - 1 ∧ t.hng.next = h.next ∧ t.hng.streams = h.streams) ∧
    (h.st ≠ .run ∨ bit s.dev.hngCtl 0 = false → nothing (.seamFreeze c)) ∧
    ((h.st = .freezing ∨ h.st = .frozenWait) → (h.reason = .stall ∨ h.reason = .soft) →
      Completes (.seamResume c) s (((s.issued c).updHng fun y => { y with resumed := true }).updCtx c fun y => { y with z := true, pc := y.pc + 4 })) ∧
    (¬ ((h.st = .freezing ∨ h.st = .frozenWait) ∧ (h.reason = .stall ∨ h.reason = .soft)) → nothing (.seamResume c)) ∧
    (s.dev.tellsMembers s.part = false →
      Completes (.seamReset c) s (((s.issued c).updHng fun y => { y with voff := 0, hoff := 0 }).updCtx c fun y => { y with z := true, pc := y.pc + 4 })) ∧
    (s.dev.tellsMembers s.part = true → 12 ≤ s.dev.payCap 2 → ∃ t fr, Completes (.seamReset c) s t ∧ at_ t true ∧ sameBytes s.dev t ∧
      t.hng = { h with voff := 0, hoff := 0 } ∧ t.kl.staged = s.dev.kl.staged ++ [fr] ∧ fr.link = 2 ∧ fr.vc = 64 ∧ fr.typ = 2 ∧
      fr.payload = [(0x00040015 : Word), 0, 0].flatMap wordBytes)

/-- MOVE in its three modes and MSTOP (R112, 08 R190, R191, R193): on an axis whose programs command it the MOVE is kept for the next planner interval, mode 0 with the target gd:ga, mode 1 with that distance from the target of the move in progress or else the present position, mode 2 with the speed ga; MSTOP of a program move keeps a stop for the interval unless a LINE START ends the move there already (08 R189), on an axis that EN = 0 or STALLED holds at rest it takes a kept move away and ends it with Mm_DONE, and during the take-up of backlash it ends the move where it stands; M0 under a run of the Hinge refuses with Z = 0 and nothing else changes. -/
def Obligations.MoveInstructions : Prop :=
  ∀ (s : State) (c : CtxId) (gd ga : Reg) (m : AxisId), s.issues c →
    let x := s.dev.ctx[c]
    let p0 := (x.rd gd ++ x.rd ga : BitVec 64).extractLsb' 0 48
    let keeps (i : Instr) (k : MoveCmd) : Prop :=
      Completes i s (((s.issued c).updMot m fun y => { y with next := some k }).updCtx c fun y => { y with z := true, pc := y.pc + 4 })
    let nothing (i : Instr) (z : Bool) : Prop := Completes i s ((s.issued c).updCtx c fun y => { y with z := z, pc := y.pc + 4 })
    let now := s.dev.mot[m]
    let prog := now.next ≠ none ∨ (now.cmd ≠ .none ∧ ¬ (m = 0 ∧ s.dev.hng.takeM0 = true))
    let base := if now.next = some .stop then s.dev.posNow m else match now.cmd with | .pos t => t | _ => s.dev.posNow m
    (m = 1 ∨ s.dev.hng.st = .off →
      keeps (.moveTo c m gd ga) (.pos (p0.toInt * 65536)) ∧
      keeps (.moveBy c m gd ga) (.pos (base + p0.toInt * 65536)) ∧
      (gd = 0 → keeps (.moveRun c m gd ga) (.vel (x.rd ga).toInt)) ∧
      (s.dev.held m = false → now.takeUp = none → prog → keeps (.mstop c m) .stop) ∧
      (s.dev.held m = false → now.takeUp = none → ¬ prog → nothing (.mstop c m) true) ∧
      (s.dev.held m = true → now.next = none → nothing (.mstop c m) true) ∧
      (s.dev.held m = true → now.next ≠ none → Completes (.mstop c m) s
        ((((s.issued c).updMot m fun y => { y with next := none }).motDone m true).updCtx c fun y => { y with z := true, pc := y.pc + 4 })) ∧
      (s.dev.held m = false → now.takeUp ≠ none → ∃ t, Completes (.mstop c m) s t ∧ sameBytes s.dev t ∧
        t.ctx = upd (s.issued c).ctx c (fun y => { y with z := true, pc := y.pc + 4 }) ∧
        (t.mot[m]).takeUp = none ∧ (t.mot[m]).cmd = .none ∧ (t.mot[m]).next = none)) ∧
    (m = 0 → s.dev.hng.st ≠ .off →
      nothing (.moveTo c m gd ga) false ∧ nothing (.moveBy c m gd ga) false ∧ (gd = 0 → nothing (.moveRun c m gd ga) false) ∧ nothing (.mstop c m) false)

/-- CRED GRANT, CLOSE, OPEN and READ (R112, 02 R41, R43, R44): the stream is ga[5:0]; an open stream takes the lines granted up to a credit of 2^24 - 1, with Z telling whether all fitted; CLOSE gives the unspent credit back out of GRANTED; OPEN opens with an empty book; READ shows AVAIL, with Z telling OPEN. The contexts' other registers, the other streams and every byte of memory stay. -/
def Obligations.CreditInstructions : Prop :=
  ∀ (s : State) (c : CtxId) (gd ga gb : Reg), s.issues c →
    let x := s.dev.ctx[c]
    let n := x.stream ga
    let b := s.dev.hng.streams[n]
    let room := 0xFFFFFF - b.avail.toNat
    let k := min (x.rd gb).toNat room
    let at_ (t : Dev) (z : Bool) : Prop := t.ctx = upd (s.issued c).ctx c (fun y => { y with z := z, pc := y.pc + 4 })
    let nothing (i : Instr) (z : Bool) : Prop := Completes i s ((s.issued c).updCtx c fun y => { y with z := z, pc := y.pc + 4 })
    let others (t : Dev) : Prop := sameBytes s.dev t ∧ t.mot = s.dev.mot ∧ ∀ j : Fin 64, j ≠ n → t.hng.streams[j] = s.dev.hng.streams[j]
    (x.priv = true ∨ b.owner.toNat = c.val) →
    (b.opened = true → ∃ t, Completes (.credGrant c ga gb) s t ∧ at_ t (decide ((x.rd gb).toNat ≤ room)) ∧ others t ∧
      t.hng.streams[n] = { b with granted := b.granted + BitVec.ofNat 32 k, avail := b.avail + BitVec.ofNat 32 k, recent := b.recent + k,
                                    newIn := (if b.newAt = s.dev.cycle then b.newIn else 0) + k, newAt := s.dev.cycle } ∧
      t.hng.crovf = (s.dev.hng.crovf || decide (room < (x.rd gb).toNat))) ∧
    (b.opened = false → nothing (.credGrant c ga gb) false) ∧
    (b.opened = true → ∃ t, Completes (.credClose c ga) s t ∧ at_ t true ∧ others t ∧
      t.hng.streams[n] = { b with opened := false, granted := b.granted - b.avail, avail := 0, after := [] }) ∧
    (b.opened = false → nothing (.credClose c ga) false) ∧
    (b.opened = false → ∃ t, Completes (.credOpen c ga) s t ∧ at_ t true ∧ others t ∧
      t.hng.streams[n] = { b with opened := true, granted := 0, delivered := 0, avail := 0, gap := 0, gapAdd := 0, gapOut := 0, newIn := 0, after := [] }) ∧
    (b.opened = true → nothing (.credOpen c ga) false) ∧
    Completes (.credRead c gd ga) s ((s.issued c).updCtx c fun y => { y.wr gd b.avail with z := b.opened, pc := y.pc + 4 })

/-- ARM, XFER, DRING, the HKREQ forms, HKRD and KEY (R97, R112, R113, 06 R142, 09 R205, R216, 11 R256, R260, R261, 12 R283) where the unit is there and the crossing that the form passes has room (01 R25). XFER of address 0 starts the channel in register mode (09 R205); a ring in FETCH comes before the read, unless that read has frozen the channel (DEDUCED, log 67), and one at an IDLE channel that has ended its chain reads the tail again; HKRD returns the word as it stood at the start of the cycle (R260); ADDR and SIZE of a KEY violation are left open (log 25). -/
def Obligations.UnitInstructions : Prop :=
  ∀ (s : State) (c : CtxId) (gd ga : Reg) (p : PortId) (b : Fin 2) (ch : DmaId) (u : Fin 2) (e : HkEnt) (peek : Bool) (k : Fin 8), s.issues c →
    let x := s.dev.ctx[c]
    let done (t : Dev) (z : Bool) : Dev := t.updCtx c fun y => { y with z := z, pc := y.pc + 4 }
    let chan := s.dev.dma[ch]
    let seen := (if s.dev.hk.wasAt = s.dev.cycle then s.dev.hk.was.lookup e.val else none).getD (s.dev.hk.res[e], s.dev.hk.aux[e])
    let published := s.dev.hk.wasAt == s.dev.cycle && s.dev.hk.pubs.contains e
    let ring (f : Chan → Chan) : Prop := Completes (.dring c ch) s (done ((s.issued c).updDma ch f) true)
    (portPresent s.part p = true →
      Completes (.arm c p b) s (done ((s.issued c).updPort p fun y => { y with arm := some b }) (s.dev.port[p]).arm.isNone)) ∧
    (dmaPresent s.part ch = true →
      (chan.st = .idle → s.dev.frozen (.dma ch) = false → x.rd ga ≠ 0 → ∃ t, Completes (.xfer c ch ga) s t ∧
        t.ctx = (done (s.issued c) true).ctx ∧ sameBytes s.dev t ∧
        (t.dma[ch]).chain = true ∧ (t.dma[ch]).nextAt = x.rd ga &&& 0xFFFFFFE0 ∧ (t.dma[ch]).done = 0 ∧ (t.dma[ch]).desc = none ∧
        (t.dma[ch]).st = (if s.dev.paced ch then .lineWait else .fetch) ∧ ∀ j : DmaId, j ≠ ch → t.dma[j] = s.dev.dma[j]) ∧
      (chan.st ≠ .idle ∨ s.dev.frozen (.dma ch) = true → Completes (.xfer c ch ga) s (done (s.issued c) false)) ∧
      (chan.st = .idle → s.dev.frozen (.dma ch) = false → x.rd ga = 0 →
        Completes (.xfer c ch ga) s (done ((s.issued c).dmaStartReg s.part ch) true) ∧
        (s.dev.paced ch = true →
          let t := (s.issued c).dmaStartReg s.part ch
          (t.dma[ch]).st = .lineWait ∧ (t.dma[ch]).chain = false ∧ (t.dma[ch]).desc = none ∧ t.reg (dmaOff ch 0) = s.dev.reg (dmaOff ch 0) ||| 1 ∧
            ∀ j : DmaId, j ≠ ch → t.dma[j] = s.dev.dma[j])) ∧
      ((chan.st = .fetch ∧ s.dev.frozen (.dma ch) = false) ∨ chan.st = .lineWait ∨ (chan.st = .idle ∧ chan.atTail = false) → ring fun y => y) ∧
      (chan.st = .run ∨ (chan.st = .fetch ∧ s.dev.frozen (.dma ch) = true) → ring fun y => { y with ringLat := true }) ∧
      (chan.st = .tailWait → ring fun y => { y with reread := true, askAt := if y.reread then y.askAt else s.dev.cycle }) ∧
      (chan.st = .idle → chan.atTail = true → ring fun y => { y with st := .tailWait, reread := true, askAt := s.dev.cycle })) ∧
    (s.part.hkin ≠ 0 →
      (s.dev.crossRoom 4 = true →
      (s.dev.hk.seq = .idle → ∃ t, Completes (.hkreqSeq c) s t ∧ t.ctx = (done (s.issued c) true).ctx ∧ sameBytes s.dev t ∧ t.hk.seq = .run ∧
        t.hk.res = s.dev.hk.res) ∧
      (s.dev.hk.seq ≠ .idle → Completes (.hkreqSeq c) s (done (s.issued c) false)) ∧
      (s.dev.hk.slot[u] = none → Completes (.hkreqUrgent c u e) s
        (done ((s.issued c).updHk fun y => { y with slot := y.slot.set u (some e), crossing := y.crossing ++ [u] }) true)) ∧
      (s.dev.hk.slot[u] ≠ none → Completes (.hkreqUrgent c u e) s (done (s.issued c) false)) ∧
      (s.dev.hk.seq = .run → s.dev.hk.conv ≠ none → Completes (.hkreqStop c) s (done (((s.issued c).cross 4).updHk fun y => { y with seq := .stopping }) true)) ∧
      (s.dev.hk.seq = .wait → (s.dev.hk.conv ≠ none ∨ ∀ v : Fin 2, s.dev.hk.slot[v] = none) →
        Completes (.hkreqStop c) s (done (((s.issued c).cross 4).updHk fun y => { y with seq := .idle }) true)) ∧
      (s.dev.hk.seq = .idle → (s.dev.hk.conv ≠ none ∨ ∀ v : Fin 2, s.dev.hk.slot[v] = none) → Completes (.hkreqStop c) s (done ((s.issued c).cross 4) true))) ∧
      (∃ t, Completes (.hkrd c gd e peek) s t ∧ sameBytes s.dev t ∧
        t.ctx = upd (s.issued c).ctx c (fun y => { y.wr gd seen.1 with z := seen.1.getLsbD 31 && seen.1.getLsbD 30, pc := y.pc + 4 }) ∧
        t.hk.res[e] = (if peek || published then s.dev.hk.res[e] else s.dev.hk.res[e] &&& 0xBFFFFFFF) ∧ t.getLatch (.ctx c) (0xA0180 + 4 * e.val) = seen.2)) ∧
    (s.dev.crossRoom 6 = true → (bit (s.dev.slotReg k) 6 = true → s.dev.slotCtx k = c) →
      (s.dev.wdt.bRun = true → s.dev.slotIn k = true → Completes (.key c k) s
        (done ((s.issued c).updWdt fun w => { w with keys := w.keys ++ [k], lastKey := w.lastKey.set k (some s.dev.stb) }) true)) ∧
      (s.dev.wdt.bRun = false ∨ s.dev.slotIn k = false → Completes (.key c k) s (done (s.issued c) false))) ∧
    (s.dev.crossRoom 6 = true → bit (s.dev.slotReg k) 6 = true → s.dev.slotCtx k ≠ c → ∃ (a : Word) (n : Nat),
      Completes (.key c k) s ({ s.issued c with free := s.dev.free + 1 }.freezeCtx s.part c 7 { addr := a, size := n } (fmtA 0x38 0 0 0 (BitVec.ofNat 14 k.val))))

/-- Supervisor instructions in S privilege (R114, R115, 03 R64, R65, R71, R74, R83, R84, 16 R366): CTX START makes a STOPPED context READY where no RECOVERY boot forbids it; CTX STOP stops and CTX RESET clears one that stands at an instruction boundary (RESET with an empty store buffer, its windows, entry and privilege kept); set U and set S change its privilege; WIN writes both registers of a window with their reserved bits 0; THAW frees another context that is frozen, with Z = 1; SYS FUSE reads a fuse word. The target is ga[5:0], and it may be the caller itself: its own STOP acts as HALT, its own RESET leaves it STOPPED at its entry, its own set U and WIN hold from its next instruction and access; contexts apart from these two stay. -/
def Obligations.SupervisorInstructions : Prop :=
  ∀ (s : State) (c : CtxId) (gd ga gb : Reg) (k : Fin 4), s.issues c →
    let x := s.dev.ctx[c]
    let n := x.target ga
    let y := s.dev.ctx[n]
    let goes (i : Instr) (f : Ctx → Ctx) : Prop := ∃ t, Completes i s t ∧
      t.ctx = upd (upd (s.issued c).ctx c fun x => { x with pc := x.pc + 4 }) n f ∧
      (s.dev.traced n = false → s.dev.pwr.gated[sequencerOf n] = false → t = { s.issued c with ctx := t.ctx } ∧ sameBytes s.dev t)
    x.priv = true → ctxPresent s.part n = true →
    (y.run = .stopped → s.dev.sys.outcome ≠ 3 →
      goes (.ctxStart c ga) (fun y => { y with run := .ready, urgent := 0, firstDue := false, fetched := false, issuableSince := s.dev.cycle })) ∧
    (y.run ≠ .stopped → y.resetting = false → y.held = none → y.load = none → y.due = {} →
      goes (.ctxStop c ga) (fun y => { y with run := .stopped, urgent := 0, firstDue := false })) ∧
    (y.held = none → y.load = none → y.due = {} → y.sbuf = [] →
      goes (.ctxReset c ga) (fun y => { y with
        run := .stopped, urgent := 0, g := Vector.replicate 16 0, z := false, n := false, c := false, v := false, abs := false, pc := y.entry
        emask := 0, queue := [], wrec := Vector.replicate 4 0, wake := none, cold := false, firstDue := false, fetched := false
        resetting := false, issuableSince := s.dev.cycle })) ∧
    (y.held = none → y.load = none → y.due = {} → goes (.ctxSetU c ga) (fun y => { y with priv := false })) ∧
    (y.held = none → y.load = none → y.due = {} → goes (.ctxSetS c ga) (fun y => { y with priv := true })) ∧
    (n ≠ c → (x.rd ga).toNat % 256 = n.val → y.frozen = true → ∃ t, Completes (.thaw c ga) s t ∧ (t.ctx[n]).frozen = false ∧ (t.ctx[c]).z = true ∧
      (t.ctx[c]).pc = x.pc + 4) ∧
    (goes (.win c k gd ga gb) (fun y => { y with win := y.win.set k ⟨x.rd gb &&& 0xFFFFFFC7, x.rd gd &&& 0xFFFFFFC0⟩ })) ∧
    Completes (.sysFuse c gd ga) s ((s.issued c).updCtx c fun x' => { x'.wr gd (s.part.fuse ((x.rd ga).toNat % 64)) with pc := x.pc + 4 })

/-- THAW (R114, 03 R82) in S privilege: a frozen context named by ga[7:0] runs again with Z = 1, one that is not frozen gives Z = 0 and nothing else; a frozen DMA channel is thawed IDLE with its lines abandoned (09 R217), a frozen master 80 to 84 by its bit alone, and a number of another master that never freezes gives Z = 0; a number of an absent context or channel sets ST.ABS with Z = 0; and a supervisor instruction on a context the variant lacks sets ST.ABS, leaves Z and does nothing else (00 R5). And: Instructions on absent units (00 R5, R110): Z becomes 0, ST.ABS 1, the destination 0, PC moves on and nothing else changes. -/
def Obligations.ThawAndAbsentUnits : Prop :=
  (∀ (s : State) (c : CtxId) (gd ga gb : Reg) (k : Fin 4) (ch : DmaId) (q : Fin 5), s.issues c →
    let x := s.dev.ctx[c]
    let n := x.target ga
    let num := (x.rd ga).toNat % 256
    let frees (f : Dev → Dev) : Prop := Completes (.thaw c ga) s ((f (s.issued c)).updCtx c fun x => { x with z := true, pc := x.pc + 4 })
    let nothing : Prop := Completes (.thaw c ga) s ((s.issued c).updCtx c fun x => { x with z := false, pc := x.pc + 4 })
    x.priv = true →
    (n ≠ c → ctxPresent s.part n = true → (x.rd ga).toNat % 256 = n.val → (s.dev.ctx[n]).frozen = true → ∃ t, Completes (.thaw c ga) s t ∧
      t.ctx = upd (upd (s.issued c).ctx n fun y => { y with frozen := false, fetched := false, issuableSince := s.dev.cycle }) c (fun x => { x with z := true, pc := x.pc + 4 }) ∧
      (s.dev.traced n = false → s.dev.pwr.gated[sequencerOf n] = false → t = { s.issued c with ctx := t.ctx } ∧ sameBytes s.dev t)) ∧
    (ctxPresent s.part n = true → num = n.val → (s.dev.ctx[n]).frozen = false → nothing) ∧
    (dmaPresent s.part ch = true → num = 64 + ch.val →
      (s.dev.frozen (.dma ch) = false → nothing) ∧
      (s.dev.frozen (.dma ch) = true → ∃ t, Completes (.thaw c ga) s t ∧ t.mfrozen = s.dev.mfrozen &&& ~~~(1#21 <<< ch.val) ∧
        (t.dma[ch]).st = .idle ∧ (t.dma[ch]).bound = none ∧ (t.dma[ch]).list = [] ∧
        t.ctx = upd (s.issued c).ctx c (fun x => { x with z := true, pc := x.pc + 4 }) ∧ sameBytes s.dev t)) ∧
    (num = 80 + q.val →
      (s.dev.mfrozen.getLsbD (16 + q.val) = true → frees fun d => { d with mfrozen := d.mfrozen &&& ~~~(1#21 <<< (16 + q.val)) }) ∧
      (s.dev.mfrozen.getLsbD (16 + q.val) = false → nothing)) ∧
    (84 < num → nothing) ∧
    (masterAbsent s.part num = true → Completes (.thaw c ga) s ((s.issued c).updCtx c fun x => { x with z := false, abs := true, pc := x.pc + 4 })) ∧
    (ctxPresent s.part n = false →
      ∀ i ∈ [Instr.ctxStart c ga, .ctxStop c ga, .ctxReset c ga, .ctxSetU c ga, .ctxSetS c ga, .win c k gd ga gb],
        Completes i s ((s.issued c).updCtx c fun x => { x with abs := true, pc := x.pc + 4 }))) ∧
  (∀ (s : State) (c : CtxId) (gd ga : Reg) (p : PortId) (b : Fin 2) (ch : DmaId) (u : Fin 2) (e : HkEnt) (peek : Bool), s.issues c →
    let absent (i : Instr) : Prop := Completes i s ((s.issued c).updCtx c fun y => { y with z := false, abs := true, pc := y.pc + 4 })
    (portPresent s.part p = false → absent (.arm c p b)) ∧
    (dmaPresent s.part ch = false → absent (.xfer c ch ga) ∧ absent (.dring c ch)) ∧
    (s.part.hkin = 0 → absent (.hkreqSeq c) ∧ absent (.hkreqUrgent c u e) ∧ absent (.hkreqStop c) ∧
      Completes (.hkrd c gd e peek) s ((s.issued c).updCtx c fun y => { y.wr gd 0 with z := false, abs := true, pc := y.pc + 4 })))

/-- Reads that latch (01 R28, 02 R63, 08 R196, 09 R199): an accepted read of a low register returns the low word and keeps, for the reading master alone, the companion as it stood at that moment; nothing else changes. And: Reads that act (16 R365, 11 R260): a semaphore that reads 0 is taken by the reader, whose master number + 1 it then holds, and one that is held reads its holder and stays; HK_RES returns the result as it stood at the start of the cycle and clears FRESH, unless the entry has been published in this cycle, its alias HK_PEEK leaves it, and both latch the companion HK_AUX for the reader. -/
def Obligations.LatchingAndActingReads : Prop :=
  (∀ (s : State) (m : Master) (a : AxisId),
    let d := s.dev
    let reads (i : Instr) (o : Nat) (lo : Word) (his : List (Nat × Word)) : Prop := s.mayRead m o → ∃ t, Completes i s t ∧
      t = { d with rdata := lo, latch := t.latch } ∧ (∀ h ∈ his, t.getLatch m h.1 = h.2) ∧
      ∀ (m' : Master) (o' : Nat), o' < 2 ^ 20 → (m' ≠ m ∨ ∀ h ∈ his, h.1 ≠ o') → t.getLatch m' o' = d.getLatch m' o'
    let wide (i : Instr) (o : Nat) (v : BitVec 48) : Prop :=
      reads i o (v.extractLsb' 0 32) [(o + 4, (v.extractLsb' 32 16).setWidth 32)]
    wide (.sysStbLoRead m) 0x00040 d.stb ∧
    wide (.hngNextLoRead m) 0x50010 (BitVec.ofInt 48 d.hng.next) ∧
    wide (.hngLastLoRead m) 0x50018 (BitVec.ofInt 48 d.hng.last) ∧
    wide (.motCmdLoRead m a) (motOff a 0x18) (BitVec.ofInt 48 ((d.mot[a]).p / 65536)) ∧
    wide (.motEncLoRead m a) (motOff a 0x20) (BitVec.ofInt 48 (d.counted a)) ∧
    reads (.motSetposLoRead m a) (motOff a 0x54) (d.motReg a 0x54) [(motOff a 0x58, d.motReg a 0x58)] ∧
    reads (.lsCnt0Read m) 0x70010 (d.lsCnt 0) [(0x70014, d.lsCnt 1), (0x70018, d.lsCnt 2)]) ∧
  (∀ (s : State) (m : Master) (i : Fin 16) (e : HkEnt),
    let d := s.dev
    (s.mayRead m (0xC0 + 4 * i.val) →
      (d.sys.sem[i] = 0 → Completes (.sysSemAcqRead m i) s
        { d with rdata := 0, sys := { d.sys with sem := d.sys.sem.set i (BitVec.ofNat 32 (mnum m + 1)) } }) ∧
      (d.sys.sem[i] ≠ 0 → Completes (.sysSemAcqRead m i) s { d with rdata := d.sys.sem[i] })) ∧
    (s.part.hkin ≠ 0 →
      let seen := (if d.hk.wasAt = d.cycle then d.hk.was.lookup e.val else none).getD (d.hk.res[e], d.hk.aux[e])
      let published := d.hk.wasAt == d.cycle && d.hk.pubs.contains e
      (s.mayRead m (0xA0100 + 4 * e.val) → ∃ t, Completes (.hkResRead m e) s t ∧ t.rdata = seen.1 ∧ t.getLatch m (0xA0180 + 4 * e.val) = seen.2 ∧
        t.hk.res = (if published then d.hk.res else d.hk.res.set e (d.hk.res[e] &&& 0xBFFFFFFF)) ∧
        t = { d with rdata := t.rdata, latch := t.latch, hk := { d.hk with res := t.hk.res, was := t.hk.was, wasAt := t.hk.wasAt, pubs := t.hk.pubs } }) ∧
      (s.mayRead m (0xA0140 + 4 * e.val) → ∃ t, Completes (.hkPeekRead m e) s t ∧ t.rdata = seen.1 ∧
        t.getLatch m (0xA0180 + 4 * e.val) = seen.2 ∧ t = { d with rdata := t.rdata, latch := t.latch })))

/-- A write of a register (01 R18, R19, R25, 00 R4, R6, R7, R10): an accepted MMIO write of a register of the table sets its writable bits and leaves its other bits, every other register of the table, the contexts and every byte of memory, and takes an entry of the crossing it passes, if any (01 R25); here for the registers that have no effect of their own (HNG, MOT, LED, port, HK, DMA, NVM and PWR settings among them) and stand in a unit of the part. -/
def Obligations.PlainRegisterWrites : Prop :=
  ∀ (s : State) (m : Master) (v : Word) (o : Nat),
    o ∈ [0x5000C, 0x50024, 0x50028, 0x5002C, 0x50034, 0x6000C, 0x60010, 0x60014, 0x60030, 0x60038, 0x6003C, 0x60040, 0x60044, 0x60054, 0x60058,
      0x6010C, 0x60110, 0x60114, 0x60130, 0x60138, 0x6013C, 0x60140, 0x60144, 0x60154, 0x60158, 0x70000, 0x70020, 0x40010, 0x40014, 0x40020,
      0x81004, 0x81008, 0x8100C, 0x81010, 0x20044, 0x20054, 0x20064, 0x20074, 0xE0000, 0xE0004, 0xE0008, 0xE000C, 0xE0010, 0xD0000, 0xD0018,
      0x30104, 0x30108, 0x30124, 0x30128, 0x30144, 0x30148, 0x30164, 0x30168,
      0x31004, 0x31008, 0x3100C, 0x31010, 0x31014, 0x31018, 0x32004, 0x32008, 0x3200C, 0x32010, 0x32014, 0x32018, 0x33004, 0x33008, 0x3300C, 0x33010, 0x33014, 0x33018, 0x34004, 0x34008, 0x3400C, 0x34010, 0x34014, 0x34018,
      0xA0000, 0xA0018, 0xA0204, 0xA0208, 0xA02F4, 0xA02F8, 0xA0400, 0xA04FC] →
    s.mayWrite m o → regAbsent s.part o = false →
    ∃ t, Completes (.mmioWrite m (BitVec.ofNat 32 (0x8000000 + o)) v) s t ∧
      t.reg o = (s.dev.reg o &&& ~~~regMask s.part s.dev o) ||| (v &&& regMask s.part s.dev o) ∧
      (∀ o', o' ≠ o → t.reg o' = s.dev.reg o') ∧ t = { s.dev.crossWrite s.part o with regs := t.regs } ∧ sameBytes s.dev t

/-- Registers of an absent unit (00 R4): an accepted write sets SYS_FAULT.ABSENT and changes nothing else; an accepted read returns 0 and sets it. And: Accesses that a master may not make (01 R16, R19, R20, 03 R70, R72, R78, R79): a link or correlator master that writes MMIO freezes with cause DECODE and its record, but a write by cascade ingress in an egress window, which it reaches, changes nothing (DESIGN CHOICE, log 89); a master that the part lacks makes no access at all (DESIGN CHOICE, log 1); a context that may issue and whose write has a violation freezes with that cause; and a write by the frozen debug master does nothing. The records here are the first of their cycle or behind those of lower masters (R79). -/
def Obligations.AbsentAndRefusedRegisters : Prop :=
  (∀ (s : State) (m : Master) (o : Nat) (v : Word), regAbsent s.part o = true →
    let absent : Sys := { s.dev.sys with absent := true }
    (s.mayWrite m o → Completes (.mmioWrite m (BitVec.ofNat 32 (0x8000000 + o)) v) s { s.dev with sys := absent }) ∧
    (∀ e : HkEnt, o = 0xA0100 + 4 * e.val → s.mayRead m o → Completes (.hkResRead m e) s { s.dev with rdata := 0, sys := absent })) ∧
  (∀ (s : State) (o : Nat) (v : Word), s.dev.coreOn = true → o < 0x100000 →
    let a := BitVec.ofNat 32 (0x8000000 + o)
    (∀ m ∈ [Master.linkIn, .cascIn, .corr], masterPresent s.part m = true → s.dev.frozen m = false → (∀ r ∈ s.dev.recordsNow, r.1 ≤ mnum m) → (m = .cascIn → egressStream (0x8000000 + o) = none) → ∃ t, Completes (.mmioWrite m a v) s t ∧
      t.mfrozen = s.dev.mfrozen ||| (1#21 <<< (mnum m - 64)) ∧ t.sys.frW = s.dev.sys.frW + 1 ∧ t.regs = s.dev.regs ∧ t.ctx = s.dev.ctx ∧
      t.word (0x3000000 + 32 * s.dev.sys.frW.toNat) = (1#16 ++ 10#8 ++ BitVec.ofNat 8 (mnum m) : BitVec 32)) ∧
    (∀ (c : CtxId) (k : Nat), s.dev.mayIssue s.part c = true → s.dev.accessCause s.part c (0x8000000 + o) 4 true = some k →
      Completes (.mmioWrite (.ctx c) a v) s (s.dev.freezeCtx s.part c k { addr := a, size := 4, write := true } (s.dev.insnAt c))) ∧
    (s.dev.frozen .cascIn = false → (egressStream (0x8000000 + o)).isSome = true → Completes (.mmioWrite .cascIn a v) s s.dev) ∧
    (∀ m ∈ [Master.cascIn, .corr], masterPresent s.part m = false → Completes (.mmioWrite m a v) s s.dev) ∧
    (∀ n : DmaId, dmaPresent s.part n = false → Completes (.mmioWrite (.dma n) a v) s s.dev) ∧
    (s.dev.frozen .debug = true → Completes (.mmioWrite .debug a v) s s.dev))

/-- The interconnect's own steps (01 R22, 03 R76, R80, 14 R322, R341, R351): a corrected word is written back outside NVM. A frozen master's access in flight that meets an uncorrectable error is discarded with event 53 and a further record: the load of a context, whose beats are read (01 R399), of the load's size; the read burst of a channel; the debug access in front. With no such access in flight, or at a word without an uncorrectable error, and a write-back of a word that no corrected error marks, the command does nothing (DESIGN CHOICE, log 1). A sequencer none of whose contexts can issue, has a load in flight or holds an issued instruction gates its clock at the command, whose place in time is the end of the 8 cycles of R322 (DESIGN CHOICE, log 3), and any other one is not gated (log 1); with trace on it waits until SUSPEND finds room. -/
def Obligations.InterconnectSteps : Prop :=
  ∀ (s : State) (c : CtxId) (ch : DmaId) (addr : Word) (q : Fin 2), s.dev.coreOn = true →
    let d := s.dev
    let w := eccBase s.part addr.toNat
    let x := d.ctx[c]
    let idle := ∀ k : CtxId, sequencerOf k = q → d.issuable k = false ∧ (d.ctx[k]).load = none ∧ (d.ctx[k]).held = none
    (d.mark w = some (.single true) → regionOf s.part w ≠ .nvm → Completes (.eccWriteBack addr) s { d with ecc := tabDel w d.ecc }) ∧
    (d.mark w ≠ some (.single true) ∨ regionOf s.part w = .nvm → Completes (.eccWriteBack addr) s d) ∧
    (x.frozen = true → d.mark w = some .double → x.due = {} →
      (∀ l : Load, x.load = some l → l.data = none → w ∈ eccWords s.part l.addr.toNat l.size →
        let e := { d with reqs := d.reqs.filter fun r => r.who != Master.ctx c }.beatRead s.part l.addr.toNat l.size
        Completes (.frozenInflightEcc (.ctx c) addr) s
          ((e.updCtx c fun y => { y with load := none }).record s.part c.val 9 true x.pc { addr := l.addr, size := l.size } x.priv l.insn (stWord x))) ∧
      ((∀ l : Load, x.load = some l → l.data ≠ none ∨ w ∉ eccWords s.part l.addr.toNat l.size) → Completes (.frozenInflightEcc (.ctx c) addr) s d)) ∧
    (d.frozen (.dma ch) = true → d.mark w = some .double →
      (w ∈ (d.dma[ch]).flight → Completes (.frozenInflightEcc (.dma ch) addr) s
        ((({ d with dma := d.dma.set ch { d.dma[ch] with flight := [] } }).raise 53 (BitVec.ofNat 32 w)).record s.part (64 + ch.val) 9 true (d.dma[ch]).cur
          { addr := addr, size := 16 } false (if (d.dma[ch]).chain then (d.dma[ch]).ctl4 else 0) 0)) ∧
      (w ∉ (d.dma[ch]).flight → Completes (.frozenInflightEcc (.dma ch) addr) s d)) ∧
    (d.frozen .debug = true → d.mark w = some .double → ∀ (r : DbgReq) (rest : List DbgReq), d.dbgReq = r :: rest → r.write = false →
      eccBase s.part r.addr.toNat = w → Completes (.frozenInflightEcc .debug addr) s
        (({ d with dbgReq := rest }.raise 53 (BitVec.ofNat 32 w)).record s.part 83 9 true 0 { addr := r.addr, size := 4 } false 0 0)) ∧
    (x.frozen = false ∨ d.mark w ≠ some .double → Completes (.frozenInflightEcc (.ctx c) addr) s d) ∧
    (d.phase = .run → idle → d.pwr.gated[q] = false → (q = 0 ∨ 32 < s.part.contexts) →
      (bit (d.reg 0xF0000) 0 = false → Completes (.sequencerGate q) s { d with pwr := { d.pwr with gated := d.pwr.gated.set q true } }) ∧
      (bit (d.reg 0xF0000) 0 = true → d.trcRoom = true → d.pwr.tOwed = 0 → ∃ t, Completes (.sequencerGate q) s t ∧
        t.pwr.gated = d.pwr.gated.set q true ∧ t.ctx = d.ctx ∧ t.phase = d.phase) ∧
      (bit (d.reg 0xF0000) 0 = true → d.trcRoom = false → Completes (.sequencerGate q) s d)) ∧
    (¬ idle → Completes (.sequencerGate q) s d)

/-- An event asserted by a unit while CK_CORE runs (05 R117, R118, R121, 01 R29, 03 R79), the unit being that of the detail word unless the asserting master tells it: the source takes its next sequence number; with room its record joins its pending buffer, stamped STB less the compensation of its source, behind the others, but where units share the source it comes before a record of a higher unit of the same cycle, which takes the later number, and of event 51 the later SEQ; with four records waiting the last of them all is lost, and the source notes every destination routed at the start of the cycle (a routing register not written in this cycle holds for it), for the next record to tell. No other source and nothing outside the fabric changes. And: Events in STANDBY (05 R130): an event raised while CK_CORE stands still waits in its own domain, in order, and takes no sequence number yet. -/
def Obligations.EventsAssertedOrHeld : Prop :=
  (∀ (d : Dev) (n : Fin 64) (w : Word) (u : Nat),
    let x := d.ev.src[n]
    let t := d.assertBy u n w
    let first (q : Pend) : Prop := q.age = d.cycle → q.unit ≤ u
    let new (q : Half) (gap : List Nat) : Pend := ⟨q, w, d.stb - BitVec.ofNat 48 (stampComp n), d.cycle, gap, u⟩
    let swap (a b : Word) : Word := if n = 51 then (b.extractLsb' 16 16 ++ a.extractLsb' 0 16 : BitVec 32) else a
    let earlier (q : Pend) : Pend := { new q.seq q.gap with detail := swap w q.detail }
    (d.phase ≠ .standby → d.phase ≠ .waking → d.phase ≠ .reloading → d.raise n w = d.assertBy (unitOf n w) n w) ∧
    (d.ev.cfgAt ≠ some d.cycle → ∀ k, d.routedNow n k = d.routed n k) ∧
    t = { d with ev := t.ev } ∧ (t.ev.src[n]).seq = x.seq + 1 ∧ (∀ k : Fin 64, k ≠ n → t.ev.src[k] = d.ev.src[k]) ∧
    (x.pend.length < 4 → t.ev = { d.ev with src := t.ev.src } ∧ (t.ev.src[n]).owed = [] ∧
      ((∀ q ∈ x.pend, first q) → (t.ev.src[n]).pend = x.pend ++ [new x.seq x.owed]) ∧
      (∀ (before : List Pend) (q : Pend), x.pend = before ++ [q] → (∀ r ∈ before, first r) → ¬ first q →
        (t.ev.src[n]).pend = before ++ [earlier q, { q with seq := x.seq, gap := x.owed, detail := swap q.detail w }])) ∧
    (4 ≤ x.pend.length → t.ev = { d.ev with src := t.ev.src, hqLost := if d.routedNow n 64 then d.ev.hqLost + 1 else d.ev.hqLost } ∧
      (t.ev.src[n]).owed = x.owed ++ (List.range 65).filter (d.routedNow n)) ∧
    (x.pend.length = 4 → ((∀ q ∈ x.pend, first q) → (t.ev.src[n]).pend = x.pend) ∧
      (∀ (before : List Pend) (q : Pend), x.pend = before ++ [q] → (∀ r ∈ before, first r) → ¬ first q → (t.ev.src[n]).pend = before ++ [earlier q]))) ∧
  (∀ (d : Dev) (n : Fin 64) (w : Word), d.phase = .standby ∨ d.phase = .waking ∨ d.phase = .reloading →
    d.raise n w = { d with ev := { d.ev with held := d.ev.held ++ [(n, w)] } })

/-- A record issued (05 R118, R120, R121, R122, R123, R124): EVENT_RECORD_ISSUE with one record pending in the fabric delivers it to every destination routed at the start of the cycle, with the losses there since the record before it and the flags owed there: a context that waits for its source takes it in its wake latch, any other in its queue of 8, and one with a full queue loses it; a context not routed does not change; the host queue takes it when routed, enabled and not full; and the source's bit of EVT_INTPEND is set when its INT bit is. Source 19, whose issue also acts on the Hinge (R127), is left out here. -/
def Obligations.RecordDelivery : Prop :=
  ∀ (s : State) (n : Fin 64) (p : Pend), s.dev.coreOn = true → n ≠ 19 → (s.dev.ev.src[n]).pend = [p] →
    (∀ k : Fin 64, k ≠ n → (s.dev.ev.src[k]).pend = []) →
    let lost (k : Nat) : Nat := tabGet 0 s.dev.ev.lost (destKey n k) + p.gap.count k
    let told (k : Nat) : EvRec := ⟨n, p.seq, p.detail, p.ts, BitVec.ofNat 16 ((if lost k = 0 then 0 else 1 + 256 * min 255 (lost k)) +
      (if s.dev.ev.resync.contains k then 2 else 0) + (if s.dev.ev.fresh.contains (destKey n k) then 4 else 0))⟩
    ∃ t, Completes .eventRecordIssue s t ∧ (t.ev.src[n]).pend = [] ∧ sameBytes s.dev t ∧
      (∀ c : CtxId,
        let x := s.dev.ctx[c]
        let r := told c.val
        (s.dev.routedNow n c.val = false → t.ctx[c] = x) ∧
        (s.dev.routedNow n c.val = true →
          (x.run = .waiting → x.wake = none → x.emask.getLsbD n.val = true → ∃ k, t.ctx[c] = { x with wake := some (r, k), cold := x.frozen }) ∧
          (¬ (x.run = .waiting ∧ x.wake = none ∧ x.emask.getLsbD n.val = true) →
            (x.queue.length < 8 → t.ctx[c] = { x with queue := x.queue ++ [r] }) ∧ (8 ≤ x.queue.length → t.ctx[c] = x)))) ∧
      t.ev.hq = (if s.dev.routedNow n 64 && bit (s.dev.reg 0x20000) 0 && decide (s.dev.ev.hq.length < 256) then s.dev.ev.hq ++ [told 64]
        else s.dev.ev.hq) ∧
      t.ev.intPend = (if bit (s.dev.srcCfgNow n) 1 then s.dev.ev.intPend ||| (1#64 <<< n.val) else s.dev.ev.intPend)

/-- WAKE_PORT_SERVE (05 R128, 04 R105, R107, 03 R68): the context whose wake was delivered first receives its record in g14, g15, Z and the wake latch, PC goes to the instruction after the WAIT, and it is READY and urgent for 16 instructions unless it is frozen or was when its record came. A frame where nothing is traced and the sequencer's clock runs. -/
def Obligations.WakeServed : Prop :=
  ∀ (s : State) (q : Fin 2) (c : CtxId) (r : EvRec) (k : Nat), s.dev.coreOn = true → s.dev.nextWake q = some (c, r, k) →
    (s.dev.ctx[c]).run = .waiting →
    let x := s.dev.ctx[c]
    ∃ t, Completes (.wakePortServe q) s t ∧
      t.ctx = upd s.dev.ctx c (fun y => { y with
        g := (x.g.set 14 (r.ts.extractLsb' 0 32)).set 15
          (BitVec.ofNat 8 r.src.val ++ r.flags.extractLsb' 0 8 ++ r.seq : BitVec 32)
        z := false, wrec := recWords r, pc := x.pc + 4, wake := none, run := .ready
        urgent := if x.frozen || x.cold then 0 else 16, firstDue := !(x.frozen || x.cold), fetched := false, wokeAt := s.dev.cycle, issuableSince := s.dev.cycle }) ∧
      (s.dev.traced c = false → s.dev.pwr.gated[sequencerOf c] = false → t = { s.dev with ctx := t.ctx } ∧ sameBytes s.dev t)

/-- Commands on the fabric's registers and pins (05 R116, R123, R124, R131, R132): INTPEND clears the bits written 1 in its half but those set in the same cycle; SWRAISE n raises source 60 + n with the value, as the unit that the writing master's number is (R117); EVT_CTL with HQEN 0 empties the host queue; enabling a timer loads its period, a value below 16 acting as 16, and zeroes its expiry count; TIMER_EXPIRY counts and raises source 56 + k and a one-shot timer stops; GPI_EDGE sets the pin's level and raises its source when the edge is selected. And: EVENT_MESSAGE_SEND (05 R123, 16 R370): while the host link is ACTIVE, runs no MEASURE and has units for it, the oldest records of the host queue, 16 at most and as many as a payload of MAXPAY holds (10 R235), leave the queue in one EVENT message on VC 64 of the host link, four words to a record. -/
def Obligations.FabricCommandsAndMessages : Prop :=
  (∀ (s : State) (m : Master) (v : Word) (n : Fin 4) (g : Fin 8) (level : Bool),
    let d := s.dev
    let period : Word := if (d.reg (tmrOff n + 4)).toNat < 16 then 16 else d.reg (tmrOff n + 4)
    let tm := d.ev.timer[n]
    let new := if d.ev.intAt = d.cycle then d.ev.intNew else 0
    (s.mayWrite m 0x20010 → Completes (.evtIntpendClear m false v) s
      { d with ev := { d.ev with intPend := d.ev.intPend &&& ~~~((0#32 ++ v : BitVec 64) &&& ~~~new) } }) ∧
    (s.mayWrite m 0x20014 → Completes (.evtIntpendClear m true v) s
      { d with ev := { d.ev with intPend := d.ev.intPend &&& ~~~((v ++ 0#32 : BitVec 64) &&& ~~~new) } }) ∧
    (s.mayWrite m (0x20020 + 4 * n.val) → Completes (.evtSwraise m n v) s (d.assertBy (mnum m) ⟨60 + n.val, by omega⟩ v)) ∧
    (s.mayWrite m 0x20000 → bit v 0 = true → Completes (.evtCtlWrite m v) s (d.setReg 0x20000 (d.reg 0x20000 ||| 1))) ∧
    (s.mayWrite m 0x20000 → bit v 0 = false → ∃ t, Completes (.evtCtlWrite m v) s t ∧ t.ev.hq = [] ∧ t.reg 0x20000 = d.reg 0x20000 &&& ~~~1 ∧
      t.ctx = d.ctx ∧ t.ev.src = d.ev.src ∧ sameBytes d t) ∧
    (s.mayWrite m (tmrOff n) → bit (d.reg (tmrOff n)) 0 = false → Completes (.evtTmrEnable m n v) s
      { d.setReg (tmrOff n) ((d.reg (tmrOff n) &&& ~~~3) ||| (v &&& 2) ||| 1) with ev := { d.ev with timer := d.ev.timer.set n ⟨period, 0⟩ } }) ∧
    (d.coreOn = true → bit (d.reg (tmrOff n)) 0 = true →
      (bit (d.reg (tmrOff n)) 1 = false → Completes (.timerExpiry n) s
        ({ d with ev := { d.ev with timer := d.ev.timer.set n ⟨period, tm.expiries + 1⟩ } }.raise ⟨56 + n.val, by omega⟩ (tm.expiries + 1))) ∧
      (bit (d.reg (tmrOff n)) 1 = true → Completes (.timerExpiry n) s
        ({ d.setReg (tmrOff n) (d.reg (tmrOff n) &&& ~~~1) with ev := { d.ev with timer := d.ev.timer.set n ⟨0, tm.expiries + 1⟩ } }.raise
          ⟨56 + n.val, by omega⟩ (tm.expiries + 1)))) ∧
    (d.phase = .run → ∃ t, Completes (.gpiEdge g level) s t ∧ t.pins.gpi.getLsbD g.val = level ∧
      (∀ j : Fin 8, j ≠ g → t.pins.gpi.getLsbD j.val = d.pins.gpi.getLsbD j.val) ∧ t.ctx = d.ctx ∧ sameBytes d t ∧
      t.ev = (if d.gpiSelected g level then d.raise ⟨23 + g.val, by omega⟩ (if level then 1 else 0) else d).ev)) ∧
  (∀ (s : State), s.dev.coreOn = true → s.dev.ev.hq ≠ [] → (s.dev.kl.links[(0 : LinkId)]).st = .active →
    (s.dev.kl.links[(0 : LinkId)]).measuring = false →
    24 ≤ s.dev.payCap 0 →
    let k := min (min 16 ((s.dev.payCap 0 - 8) / 16)) s.dev.ev.hq.length
    frameUnits (8 + 16 * k) ≤ ((s.dev.kl.links[(0 : LinkId)]).books[(64 : Fin 65)]).avail →
    ∃ t f, Completes .eventMessageSend s t ∧ t.ev = { s.dev.ev with hq := s.dev.ev.hq.drop k } ∧ t.kl.staged = s.dev.kl.staged ++ [f] ∧
      f.link = 0 ∧ f.vc = 64 ∧ f.typ = 2 ∧
      f.payload = ((BitVec.ofNat 16 (16 * k) ++ (4 : BitVec 16) : BitVec 32) :: (0 : Word) ::
        (s.dev.ev.hq.take k).flatMap fun r => (recWords r).toList).flatMap wordBytes ∧
      t.ctx = s.dev.ctx ∧ sameBytes s.dev t)

/-- LINE_FIRE with its conditions met (02 R33, R34, R35, R36, R37, R39, R40, R42, R43, R48, R58, 09 R200): the line takes its number and the next grid position follows one pitch on; the lowest FREE slot holds it in FILL; every open stream with credit at the start of the cycle commits one line, which the slot's header keeps for it (R43), every open one without counts a gap that saturates and one with credit moves its gap to the header (DEDUCED, log 76), closed ones do not move; a position reached more than a cycle before the fire sets LATE in the header and counts (R35); the first line after a seam raises the seam count; the acquisition starts period 0 on the ports that take part; contexts and memory stay. The Hinge stays in RUN to the end of the cycle: then, on an empty queue (DESIGN CHOICE, log 5), a fire that left C at 0 raises event 12 for its line and freezes the Hinge for CREDIT when HNG_CTL.EN is set and no other freeze has come first (DESIGN CHOICE, log 64), with HNG_VTGT 0 (DESIGN CHOICE, log 83). -/
def Obligations.LineFires : Prop :=
  (∀ (s : State) (n : Fin 256), s.dev.coreOn = true → s.dev.hng.st = .run → s.dev.freeSlot = some n → s.dev.atGrid s.dev.hng.next = true →
    s.dev.mayFire s.part = true →
    let h := s.dev.hng
    ∃ t, Completes .lineFire s t ∧ t.hng.lineNo = h.lineNo + 1 ∧ t.hng.fired = h.fired + 1 ∧ t.hng.last = h.next ∧
      t.hng.next = h.next + s.dev.pitch ∧ t.hng.newLine = false ∧ t.hng.seamCnt = (if h.newLine then h.seamCnt + 1 else h.seamCnt) ∧
      (t.ls.slots[n]).st = .fill ∧ (t.ls.slots[n]).kind = .numbered ∧ (t.ls.slots[n]).line = h.lineNo ∧ (t.ls.slots[n]).hdr.seam = h.newLine ∧
      (∀ r : Nat, s.dev.noteReach.hng.reachOf h.next = some r → (t.ls.slots[n]).hdr.late = decide (r + 1 < s.dev.cycle) ∧
        t.hng.lateCnt = (if r + 1 < s.dev.cycle then h.lateCnt + 1 else h.lateCnt)) ∧
      (∀ k : Fin 64, let x := h.streams[k]
        (t.ls.slots[n]).hdr.committed.getLsbD k.val = (x.opened && decide (x.atStart s.dev.cycle ≠ 0)) ∧
        (s.dev.pairRole s.part = false → (t.hng.streams[k]).after = x.after) ∧
        { t.hng.streams[k] with after := x.after } =
          (if x.opened then
            (if x.atStart s.dev.cycle = 0 then { x with gap := if x.gap = 0xFFFF then 0xFFFF else x.gap + 1 } else { x with avail := x.avail - 1, gap := 0, gapOut := Sys2Proof.Machine.gapSum x.gapOut x.gap })
          else x)) ∧
      t.acq.line = h.lineNo ∧ t.acq.slot = some n ∧ t.acq.period = 0 ∧ t.acq.ports = s.dev.portsOn ∧
      t.hng.st = .run ∧ t.hng.firedAt = some s.dev.cycle ∧ t.hng.stopDue = (if t.cNow = some 0 then some h.lineNo else h.stopDue) ∧
      t.ctx = s.dev.ctx ∧ sameBytes s.dev t) ∧
  (∀ (s : State) (line : Word), s.pending = [] → s.dev.coreOn = true → s.dev.hng.stopDue = some line → s.dev.spiReq = [] → s.dev.dbgReq = [] →
    let h := s.dev.hng
    ∃ t : Dev, step s = .next { s with dev := t } ∧ t.hng.stopDue = none ∧ t.hng.resumeOwed = true ∧ t.hng.streams = h.streams ∧
      t.hng.lineNo = h.lineNo ∧ t.hng.next = h.next ∧ (t.ev.src[(12 : Fin 64)]).seq = (s.dev.ev.src[(12 : Fin 64)]).seq + 1 ∧
      (t.hng.st = if h.st = .run ∧ bit s.dev.hngCtl 0 = true then .freezing else h.st) ∧
      (h.st = .run → bit s.dev.hngCtl 0 = true → t.hng.reason = .credit ∧ t.hng.lLast = h.lineNo - 1 ∧ t.hng.vtgt = 0 ∧
        t.hng.pLast = (if h.fired = 0 then h.origin - s.dev.pitch else h.last)))

/-- Captures without a number and lines that wait (02 R33, R42, R57, 09 R200, R401). OVERLAP_CAPTURE_FIRE and GUARD_CAPTURE_FIRE at the grid position of the line they repeat take the lowest FREE slot, which shows the number of the line captured again (DEDUCED, log 74), count the capture and move no number and no pacing book; STORE_FULL raises event 10 once for each line whose position is or has been reached with no FREE slot, the earliest first, and none before; and LINE_FIRE with a pacing stream at 0 at the start of the cycle, after another fire of the cycle, or with no FREE slot fires nothing. -/
def Obligations.CapturesAndWaits : Prop :=
  ∀ (s : State) (n : Fin 256), s.dev.coreOn = true →
    let h := s.dev.hng
    (h.st = .overlap → h.ovl < h.kp → s.dev.freeSlot = some n → s.dev.atGrid (h.pLast - ((h.kp + 2 - h.ovl : Nat) : Int) * s.dev.pitch) = true →
      s.dev.mayFire s.part = true →
      ∃ t, Completes .overlapCaptureFire s t ∧ t.hng = { h with ovl := h.ovl + 1, firedAt := some s.dev.cycle } ∧ (t.ls.slots[n]).st = .fill ∧
        (t.ls.slots[n]).kind = .overlap ∧ (t.ls.slots[n]).line = h.lLast - nword (h.kp + 2 - h.ovl) ∧ t.ctx = s.dev.ctx ∧ sameBytes s.dev t) ∧
    (h.st = .guard → h.grd < 3 → s.dev.freeSlot = some n → s.dev.atGrid (h.pLast - ((2 - h.grd : Nat) : Int) * s.dev.pitch) = true →
      s.dev.mayFire s.part = true →
      ∃ t, Completes .guardCaptureFire s t ∧ t.hng.grd = h.grd + 1 ∧ t.hng.lineNo = h.lineNo ∧ t.hng.streams = h.streams ∧
        t.hng.st = (if h.grd = 2 ∧ h.corr = .loaded then .run else .guard) ∧ (t.ls.slots[n]).st = .fill ∧ (t.ls.slots[n]).kind = .guard ∧
        (t.ls.slots[n]).line = h.lLast - nword (2 - h.grd) ∧ t.ctx = s.dev.ctx ∧ sameBytes s.dev t) ∧
    (h.st = .run → s.dev.freeSlot = none →
      let told (k : Nat) : Prop := ∃ t, Completes .storeFull s t ∧ t.hng.fullRaised = k + 1 ∧ t.hng.lineNo = h.lineNo ∧ t.hng.streams = h.streams ∧
        t.ev = (s.dev.raise 10 (h.lineNo + BitVec.ofNat 32 k)).ev ∧ t = { s.dev with hng := t.hng, ev := t.ev }
      let k := h.fullRaised
      let g := h.next + (k : Int) * s.dev.pitch
      let seen := s.dev.noteReach.hng
      seen = { h with reached := seen.reached } ∧ (s.dev.atGrid g = true → seen.reachOf g ≠ none) ∧
      (seen.reachOf g ≠ none → told k) ∧ (seen.reachOf g = none → Completes .storeFull s { s.dev with hng := seen })) ∧
    ((∃ k : Fin 64, (h.streams[k]).opened = true ∧ (h.streams[k]).pace = true ∧ (h.streams[k]).atStart s.dev.cycle = 0) ∨
        h.firedAt = some s.dev.cycle ∨ s.dev.freeSlot = none →
      ∃ t, Completes .lineFire s t ∧ t = { s.dev with hng := t.hng } ∧ t.hng.lineNo = h.lineNo ∧ t.hng.next = h.next ∧
        t.hng.streams = h.streams)

/-- PLANNER_INTERVAL (08 R185, R186, R188, 02 R45), on axis M1, which programs alone command, enabled, without backlash and without the stall check: the target accepted last applies; on a velocity target v and a follow the speed and acceleration rule and p moves by v; on a position target vt is the signed stop speed and the move ends at the target, with v and a 0, when p comes within 256 pu of it at 16 pu/us or less. In RUN the Hinge's target speed is V_SCAN when C is unlimited or at CR_HIGH or above, and 0 when C is 0. -/
def Obligations.PlannerIntervalRule : Prop :=
  ∀ (s : State), s.dev.coreOn = true →
    let x := s.dev.mot[(1 : AxisId)]
    let d := s.dev
    let vm : Int := d.vmaxEff 1
    ∃ t, Completes .plannerInterval s t ∧ t.regs = d.regs ∧ sameBytes d t ∧ t.ctx = d.ctx ∧
      (d.held 1 = false → x.takeUp = none → x.blOff = 0 → fld (d.motReg 1 0x3C) 0 24 = 0 → bit (d.motReg 1 0) 9 = false →
        (∀ u : Int, x.next.getD x.cmd = .vel u →
          let r := planRule (clampI (-vm) vm (u * 65536)) x.v x.a (d.amax 1) (d.jmax 1) (d.vmaxEff 1)
          (t.mot[(1 : AxisId)]).v = r.1 ∧ (t.mot[(1 : AxisId)]).a = r.2 ∧ (t.mot[(1 : AxisId)]).p = x.p + r.1 ∧
            (t.mot[(1 : AxisId)]).cmd = .vel u) ∧
        (∀ g : Int, x.next.getD x.cmd = .pos g →
          let r := planRule (sgn (g - x.p) * d.vstop 1 (g - x.p).natAbs) x.v x.a (d.amax 1) (d.jmax 1) (d.vmaxEff 1)
          (((g - (x.p + r.1)).natAbs ≤ 256 * 65536 ∧ r.1.natAbs ≤ 16 * 65536) →
            (t.mot[(1 : AxisId)]).p = g ∧ (t.mot[(1 : AxisId)]).v = 0 ∧ (t.mot[(1 : AxisId)]).a = 0 ∧ (t.mot[(1 : AxisId)]).cmd = .none) ∧
          (¬ ((g - (x.p + r.1)).natAbs ≤ 256 * 65536 ∧ r.1.natAbs ≤ 16 * 65536) →
            (t.mot[(1 : AxisId)]).p = x.p + r.1 ∧ (t.mot[(1 : AxisId)]).v = r.1 ∧ (t.mot[(1 : AxisId)]).a = r.2 ∧
              (t.mot[(1 : AxisId)]).cmd = .pos g))) ∧
      (d.hng.st = .run → d.cNow = none ∨ (∃ c, d.cNow = some c ∧ d.crTh.2 ≤ c) → t.hng.vtgt = nword d.vscan) ∧
      (d.hng.st = .run → d.cNow = some 0 → t.hng.vtgt = 0)

/-- Step generator and encoders (08 R179, R180, R182, R184): STEP_EMIT with a crossing pending, 4 microseconds after the last step or later and with DIR on the step's side for 1 microsecond, moves the index and STEPC one step toward the motor position and drives STEP with its direction, or the phase currents, where the outputs are driven, and with DIR on the other side it turns DIR, not before 1 microsecond after the last step (log 74), and waits; HOLD_CURRENT selects IHOLD at an axis at rest for HOLDT ms, HOLDT 0 never; an axis with EN = 0 drives its outputs low and a device that has released its outputs drives none; an encoder change counts up when A leads B, down otherwise, inverted by ENCINV, and a change of both sets ENCERR; the cycle in which the comparator came to the next grid position is noted: an earlier one to which interpolation had brought it stays, else it is that of the count which brought it there (02 R35); an index edge copies the count and raises event 21 + m. The other axis does not change. -/
def Obligations.StepsAndEncoders : Prop :=
  ∀ (s : State) (m : AxisId) (la lb : Bool),
    let d := s.dev
    let x := d.mot[m]
    let ctl := d.motReg m 0
    let dir := sgn (d.stepNow m - x.stepIdx)
    let turn := (quadrant la lb + 4 - quadrant x.encA x.encB) % 4
    let past := d.notePast.hng
    let ready := bit ctl 1 = true ∨ (x.stepBack = decide (dir < 0) ∧ ∀ t, x.dirAt = some t → t + 400 ≤ d.cycle)
    (d.coreOn = true → dir ≠ 0 → bit ctl 0 = true → d.stepFree m = true → ¬ ready →
      Completes (.stepEmit m) s { d with mot := upd d.mot m (fun y => ite (y.stepBack = decide (dir < 0)) y
        { y with stepBack := decide (dir < 0), dirAt := some (y.stepAt.elim d.cycle fun e => max d.cycle (e + 400)) }) }) ∧
    (d.coreOn = true → dir ≠ 0 → bit ctl 0 = true → d.stepFree m = true → ready →
      Completes (.stepEmit m) s { d with
        mot := upd d.mot m fun x => { x with
          stepIdx := x.stepIdx + dir, stepCnt := x.stepCnt + BitVec.ofInt 32 dir, stepped := true, stepAt := some d.cycle, stepBack := decide (dir < 0) }
        out := if d.driven = false then d.out
          else if bit ctl 1 then d.out ++ [match d.phases m (x.stepIdx + dir) with | (ia, ib, sa, sb) => .phase m ia ib sa sb]
          else d.out ++ [.step m (decide (0 < dir) != bit ctl 6)] }) ∧
    (d.coreOn = true → d.atRest m = true → fld ctl 16 8 ≠ 0 → x.restSince + fld ctl 16 8 * 400000 ≤ d.cycle →
      Completes (.holdCurrent m) s { d with mot := upd d.mot m fun x => { x with hold := true } }) ∧
    (d.atRest m = false ∨ fld ctl 16 8 = 0 ∨ d.cycle < x.restSince + fld ctl 16 8 * 400000 → Completes (.holdCurrent m) s d) ∧
    (d.released = true → d.axisOut m = none) ∧ (d.released = false → bit ctl 0 = false → d.axisOut m = some {}) ∧
    (d.coreOn = true → bit ctl 7 = true →
      ∃ t, Completes (.encoderCount m la lb) s t ∧ t.hng = { d.hng with reached := t.hng.reached } ∧
        ((∀ r : Nat, past.reachOf d.hng.next = some r → t.hng.reachOf d.hng.next = some r) ∧
          (m = 0 → d.hng.st = .run → bit d.hngCtl 2 = true → 0 < x.pMove → x.segAt ≤ d.cycle → turn = 1 ∨ turn = 3 → past.reachOf d.hng.next = none →
            d.hng.next ≤ t.counted 0 → t.hng.reachOf d.hng.next = some d.cycle)) ∧
        t = { d with hng := t.hng, mot := upd d.mot m fun x => { x with
        encA := la, encB := lb, encErr := x.encErr || turn == 2, lastCount := if turn = 1 ∨ turn = 3 then d.cycle else x.lastCount
        encCnt := if turn = 1 then (if bit ctl 8 then x.encCnt - 1 else x.encCnt + 1)
          else if turn = 3 then (if bit ctl 8 then x.encCnt + 1 else x.encCnt - 1) else x.encCnt } }) ∧
    (d.phase ≠ .inReset → d.phase ≠ .clocks → ∃ t, Completes (.encoderIndex m) s t ∧
      t.mot = upd d.mot m (fun x => { x with idxCnt := x.encCnt }) ∧ t.ev = (d.raise ⟨21 + m.val, by omega⟩ x.encCnt).ev ∧
      t = { d with mot := t.mot, ev := t.ev })

/-- Writes of an axis's registers (08 R192, R195): EN = 0 while the axis moves stops it at once, at the last emitted step or, with none since the last rest and none pending by it (DEDUCED, log 96), at that rest; on M0 in RUN with HNG_CTL.EN set it acts on the Hinge as a stall; the W1C of STALL clears STALLED; SYNC sets p to the counted position and SETPOS sets p and the counted position to MOT_Mm_SETPOS when the axis may, else OPREJ. -/
def Obligations.AxisRegisterCommands : Prop :=
  ∀ (s : State) (w : Master) (m : AxisId) (v : Word),
    let d := s.dev
    let x := d.mot[m]
    (s.mayWrite w (motOff m 0) → bit (d.motReg m 0) 0 = true → d.atRest m = false →
      ∃ t, Completes (.axisDisable w m v) s t ∧ bit (t.motReg m 0) 0 = false ∧ (t.mot[m]).v = 0 ∧ (t.mot[m]).a = 0 ∧ (t.mot[m]).cmd = .none ∧
        (t.mot[m]).p = (if x.stepped = true ∨ (x.restP + d.blNow m) / d.ustep m ≠ x.stepIdx then x.stepIdx * d.ustep m - d.blNow m else x.restP) ∧
        (m = 0 → d.hng.st = .run → bit d.hngCtl 0 = true → t.hng.st = .freezing ∧ t.hng.reason = .stall) ∧
        (∀ k : AxisId, k ≠ m → t.mot[k] = d.mot[k]) ∧ t.ctx = d.ctx ∧ sameBytes d t) ∧
    (s.mayWrite w (motOff m 8) →
      Completes (.stallClear w m) s { d with mot := upd d.mot m fun x => { x with stStall := false, stalled := false } }) ∧
    (s.mayWrite w (motOff m 0x5C) → d.motOpOk m = true →
      (∃ t, Completes (.sync w m) s t ∧ t = { d with mot := t.mot } ∧ (t.mot[m]).p = d.counted m * 65536 ∧ (t.mot[m]).encOrg = x.encOrg ∧
        t.posNow m = d.counted m * 65536 ∧ ∀ k : AxisId, k ≠ m → t.mot[k] = d.mot[k]) ∧
      (∃ t, Completes (.setpos w m) s t ∧ t = { d with mot := t.mot } ∧
        (t.mot[m]).p = pos48 (d.motReg m 0x58) (d.motReg m 0x54) * 65536 ∧ t.counted m = pos48 (d.motReg m 0x58) (d.motReg m 0x54) ∧
        (t.mot[m]).encCnt = x.encCnt ∧ ∀ k : AxisId, k ≠ m → t.mot[k] = d.mot[k])) ∧
    (s.mayWrite w (motOff m 0x5C) → d.motOpOk m = false →
      Completes (.sync w m) s { d with mot := upd d.mot m fun x => { x with opRej := true } } ∧
      Completes (.setpos w m) s { d with mot := upd d.mot m fun x => { x with opRej := true } })

/-- The line store (09 R201, R203, R204, R401): a finished numbered line leaves FILL with the hold mask of LS_HOLD less the channels without it, raises event 8 and takes its place by line number in the list of each PACED holder; a finished guard capture frees its slot; a waiting geometry applies once every slot is FREE; LS_RELEASE clears the named hold bits of a FULL or DRAIN slot and sets RELERR for named bits that are clear; a write of LS_LOWTH arms event 9 by the FREE count. -/
def Obligations.LineStoreCommands : Prop :=
  ∀ (s : State) (m : Master) (v : Word) (n : Fin 256),
    let d := s.dev
    let x := d.ls.slots[n]
    let k : Fin 256 := ⟨fld v 0 8 % 256, Nat.mod_lt _ (by decide)⟩
    let named : BitVec 17 := (v.extractLsb' 16 16).setWidth 17 ||| (if bit v 8 then 1#17 <<< 16 else 0)
    let live : Prop := k.val < d.ls.geom.nslot ∧ ((d.ls.slots[k]).st = .full ∨ (d.ls.slots[k]).st = .drain)
    (d.coreOn = true → n.val < d.ls.geom.nslot → x.st = .fill → x.written = true → d.segsIn s.part x = true →
      (x.kind = .numbered → ∃ t, Completes (.lineStoreComplete n) s t ∧ (t.ls.slots[n]).hold = d.holdMask s.part x ∧
        ((t.ls.slots[n]).st = if d.holdMask s.part x = 0 then (if d.kept s.part x then .pinned else .free) else .full) ∧
        (t.ls.slots[n]).line = x.line ∧ (∀ j : Fin 256, j ≠ n → t.ls.slots[j] = d.ls.slots[j]) ∧
        (∀ c : DmaId, (t.dma[c]).list = if (d.holdMask s.part x).getLsbD c.val && bit (d.dmaCfg c) 0 then insertLine d n (d.dma[c]).list else (d.dma[c]).list) ∧
        (t.ev.src[(8 : Fin 64)]).seq = (d.ev.src[(8 : Fin 64)]).seq + 1 ∧ t.ctx = d.ctx ∧ sameBytes d t) ∧
      (x.kind = .guard → ∃ t, Completes (.lineStoreComplete n) s t ∧ (t.ls.slots[n]).st = .free ∧ t.dma = d.dma ∧ t.hng = d.hng ∧
        (∀ j : Fin 256, j ≠ n → t.ls.slots[j] = d.ls.slots[j]) ∧ t.ctx = d.ctx ∧ sameBytes d t)) ∧
    (d.coreOn = true → ∀ g, d.ls.wait = some g →
      ((∀ j : Fin 256, j.val < d.ls.geom.nslot → (d.ls.slots[j]).st = .free) → ∃ t, Completes .geometryApply s t ∧ t.ls.geom = g ∧
        t.ls.wait = none ∧ t.ls.slots = d.ls.slots ∧ t = { d with ls := t.ls, ev := t.ev }) ∧
      ((∃ j : Fin 256, j.val < d.ls.geom.nslot ∧ (d.ls.slots[j]).st ≠ .free) → Completes .geometryApply s d)) ∧
    (s.mayWrite m 0x70024 → ∃ t, Completes (.lsRelease m v) s t ∧ t = { d with ls := t.ls, ev := t.ev } ∧
      (∀ j : Fin 256, j ≠ k → t.ls.slots[j] = d.ls.slots[j]) ∧
      (live → (t.ls.slots[k]).hold = (d.ls.slots[k]).hold &&& ~~~named ∧
        t.ls.relErr = (d.ls.relErr || decide (named &&& ~~~(d.ls.slots[k]).hold ≠ 0))) ∧
      (¬ live → t.ls.slots[k] = d.ls.slots[k] ∧ t.ls.relErr = (d.ls.relErr || decide (named ≠ 0)))) ∧
    (s.mayWrite m 0x7001C → ∃ t, Completes (.lsLowthWrite m v) s t ∧ t.lowTh = fld v 0 9 ∧
      t = { d with regs := t.regs, ls := { d.ls with lowArmed := decide (fld v 0 9 < d.slotCount .free) } })

/-- CORRELATION_DONE while the correlator runs in GUARD (01 R17, 02 R59, 07 R174): it reads on where the line store grants it and does nothing more while another master's request keeps it waiting; with nothing left to read an accepted result, EDGE 0, mean not 0 and score at SEAM_MIN or above, loads its offsets, a negative vertical one as 0; every other outcome loads zero offsets, marks the seam weak and raises event 16; and the Hinge returns to RUN when the three guard captures have fired. HNG_STR_CFG_WRITE with OPEN = 0 closes its stream as CRED CLOSE does (02 R43). -/
def Obligations.CorrelationAndStreamConfig : Prop :=
  ∀ (s : State) (m : Master) (k : Fin 64) (v : Word),
    let d := s.dev
    let e := d.corrRead s.part fun d age => d.grantable s.part .ls age .corr
    let r := e.corrRun.1
    let good := fun x : CorrRes => x.edge = false ∧ x.flat = false ∧ fld d.hngCtl 24 8 ≤ x.score
    (d.coreOn = true → d.hng.st = .guard → d.hng.corr = .running →
      (e.corrAsks = true → Completes .correlationDone s e) ∧
      (d.corrAsks = true → d.grantable s.part .ls d.pix.corrAsk .corr = false → e = d) ∧ (d.corrAsks = false → e = d) ∧
      (e.corrAsks = false → ∃ t, Completes .correlationDone s t ∧ t.hng.st = (if d.hng.grd = 3 then .run else .guard) ∧ t.hng.lineNo = d.hng.lineNo ∧ t.ctx = d.ctx ∧
        (∀ x, r = some x → good x → t.hng.weak = false ∧ t.hng.voff = BitVec.ofInt 8 (max x.mv 0) ∧ t.hng.hoff = BitVec.ofInt 8 x.mh ∧
          t.hng.score = BitVec.ofNat 8 x.score) ∧
        ((r = none ∨ ∃ x, r = some x ∧ ¬ good x) → t.hng.weak = true ∧ t.hng.voff = 0 ∧ t.hng.hoff = 0 ∧
          (t.ev.src[(16 : Fin 64)]).seq = (e.ev.src[(16 : Fin 64)]).seq + 1))) ∧
    (s.mayWrite m (0x50400 + 16 * k.val) → bit v 0 = false → (d.hng.streams[k]).opened = true →
      ∃ t, Completes (.hngStrCfgWrite m k v) s t ∧ (t.hng.streams[k]).opened = false ∧
        (t.hng.streams[k]).granted = (d.hng.streams[k]).granted - (d.hng.streams[k]).avail ∧ (t.hng.streams[k]).avail = 0 ∧
        (t.hng.streams[k]).delivered = (d.hng.streams[k]).delivered ∧ (t.hng.streams[k]).owner = v.extractLsb' 8 6 ∧
        (∀ j : Fin 64, j ≠ k → t.hng.streams[j] = d.hng.streams[j]) ∧ t = { d with hng := t.hng, ev := t.ev })

/-- Acquisition periods (06 R139, R140, R141, R142, R146, R149, R150). PERIOD_START begins the walk of the active edge table: an entry after clock 0 has no effect yet. PERIOD_END at LEND and PERIOD_TIMEOUT, LTMO microseconds after the trigger, end the period for the port: the FIFO is read out, SHORT is set when pixels (in a digital period too, DESIGN CHOICE, log 84) or the start-of-line code are missing or the period timed out, SOLMISS only while the sensor clock runs (DEDUCED, log 66), and after the last period of a numbered line PORTn_LINE is raised, the line counted and a pending ARM applied; no other port changes, and memory changes in the line's planes alone. PERIOD_TRIGGER starts the next period 25 us or more after the one before, once every port has ended it, with the LED channels of its mask armed. -/
def Obligations.AcquisitionPeriods : Prop :=
  ∀ (s : State) (p : PortId), s.dev.coreOn = true → portPresent s.part p = true →
    let d := s.dev
    let x := d.port[p]
    let blocks := d.blocks d.acq.period
    let used := if d.arr p = 0 then 1#2 else 3#2
    let miss : Bool := decide (x.count 0 < blocks * d.share p 0) || decide (x.count 1 < blocks * d.share p 1)
    let noSol : Bool := d.digital p && x.found &&& used != used
    let last : Prop := d.acq.period + 1 = d.acq.periods
    let ended : Dev → Bool → Prop := fun t late =>
      (t.port[p]).ended = true ∧ (t.port[p]).running = false ∧ (t.port[p]).fifo = [] ∧
      (t.port[p]).short = (x.short || late || noSol || miss) ∧ (t.port[p]).solMiss = (x.solMiss || (noSol && x.ckLock)) ∧ (t.port[p]).ovr = x.ovr ∧
      (last → (t.port[p]).actBank = x.arm.getD x.actBank ∧ (t.port[p]).arm = none) ∧
      (last → d.acq.kind = .numbered → (t.port[p]).lineCnt = x.lineCnt + 1 ∧ (t.ev.src[p.val]).seq = (d.ev.src[p.val]).seq + 1) ∧
      (¬ (last ∧ d.acq.kind = .numbered) → (t.port[p]).lineCnt = x.lineCnt ∧ (t.ev.src[p.val]).seq = (d.ev.src[p.val]).seq) ∧
      (∀ k : PortId, k ≠ p → t.port[k] = d.port[k]) ∧ t.ctx = d.ctx ∧ t.regs = d.regs ∧
      (∀ a : Nat, (∀ n : Fin 256, d.acq.slot = some n → ∀ i < d.npl,
        let b := d.slotBase n.val + i * d.ls.geom.pstr
        let e := d.slotBase n.val + d.npl * d.ls.geom.pstr + i * d.ls.geom.tstr
        (a < b ∨ b + 2 * d.capWidth ≤ a) ∧ (a < e ∨ e + d.capWidth ≤ a)) → t.byte a = d.byte a) ∧
      ((∃ k ∈ d.acq.ports, k ≠ p ∧ (d.port[k]).ended = false) → t.acq.done = d.acq.done ∧ t.ls = d.ls)
    (p ∈ d.acq.ports → d.acq.done = false → x.ended = false → x.running = false → x.ckLock = true →
      ∃ t, Completes (.periodStart p) s t ∧ (t.port[p]).running = true ∧ (t.port[p]).clk = 0 ∧ (t.port[p]).fifo = x.fifo ∧
        (fld (d.edge p x.actBank.val 0) 0 16 ≠ 0 → (t.port[p]).outs = x.outs ∧ (t.port[p]).win = false ∧ (t.port[p]).search = false ∧
          (t.port[p]).lendAt = none ∧ (t.port[p]).edgeErr = x.edgeErr) ∧
        (∀ k : PortId, k ≠ p → t.port[k] = d.port[k]) ∧ t = { d with port := t.port }) ∧
    (d.inPeriod p = true → x.running = true → x.ckLock = true → x.atLend = true → ∃ t, Completes (.periodEnd p) s t ∧ ended t false) ∧
    (d.inPeriod p = true →
      (d.acq.started + d.ltmo p ≤ d.cycle → ∃ t, Completes (.periodTimeout p) s t ∧ ended t true) ∧
      (d.cycle < d.acq.started + d.ltmo p → Completes (.periodTimeout p) s d)) ∧
    (d.acq.done = false → d.acq.period + 1 < d.acq.periods → (∀ k ∈ d.acq.ports, (d.port[k]).ended = true) →
      (d.acq.started + 10000 ≤ d.cycle →
        ∃ t, Completes .periodTrigger s t ∧ t.acq.period = d.acq.period + 1 ∧ t.acq.started = d.cycle ∧
          (∀ k : PortId, if k ∈ d.acq.ports then (t.port[k]).ended = false ∧ (t.port[k]).running = false ∧ (t.port[k]).fifo = []
            else t.port[k] = d.port[k]) ∧
          (∀ k : Fin 4, (t.led[k]).on = false ∧ (t.led[k]).trigAt = d.cycle ∧ (t.led[k]).armed =
            (bit (d.ledReg k 0) 0 && (d.periodLeds (d.acq.period + 1)).testBit k.val && decide (fld (d.ledReg k 8) 0 20 ≠ 0))) ∧
          t = { d with acq := t.acq, port := t.port, led := t.led }) ∧
      (d.cycle < d.acq.started + 10000 → Completes .periodTrigger s d))

/-- Port registers and clocks (01 R25, 06 R138, R141, R142, R147, R148). PORT_ENABLE on a port that is off sets EN when the clock setting and the widths pass, with a pending ARM's bank, else CKERR or WIDTHERR; PORT_DISABLE clears EN and takes effect at once outside a line (DEDUCED, log 77), at the line boundary inside one, and an EN = 1 written before that boundary withdraws it; PLLP_LOCK and SENSOR_CLOCK_LANE set or withdraw CKLOCK by CKSRC; a write of the active bank of an enabled port sets WACT and changes no entry, any other one writes the entry. Each register write takes up the port's crossing. -/
def Obligations.PortRegisterCommands : Prop :=
  ∀ (s : State) (m : Master) (p : PortId) (b : Fin 2) (i : Fin 64) (v : Word) (present : Bool), portPresent s.part p = true →
    let d := s.dev
    let x := d.port[p]
    let e := d.writeReg s.part (portOff p 0) (putBit v 0 true)
    let ck := clockOk (e.portReg p 0) (e.portReg p 8)
    let wd := decide (1 ≤ fld (d.portReg p 4) 0 14) && decide (fld (d.portReg p 4) 0 14 ≤ 12288) &&
      decide (e.portWidth p + e.width ≤ 6144 * s.part.ports)
    let entry := portOff p (0x400 + 0x100 * b.val + 4 * i.val)
    let c := d.cross ⟨p.val, by omega⟩
    (s.mayWrite m (portOff p 0) → bit (d.portReg p 0) 0 = false → x.disPend = false →
      ∃ t, Completes (.portEnable m p v) s t ∧ bit (t.portReg p 0) 0 = (ck && wd) ∧ (t.port[p]).ckErr = (x.ckErr || !ck) ∧
        t.widthErr = (d.widthErr || !wd) ∧ ((ck && wd) = true → (t.port[p]).actBank = x.arm.getD x.actBank ∧ (t.port[p]).arm = none) ∧
        t = { c with regs := t.regs, port := t.port, widthErr := t.widthErr } ∧ ∀ k : PortId, k ≠ p → t.port[k] = d.port[k]) ∧
    (s.mayWrite m (portOff p 0) → bit (d.portReg p 0) 0 = true →
      ∃ t, Completes (.portDisable m p v) s t ∧ bit (t.portReg p 0) 0 = false ∧ t = { c with regs := t.regs, port := t.port } ∧
        t.port = upd d.port p fun x => if p ∈ d.acq.ports ∧ d.acq.done = false then { x with disPend := true }
          else { x with disPend := false, outs := 0, ckLock := false }) ∧
    (s.mayWrite m (portOff p 0) → bit (d.portReg p 0) 0 = false → x.disPend = true →
      ∃ t, Completes (.portEnable m p v) s t ∧ bit (t.portReg p 0) 0 = true ∧
        t = { c with regs := t.regs, port := upd d.port p fun x => { x with disPend := false } }) ∧
    (d.coreOn = true → d.portOn p = true → bit (d.portReg p 0) 6 = false →
      Completes (.pllpLock p) s { d with port := upd d.port p fun x => { x with ckLock := true } }) ∧
    (d.phase ≠ .inReset → d.phase ≠ .clocks →
      Completes (.sensorClockLane p present) s { d with port := upd d.port p fun x => { x with
        ckLane := present, ckLock := if d.portOn p && bit (d.portReg p 0) 6 then present else x.ckLock } }) ∧
    (s.mayWrite m entry →
      ((bit (d.portReg p 0) 0 = true ∧ x.actBank = b) →
        Completes (.portEdgeWrite m p b i v) s { c with port := upd d.port p fun x => { x with wact := true } }) ∧
      (¬ (bit (d.portReg p 0) 0 = true ∧ x.actBank = b) → ∃ t, Completes (.portEdgeWrite m p b i v) s t ∧
        t.reg entry = (d.reg entry &&& ~~~0x81F7FFFF) ||| (v &&& 0x81F7FFFF) ∧ t = { c with regs := t.regs }))

/-- LED pulses and pixel intake (06 R135, R136, R140, R151, R152, R153, R154, 07 R156, R157). An armed channel drives its gate START cycles after the trigger where the outputs are driven, START and WIDTH being read as they stand when they fall due (DESIGN CHOICE, log 98); the sample at mid-pulse is kept, shown in MEAS, and HEADROOM is set when the drain is too low; WIDTH cycles after its start the pulse ends and the loop moves GCODE by the error over 2^GAIN toward zero within 0 to 1023, or SHORTP is set for a pulse under 160 cycles without a sample; before those cycles nothing changes. One analogue pixel clock inside the window of a port in SINGLE arrangement, no edge standing in it, appends the converted code, of the clamp level where CP is at 1, to the port FIFO. PIPELINE_PIXELS takes codes from the front of the FIFO, and a code's gain output is ((16 c - D) G + 32768) / 65536 rounded down. -/
def Obligations.LedPulsesAndPixels : Prop :=
  ∀ (s : State) (k : Fin 4) (p : PortId) (isns : BitVec 10) (dsns take : Nat) (v : Vid), s.dev.coreOn = true →
    let d := s.dev
    let l := d.led[k]
    let x := d.port[p]
    let ctl := d.ledReg k 0
    let start := l.trigAt + fld (d.ledReg k 4) 0 20
    let width := fld (d.ledReg k 8) 0 20
    (l.armed = true → d.driven = true → start ≤ d.cycle →
      Completes (.ledPulseStart k) s { d with led := upd d.led k fun l => { l with on := true, armed := false, sampled := none } }) ∧
    (d.cycle < start → Completes (.ledPulseStart k) s d ∧ Completes (.ledSample k isns dsns) s d ∧ Completes (.ledPulseEnd k) s d) ∧
    (l.on = true → l.sampled = none → 160 ≤ width → start + width / 2 ≤ d.cycle →
      Completes (.ledSample k isns dsns) s { d with led := upd d.led k fun l => { l with
        sampled := some isns.toNat, meas := isns.toNat
        headroom := l.headroom || decide (dsns < 200 + 100 * min (fld ctl 4 4) 8) } }) ∧
    (l.on = true → start + width ≤ d.cycle → ∀ y, l.sampled = some y →
      let g := (clampI 0 1023 ((l.gcode : Int) + ((fld ctl 8 10 : Int) - y).tdiv (2 ^ fld ctl 1 3))).toNat
      Completes (.ledPulseEnd k) s { d with led := upd d.led k fun l => { l with
        on := false, armed := false, sampled := none, gcode := g, sat := l.sat || (g == 1023 && decide (y < fld ctl 8 10)) } }) ∧
    (l.on = true → start + width ≤ d.cycle → l.sampled = none →
      Completes (.ledPulseEnd k) s { d with led := upd d.led k fun l => { l with
        on := false, armed := false, sampled := none, shortp := l.shortp || decide (width < 160) } }) ∧
    (d.cycle < start + width → Completes (.ledPulseEnd k) s d) ∧
    (p ∈ d.acq.ports → d.acq.done = false → ∃ t, Completes (.pipelinePixels p [] take) s t ∧
      t.port[p] = { x with fifo := x.fifo.drop take, got := (t.port[p]).got } ∧
      (∀ j : Fin 2, (t.port[p]).got[j] = x.got[j] + ((x.fifo.take take).filter fun c => c / 2 ^ 14 % 2 == j.val).length) ∧
      (∀ q : PortId, q ≠ p → t.port[q] = d.port[q]) ∧ t.ctx = d.ctx ∧ t.regs = d.regs ∧ t.hng = d.hng ∧
      ∀ (c : Nat) (rest : List Nat), x.fifo = c :: rest → take = 1 → c < 2 ^ 14 → d.arr p = 0 → d.parallel = false →
        d.blocks d.acq.period = 1 → x.got[(0 : Fin 2)] < d.share p 0 →
        let i := d.acq.period - d.lag
        let at_ := d.portFrom p + x.got[(0 : Fin 2)]
        let id := d.planeId i
        let D := if bit (d.plCtl id) 0 then (d.coef id at_).1 else 0
        let G := if bit (d.plCtl id) 1 then (d.coef id at_).2 else 16384
        d.acq.gains.lookup (pixKey i at_) = none →
        t.acq.gains.lookup (pixKey i at_) = some (((16 * (c : Int) - D) * G + 32768) / 65536)) ∧
    (x.running = true → x.ckLock = true → x.walked = true → x.winNext = none → x.atLend = false → x.win = true →
      d.inputsOn = true → d.digital p = false → d.arr p = 0 →
      ¬ (d.blocks d.acq.period ≠ 0 ∧ d.blocks d.acq.period * d.share p 0 ≤ x.count 0) → (x.fifo.filter fun c => c < 2 ^ 15).length < 128 →
      let level (u : Int) : Int := if x.outs.getLsbD 1 then (fld (d.portReg p 0xC) 24 8 * 15625 : Nat) else 2 * u
      Completes (.pipelinePixels p [v] 0) s { d with port := upd d.port p fun x => { x with
        clk := x.clk + 1, fifo := x.fifo ++ [d.adc p 0 (level v.ra) (level v.da)] } })

/-- Starts, rings and aborts of a DMA channel the part has, by its registers (09 R205, R212, R213, R216, R217). A write of GO = 1 starts an IDLE channel in register mode, to LINEWAIT when PACED, else to RUN once the checks pass, and only sets GO of a busy one; GO = 0 takes a paced register-mode channel to IDLE now or when it next reaches LINEWAIT; a non-zero HEAD starts an IDLE channel in chain mode; DRING acts by the channel's state (DEDUCED, log 67: a channel that its descriptor read has frozen in FETCH latches the ring, and one that goes back from IDLE to its tail shows TAILWAIT); ABORT takes the channel to IDLE with CUT, and the bound line and every line of its list lose their hold bit; in RUN of a chain it puts out w7 with CUT, which its port accepts as it accepts every beat (01 R17). -/
def Obligations.DmaChannelCommands : Prop :=
  ∀ (s : State) (m : Master) (n : DmaId) (v : Word), dmaPresent s.part n = true →
    let d := s.dev
    let x := d.dma[n]
    (s.mayWrite m (dmaOff n 0) →
      (d.dmaIdle n = true → ∃ t, Completes (.dmaGo m n v) s t ∧ bit (t.dmaReg n 0) 0 = true ∧ (t.dma[n]).chain = false ∧
        t.dmaReg n 0 &&& 0xFFFE = v &&& 0xFFFE ∧ (∀ k : DmaId, k ≠ n → t.dma[k] = d.dma[k]) ∧ t.ctx = d.ctx ∧
        (d.paced n = true → (t.dma[n]).st = .lineWait ∧ t = { d with regs := t.regs, dma := t.dma }) ∧
        (d.paced n = false → t.dmaCheck s.part n (t.regWords n) = none →
          (∀ a ∈ (t.xferOf n (t.regWords n)).reads 0 ((t.dma[n]).chunk s.part (t.xferOf n (t.regWords n))).1, reaches (.dma n) (regionOf s.part a) = true) →
          (t.dma[n]).st = .run ∧ (t.dma[n]).desc = some (t.regWords n) ∧ (t.dma[n]).done = 0 ∧ t = { d with regs := t.regs, dma := t.dma })) ∧
      (x.st ≠ .idle → ∃ t, Completes (.dmaGo m n v) s t ∧ t.dmaReg n 0 = d.dmaReg n 0 ||| 1 ∧ t = { d with regs := t.regs }) ∧
      (∃ t, Completes (.goClear m n v) s t ∧ bit (t.dmaReg n 0) 0 = false ∧ t = { d with regs := t.regs, dma := t.dma } ∧
        t.dma = if x.chain = true ∨ d.paced n = false ∨ x.st = .idle then d.dma
          else upd d.dma n fun x => if x.st = .lineWait then { x with st := .idle } else { x with goClear := true })) ∧
    (s.mayWrite m (dmaOff n 0x14) → d.dmaIdle n = true → v ≠ 0 →
      ∃ t, Completes (.dmaHeadWrite m n v) s t ∧ t.dmaReg n 0x14 = v &&& 0xFFFFFFE0 ∧ (t.dma[n]).chain = true ∧
        (t.dma[n]).nextAt = v &&& 0xFFFFFFE0 ∧ ((t.dma[n]).st = if d.paced n then .lineWait else .fetch) ∧
        (∀ k : DmaId, k ≠ n → t.dma[k] = d.dma[k]) ∧ t = { d with regs := t.regs, dma := t.dma }) ∧
    (s.mayWrite m (dmaOff n 0x28) → Completes (.dmaDringWrite m n v) s { d with dma := upd d.dma n fun x =>
      if x.st = .run ∨ (x.st = .fetch ∧ d.frozen (.dma n) = true) then { x with ringLat := true }
      else if x.st = .tailWait then { x with reread := true, askAt := if x.reread then x.askAt else d.cycle }
      else if x.st = .idle ∧ x.atTail = true then { x with st := .tailWait, reread := true, askAt := d.cycle } else x }) ∧
    (s.mayWrite m (dmaOff n 0x2C) →
      ∃ t, Completes (.dmaAbort m n) s t ∧ (t.dma[n]).st = .idle ∧ (t.dma[n]).cut = true ∧ (t.dma[n]).bound = none ∧ (t.dma[n]).list = [] ∧
        (t.dma[n]).buf = [] ∧ (t.dma[n]).done = x.done ∧ (t.dma[n]).abandon = (x.abandon || x.bound.isSome || !x.list.isEmpty) ∧
        (∀ k ∈ x.bound.toList ++ x.list, (t.ls.slots[k]).hold.getLsbD n.val = false) ∧ (∀ k : DmaId, k ≠ n → t.dma[k] = d.dma[k]) ∧
        t.ctx = d.ctx ∧ sameBytes d t ∧
        t.late = d.late ++ (if x.st = .run ∧ x.chain = true then
          [⟨.dma n, portOf (regionOf s.part (x.cur.toNat + 28)), x.cur.toNat + 28, wordBytes (place (x.done % 2 ^ 28) 0 ||| flag true 29), d.cycle⟩] else []))

/-- Descriptors and lines of a DMA channel the part has, in RUN of the part and not frozen (01 R17, 09 R207, R210, R212, R215, R218, 10 R240): binding the oldest line of the list; the fetch of a descriptor within one window that grants R and W, once its port grants it, and the freeze of a channel without such a window; completion with w7, once its port grants that and the framer has room for the end of the line, event 36 and the next state; the end of the tail's wait and the re-read that follows NEXT or goes to IDLE with TAILIDLE; and a whole egress beat accepted into staging, or left waiting without room. -/
def Obligations.DmaDescriptorSteps : Prop :=
  ∀ (s : State) (n : DmaId), s.dev.coreOn = true → dmaPresent s.part n = true → s.dev.frozen (.dma n) = false →
    let d := s.dev
    let x := d.dma[n]
    let a := x.nextAt.toNat
    let w : Vector Word 7 := #v[d.word a, d.word (a + 4), d.word (a + 8), d.word (a + 12), d.word (a + 16), d.word (a + 20), d.word (a + 24)]
    (∀ l r, x.st = .lineWait → x.list = l :: r → ∃ t, Completes (.dmaLineBind n) s t ∧ (t.dma[n]).bound = some l ∧ (t.dma[n]).list = r ∧
      (x.chain = true → (t.dma[n]).st = .fetch ∧ t = { d with dma := t.dma }) ∧
      (x.chain = false → t.dmaCheck s.part n (t.regWords n) = none →
        (∀ a ∈ (t.xferOf n (t.regWords n)).reads 0 ((t.dma[n]).chunk s.part (t.xferOf n (t.regWords n))).1, reaches (.dma n) (regionOf s.part a) = true) →
        (t.dma[n]).st = .run ∧ t = { d with dma := t.dma }) ∧
      ∀ k : DmaId, k ≠ n → t.dma[k] = d.dma[k]) ∧
    (x.st = .fetch → reaches (.dma n) (regionOf s.part a) = true →
      (d.dmaGranted s.part n = true → d.dmaOutside n [0, 1] a 32 = none → (∀ i : Fin 7, regionOf s.part (a + 4 * i.val) ≠ .lsAbsent) → d.eccBad s.part a 32 = false → d.dmaCheck s.part n w = none →
        (∀ b ∈ (d.xferOf n w).reads 0 (({ x with done := 0, buf := [], seen := [] } : Chan).chunk s.part (d.xferOf n w)).1, reaches (.dma n) (regionOf s.part b) = true) →
        ∃ t, Completes (.descriptorFetch n) s t ∧ (t.dma[n]).desc = some w ∧ (t.dma[n]).st = .run ∧ (t.dma[n]).cur = x.nextAt ∧
          (t.dma[n]).done = 0 ∧ (t.dma[n]).ringLat = false ∧ t.ctx = d.ctx ∧ sameBytes d t) ∧
      (d.dmaOutside n [0, 1] a 32 ≠ none →
        ∃ t, Completes (.descriptorFetch n) s t ∧ t.frozen (.dma n) = true ∧ (t.dma[n]).desc = none ∧ t.ctx = d.ctx)) ∧
    (∀ k, x.st = .run → x.desc = some k → x.burst = 0 → (x.done < (d.xferOf n k).size ∨ d.endRoom n k = false ∨ d.dmaGranted s.part n = false) →
      Completes (.descriptorComplete n) s d) ∧
    (∀ k, x.st = .run → x.desc = some k → (d.xferOf n k).size ≤ x.done → x.burst = 0 → d.dmaGranted s.part n = true → d.endRoom n k = true →
      ∃ t, Completes (.descriptorComplete n) s t ∧ t.ctx = d.ctx ∧
        (x.chain = true → sameBytesBut d t (x.cur.toNat + 28) 4 ∧ (regionOf s.part (x.cur.toNat + 28) ≠ .lsAbsent →
          t.word (x.cur.toNat + 28) = place (x.done % 2 ^ 28) 0 ||| flag true 28)) ∧
        (x.chain = false → sameBytes d t ∧ (d.paced n = false → (t.dma[n]).st = .idle)) ∧
        (x.chain = true → bit k[0] 0 = true → (t.dma[n]).st = .tailWait ∧ (t.dma[n]).reread = x.ringLat) ∧
        (x.chain = true → bit k[0] 0 = false → (t.dma[n]).nextAt = k[0] &&& 0xFFFFFFE0 ∧
          ((t.dma[n]).st = if d.paced n ∧ bit k[4] 13 = true then .lineWait else .fetch)) ∧
        (t.ev.src[(36 : Fin 64)]).seq = (d.ev.src[(36 : Fin 64)]).seq + (if bit k[4] 15 then 1 else 0) ∧
        (∀ l, x.bound = some l → d.paced n = true → x.chain = false ∨ bit k[4] 13 = true →
          (t.dma[n]).bound = none ∧ (t.ls.slots[l]).hold.getLsbD n.val = false)) ∧
    (x.st = .tailWait → x.reread = false →
      Completes (.tailWaitExpiry n) s { d with dma := upd d.dma n fun x => { x with reread := true, askAt := d.cycle } }) ∧
    (x.st ≠ .tailWait ∨ x.reread = true → Completes (.tailWaitExpiry n) s d) ∧
    (x.st = .tailWait → x.reread = true → d.dmaGranted s.part n = true → x.chain = true → d.eccBad s.part x.cur.toNat 4 = false →
      regionOf s.part x.cur.toNat ≠ .lsAbsent →
      ∃ t, Completes (.tailReread n) s t ∧ t.ctx = d.ctx ∧ sameBytes d t ∧
        (bit (d.word x.cur.toNat) 0 = true → (t.dma[n]).st = .idle ∧ (t.dma[n]).tailIdle = true ∧ (t.dma[n]).list = x.list ∧
          (t.ev.src[(38 : Fin 64)]).seq = (d.ev.src[(38 : Fin 64)]).seq + 1) ∧
        (bit (d.word x.cur.toNat) 0 = false → (t.dma[n]).nextAt = d.word x.cur.toNat &&& 0xFFFFFFE0 ∧
          ((t.dma[n]).st = if d.paced n ∧ bit x.ctl4 13 = true then .lineWait else .fetch))) ∧
    (∀ k l q at_ bs rest, x.st = .run → x.desc = some k → x.bound = some l → x.burst = 0 → x.shut ≠ some l →
      let xf := d.xferOf n k
      let y : Chan := { x with done := x.done + bs.length, buf := x.buf.drop bs.length }
      d.framed s.part n xf x.done = true → x.wholeBeats xf = (at_, bs) :: rest → inCascade (xf.rangeOf x.done) = false →
      d.chanStream n = some q → d.kl.opened.lookup q.val = none →
      (∀ a ∈ xf.reads y.gotten (y.chunk s.part xf).1, reaches (.dma n) (regionOf s.part a) = true) →
      (∀ i < y.buf.length, d.framed s.part n xf (y.done + i) = false → reaches (.dma n) (regionOf s.part (xf.dstAt (y.done + i))) = true) →
      let room := d.stagedOf q.val + bs.length ≤ d.stageLimit ∧ d.stagedAll + 32 + bs.length < 65536
      bs.length < d.payCap (d.lineLink s.part) - 32 →
      (room →
        ∃ t o, Completes (.egressBeatAccept n) s t ∧ (t.dma[n]).done = y.done ∧ (t.dma[n]).buf = y.buf ∧
          t.kl.opened.lookup q.val = some o ∧ o.bytes = bs ∧ o.chan = n ∧ o.slot = l ∧ o.fragOff = 0 ∧ t.ctx = d.ctx ∧ sameBytes d t) ∧
      (¬ room → Completes (.egressBeatAccept n) s d))

/-- Bring-up of a link to LOCK (10 R225, R227, R228, R229): PLLL_LOCK and EN start a present, enabled link in DETECT at its highest rate, not in RECOVERY, and a link that leaves DEEP sends WAKE once PLL-L has locked (10 R247); EN = 0 disables it, with event 40 from ACTIVE or DEEP; the partner's answer starts TRAIN, whose groups of a TRAIN block and PRBS31 data blocks go out unscrambled on each lane that trains (the PRBS31 polynomial and its state are log 14's); a TRAIN block of the link's rate sets the partner's READY and steps the FFE, which stays at its default under EQDEF = 1 (17 R387), one that fails its check or names another rate counts in CBERR; ADAPTED sends READY; 1 ms with both READY leads to LOCK, with block lock kept; a timeout goes back to DETECT one rate lower, the ninth in a row to FAULT. -/
def Obligations.LinkBringUp : Prop :=
  ∀ (s : State) (k : LinkId) (n : LaneId) (b : Block) (m : Master) (v : Word),
    let d := s.dev
    let l := d.kl.links[k]
    let x := d.kl.lanes[n]
    let j := laneLink n
    let starts := fun i : LinkId => (d.kl.links[i]).st = .disabled ∧ linkPresent s.part i = true ∧ d.recovery = false ∧ ¬ (i = 1 ∧ d.pairRole s.part = true)
    let group := fun (i : LaneId) (rdy : Byte) (r : Nat) =>
      Out.group i (codeBlock false i 0 (true, ctlBlock 0x2D [rdy, BitVec.ofNat 8 r, BitVec.ofNat 8 (ffeOctet (Config.ffeRequest d.out.length)), BitVec.ofNat 8 i.val, 0])).1
        (Config.prbsState d.out.length)
    (d.coreOn = true → (∃ i : LinkId, linkPresent s.part i = true ∧ bit (d.lkCfg i) 0 = true) → (∀ i : LinkId, (d.kl.links[i]).wakeDue = false) →
      ∃ t, Completes .plllLock s t ∧ t = { d with kl := t.kl } ∧ t.kl.pll = true ∧
        ∀ i : LinkId, (starts i ∧ bit (d.lkCfg i) 0 = true → (t.kl.links[i]).st = .detect ∧ (t.kl.links[i]).rate = d.rateMax i) ∧
          (¬ (starts i ∧ bit (d.lkCfg i) 0 = true) → t.kl.links[i] = d.kl.links[i])) ∧
    (d.coreOn = true → linkPresent s.part k = true → l.st = .lock → l.resuming = true → l.wakeDue = true →
      (d.kl.lanes[firstLane k]).blockLock = false → (∀ i : LinkId, i ≠ k → (d.kl.links[i]).wakeDue = false ∧ bit (d.lkCfg i) 0 = false) →
      Completes .plllLock s { d.sendWake k with kl := { (d.sendWake k).kl with pll := true } }) ∧
    (s.mayWrite m (linkOff k 0) → linkPresent s.part k = true →
      ∃ t, Completes (.klLinkEnWrite m k v) s t ∧ bit (t.lkCfg k) 0 = bit v 0 ∧ (∀ i : LinkId, i ≠ k → t.kl.links[i] = d.kl.links[i]) ∧
        (bit v 0 = true → starts k → d.kl.pll = true → (t.kl.links[k]).st = .detect ∧ (t.kl.links[k]).rate = t.rateMax k ∧ t.ev = d.ev) ∧
        (bit v 0 = false → l.st ≠ .disabled → (t.kl.links[k]).st = .disabled ∧
          (t.ev.src[(40 : Fin 64)]).seq = (d.ev.src[(40 : Fin 64)]).seq + (if l.up then 1 else 0)) ∧
        t.ctx = d.ctx ∧ sameBytes d t) ∧
    (d.coreOn = true → l.st = .detect → Completes (.detectStep k) s { d with out := d.out ++ [.detect k] }) ∧
    (d.coreOn = true → l.st = .detect → ∃ t, Completes (.partnerDetected k) s t ∧ t = { d with kl := t.kl, out := t.out } ∧ (t.kl.links[k]).st = .train ∧
      (d.out ++ [group (firstLane k) 0 l.rate]) <+: t.out ∧ t.out.length = d.out.length + (d.trainLanes s.part k).length ∧
      (t.kl.links[k]).rate = l.rate ∧ (t.kl.lanes[firstLane k]).detected = true ∧ (t.kl.lanes[firstLane k]).ready = false ∧
      (t.kl.lanes[firstLane k]).prbsErr = 0 ∧ (d.eqDef k = true → (t.kl.lanes[firstLane k]).eq = 0x800)) ∧
    (d.coreOn = true → lanePresent s.part n = true → (d.kl.links[j]).st = .train →
      (blockGood b = true → octet b 0 = 0x2D → (octet b 2).toNat = (d.kl.links[j]).rate → Completes (.trainBlockReceive n b) s
        { d with kl := { d.kl with lanes := upd d.kl.lanes n fun x => { x with
          signal := true, partnerReady := (octet b 1).getLsbD 0, eq := if d.eqDef j then x.eq else ffeTake x.eq (octet b 3) } } }) ∧
      (blockGood b = false ∨ octet b 0 = 0x2D ∧ (octet b 2).toNat ≠ (d.kl.links[j]).rate → ∃ t, Completes (.trainBlockReceive n b) s t ∧ (t.kl.lanes[n]).cbErr = satAdd x.cbErr 1 ∧
        (t.kl.lanes[n]).partnerReady = x.partnerReady ∧ t.ctx = d.ctx ∧ sameBytes d t) ∧
      (∃ t, Completes (.laneAdapted n) s t ∧ t = { d with kl := t.kl, free := d.free + 4, out := t.out } ∧ (t.kl.lanes[n]).adapted = true ∧
        t.out = d.out ++ [group n 1 (d.kl.links[j]).rate] ∧ (t.kl.lanes[n]).hdrErr = satAdd x.hdrErr (Config.lineErrors d.free) ∧
        (t.kl.lanes[n]).ready = true ∧ t.kl.links = d.kl.links ∧ (d.eqDef j = true → (t.kl.lanes[n]).eq = x.eq))) ∧
    (d.coreOn = true → l.st = .train →
      ((d.kl.lanes[firstLane k]).ready = true → (d.kl.lanes[firstLane k]).partnerReady = true →
        ∃ t, Completes (.train1msReached k) s t ∧ t = { d with kl := t.kl, free := t.free } ∧ (t.kl.links[k]).st = .lock ∧ (t.kl.links[k]).rate = l.rate ∧
          (t.kl.links[k]).resuming = false ∧ (t.kl.lanes[firstLane k]).blockLock = (d.kl.lanes[firstLane k]).blockLock) ∧
      (∃ t, Completes (.trainTimeout k) s t ∧ ((t.kl.links[k]).st = if 8 ≤ l.ladder then .fault else .detect) ∧
        (t.kl.links[k]).ladder = min 9 (l.ladder + 1) ∧ (t.kl.links[k]).rate = (if l.rate = 0 then d.rateMax k else l.rate - 1) ∧
        (l.ladder < 8 → t.ev = d.ev) ∧ (∀ i : LinkId, i ≠ k → t.kl.links[i] = d.kl.links[i]) ∧ t.ctx = d.ctx ∧ sameBytes d t))

/-- From LOCK to ACTIVE (10 R224, R229, R230, R231, R232, R237): block lock is gained wherever the receiver takes blocks, or after 1 ms without it the link goes back to DETECT; 64 valid IDLE blocks lead to EXCHANGE with the allocations of this moment, where the device sends its own CAP sequence on the first lane; a CAP sequence of 41 words whose CRC holds is taken, and with the partner's RXOK the link is ACTIVE, its transmit books at the partner's allocations, data VCs at 0 on a limited link, with event 39; another sequence changes nothing; EXCHANGE without end goes back to DETECT. -/
def Obligations.LinkToActive : Prop :=
  ∀ (s : State) (k : LinkId) (n : LaneId) (hl1 : Bool) (ws : List Word) (crc : Word) (last : Byte), s.dev.coreOn = true →
    let d := s.dev
    let l := d.kl.links[k]
    let good : Prop := ws.length = 41 ∧ crc32 (ws.flatMap wordBytes) = crc
    let lim : Bool := d.limits (ws.getD 0 0) || last.getLsbD 1
    (lanePresent s.part n = true → (d.kl.links[laneLink n]).receives = true →
      (d.kl.links[laneLink n]).resuming = false →
      ∃ t, Completes (.blockLockGain n) s t ∧ t = { d with kl := t.kl, free := d.free + 3 } ∧ t.kl.links = d.kl.links ∧
        (t.kl.lanes[n]).blockLock = true ∧ (∀ i : LaneId, i ≠ n → t.kl.lanes[i] = d.kl.lanes[i])) ∧
    (l.st = .lock → l.resuming = false →
      ((d.kl.lanes[firstLane k]).blockLock = false → ∃ t, Completes (.lockTimeout k) s t ∧ t = { d with kl := t.kl, free := t.free } ∧
        (t.kl.links[k]).st = .detect ∧ (t.kl.links[k]).rate = l.rate ∧ (t.kl.links[k]).ladder = l.ladder) ∧
      ((d.kl.lanes[firstLane k]).blockLock = true → ∃ t, Completes (.validIdleBlocks k hl1) s t ∧ (t.kl.links[k]).st = .exchange ∧
        (t.kl.links[k]).two = (hl1 && k == 0 && bit (d.lkCfg 0) 3 && s.part.lanes == 2 && (d.kl.lanes[(1 : LaneId)]).blockLock && !l.skewErr) ∧
        (∀ v : Fin 65, ((t.kl.links[k]).books[v]).own = d.ownAlloc s.part k v.val ∧ ((t.kl.links[k]).books[v]).avail = 0) ∧
        (∃ bs, t.out = d.out ++ [.caps k bs] ∧ bs.map (fun x => (x.lane, x.ctl, x.payload)) = (t.capBlocks s.part k).map fun x => (firstLane k, true, x)) ∧
        t.ctx = d.ctx ∧ t.ev = d.ev ∧ sameBytes d t)) ∧
    (l.st = .exchange →
      (good → ∃ t, Completes (.capSequenceReceive k ws crc last) s t ∧ (t.kl.links[k]).pver = ws.getD 0 0 ∧ (t.kl.links[k]).pmax = ws.getD 1 0 ∧
        (t.kl.links[k]).psup = ws.getD 2 0 ∧ (t.kl.links[k]).plnk = ws.getD 3 0 ∧ (t.kl.links[k]).limited = lim ∧ t.ctx = d.ctx ∧ sameBytes d t ∧
        (∃ bs, t.out = d.out ++ [.caps k bs]) ∧
        (last.getLsbD 0 = false → (t.kl.links[k]).st = .exchange ∧ (t.kl.links[k]).rxok = true ∧ t.ev = d.ev) ∧
        (last.getLsbD 0 = true → (t.kl.links[k]).st = .active ∧ (t.ev.src[(39 : Fin 64)]).seq = (d.ev.src[(39 : Fin 64)]).seq + 1 ∧
          ∀ v : Fin 65, ((t.kl.links[k]).books[v]).avail = (if lim = true ∧ v ≠ 64 then 0 else capAlloc ws v.val))) ∧
      (¬ good → Completes (.capSequenceReceive k ws crc last) s d) ∧
      (∃ t, Completes (.exchangeTimeout k) s t ∧ t = { d with kl := t.kl, free := t.free } ∧ (t.kl.links[k]).st = .detect ∧ (t.kl.links[k]).rate = l.rate))

/-- Loss, DEEP and the link's commands (10 R224, R229, R244, R246, R247, 14 R326). RESTART or DISABLE of a resuming link raises no event 40 (DEDUCED, log 78), and CMD.DISABLE leaves EN as written (DEDUCED, log 42). A used lane of an ACTIVE link that loses block lock or its signal takes the link to DETECT with event 40; a DEEP REQ is acknowledged into DEEP, or refused under DEEPNAK; ACK of an own request leads to DEEP and NAK ends it, each with event 42; a signal on a DEEP lane wakes the link into a resuming LOCK, where WAKE goes out once PLL-L runs and from which WAKE blocks on locked lanes make it ACTIVE again and a timeout leads to DETECT; RESTART, DEEP, WAKE, DISABLE and CLRCNT act as their names say. -/
def Obligations.LinkLossDeepAndCommands : Prop :=
  ∀ (s : State) (k : LinkId) (n : LaneId) (b : Block) (m : Master),
    let d := s.dev
    let l := d.kl.links[k]
    let j := laneLink n
    let y := d.kl.links[j]
    let seq := fun (t : Dev) (i : Fin 64) => (t.ev.src[i]).seq
    let quiet := ∀ f ∈ d.kl.staged, f.link ≠ j
    (d.coreOn = true → lanePresent s.part n = true → y.st = .active → n ∈ d.usedLanes j →
      ((d.kl.lanes[n]).blockLock = true → ∃ t, Completes (.blockLockLoss n) s t ∧ (t.kl.links[j]).st = .detect ∧ (t.kl.links[j]).rate = d.rateMax j ∧
        (t.kl.lanes[n]).blockLock = false ∧ seq t 40 = seq d 40 + 1 ∧ t.ctx = d.ctx ∧ t.kl.staged = d.kl.staged ∧ sameBytes d t) ∧
      (∃ t, Completes (.squelchClose n) s t ∧ (t.kl.links[j]).st = .detect ∧ (t.kl.lanes[n]).signal = false ∧ seq t 40 = seq d 40 + 1 ∧
        t.ctx = d.ctx ∧ t.kl.staged = d.kl.staged ∧ sameBytes d t)) ∧
    (d.phase = .run → lanePresent s.part n = true → y.st = .deep → n ∈ d.usedLanes j → ∃ t, Completes (.squelchOpen n) s t ∧ (t.kl.links[j]).st = .lock ∧
      (t.kl.links[j]).resuming = true ∧ (t.kl.lanes[n]).signal = true ∧ t = { d with kl := t.kl, out := t.out } ∧
      t.out = (if d.kl.pll then (d.sendWake j).out else d.out) ∧ (t.kl.links[j]).wakeDue = !d.kl.pll) ∧
    (d.phase = .standby → lanePresent s.part n = true → y.st = .deep → bit (d.reg 0xD0000) 2 = true → ∃ t, Completes (.squelchOpen n) s t ∧ t.phase = .waking ∧
      t.pwr.wakeSrc = 4 ∧ t.ctx = d.ctx ∧ sameBytes d t) ∧
    (d.coreOn = true → lanePresent s.part n = true → y.st = .active → blockGood b = true → octet b 0 = 0x55 → quiet →
      (octet b 1 = 0 → y.deepReq = false → bit (d.lkCfg j) 4 = true →
        Completes (.deepReq n b) s (d.sendStream j [ctlBlock 0x55 [2]])) ∧
      (octet b 1 = 0 → y.deepReq = false → bit (d.lkCfg j) 4 = false → ∃ t, Completes (.deepReq n b) s t ∧ (t.kl.links[j]).st = .deep ∧
        seq t 42 = seq d 42 + 1 ∧ (t.kl.links[j]).books = y.books ∧ t.out = (d.sendStream j (ctlBlock 0x55 [1] :: List.replicate 16 (ctlBlock 0x1E []))).out ∧ t.ctx = d.ctx) ∧
      (octet b 1 = 1 → y.deepReq = true → ∃ t, Completes (.deepAck n b) s t ∧ (t.kl.links[j]).st = .deep ∧ seq t 42 = seq d 42 + 1 ∧
        (t.kl.links[j]).books = y.books ∧ t.ctx = d.ctx ∧ sameBytes d t) ∧
      (octet b 1 = 2 → y.deepReq = true → ∃ t, Completes (.deepNak n b) s t ∧ (t.kl.links[j]).st = .active ∧ (t.kl.links[j]).deepReq = false ∧
        seq t 42 = seq d 42 + 1 ∧ (d.phase ≠ .entering → t.ctx = d.ctx ∧ sameBytes d t))) ∧
    (d.coreOn = true → lanePresent s.part n = true → y.st = .lock → y.resuming = true → d.kl.pll = true → blockGood b = true → octet b 0 = 0x66 ∨ octet b 0 = 0x1E →
      (∀ i ∈ d.usedLanes j, (d.kl.lanes[i]).blockLock = true ∧ (i ≠ n → (d.kl.lanes[i]).woke = true)) →
      ∃ t, Completes (.wakeBlockReceive n b) s t ∧ (t.kl.links[j]).st = .active ∧ (t.kl.links[j]).resuming = false ∧ (t.kl.lanes[n]).woke = true ∧
        seq t 39 = seq d 39 + 1 ∧ t.ctx = d.ctx ∧ sameBytes d t) ∧
    (d.coreOn = true → l.resuming = true → ∃ t, Completes (.deepExitTimeout k) s t ∧ (t.kl.links[k]).st = .detect ∧
      (t.kl.links[k]).resuming = false ∧ seq t 40 = seq d 40 + 1 ∧ t.ctx = d.ctx ∧ sameBytes d t) ∧
    (s.mayWrite m (linkOff k 4) → linkPresent s.part k = true →
      (l.st ≠ .disabled → ∃ t, Completes (.restart m k) s t ∧ (t.kl.links[k]).st = .detect ∧ (t.kl.links[k]).rate = d.rateMax k ∧
        (t.kl.links[k]).ladder = 0 ∧ seq t 40 = seq d 40 + (if l.up then 1 else 0) ∧ t.ctx = d.ctx ∧ sameBytes d t) ∧
      (l.st ≠ .disabled → ∃ t, Completes (.disable m k) s t ∧ (t.kl.links[k]).st = .disabled ∧
        seq t 40 = seq d 40 + (if l.up then 1 else 0) ∧ t.regs = d.regs ∧ t.ctx = d.ctx ∧ sameBytes d t) ∧
      (l.st = .active → l.measuring = false → (d.autoWake && d.kl.staged.any (d.maySend k)) = false →
        Completes (.deep m k) s (({ d with kl := { d.kl with links := upd d.kl.links k fun l => { l with deepReq := true, deepWant := false } } } : Dev).sendStream k
          [ctlBlock 0x55 [0]])) ∧
      (l.st = .deep → ∃ t, Completes (.wake m k) s t ∧ (t.kl.links[k]).st = .lock ∧ (t.kl.links[k]).resuming = true ∧
        t.out = (if d.kl.pll then (d.sendWake k).out else d.out) ∧ (t.kl.links[k]).wakeDue = (!d.kl.pll) ∧ t = { d with kl := t.kl, out := t.out }) ∧
      (∃ t, Completes (.clrcnt m k) s t ∧ t = { d with kl := t.kl, free := t.free } ∧ (l.measuring = false → t.free = d.free) ∧ t.kl.links = (upd d.kl.links k fun l => { l with crcErr := 0, frmErr := 0, crOvr := 0 }) ∧
        ∀ i ∈ linkLanes s.part k, (t.kl.lanes[i]).prbsErr = 0 ∧ (t.kl.lanes[i]).hdrErr = 0 ∧ (t.kl.lanes[i]).cbErr = 0 ∧ (t.kl.lanes[i]).prbsBits = 0))

/-- Frames, link credits, ALIGN and MEASURE on an ACTIVE link (01 R25, 10 R226, R236, R238, R239, R241, R243, R244, R245). A staged frame that may start leaves with its units and the next FSEQ of its VC where the FIFOs to CK_LTX have room, and without room the framer pauses (01 R25); a frame whose CRC fails is counted and not taken; a whole MGMT message waits for the executor and holds its units; the oldest unreported frees are reported in a CREDIT block of the link's stream, behind an IDLE block where the turn is the other lane's; a received CUM returns its units, and one beyond the partner's allocation is counted and returns none; ALIGN carries the same count on every lane; MEASURE starts, on request or by KL_LKk_MEAS, with its TRAIN groups on every used lane, and ends once block lock holds, with its bits counted to those it has in all, less what CLRCNT has cleared. -/
def Obligations.LinkTraffic : Prop :=
  ∀ (s : State) (k : LinkId) (n : LaneId) (b : Block) (m : Master) (q : Byte) (f : Staged) (r : List Staged) (x : RxFrame) (v : Fin 65),
    let d := s.dev
    let l := d.kl.links[k]
    let j := laneLink n
    let y := d.kl.links[j]
    let head := [x.w0, x.w1, x.w2, x.w3].flatMap wordBytes
    let len := fld x.w0 16 16
    let crcOk : Prop := crc32 (head ++ x.payload ++ List.replicate (framePad x.payload.length) 0) = x.crc
    (d.coreOn = true → (k ≠ 0 ∨ d.pwr.tFifo = []) → l.deepWant = false → d.ltxRoom k = true → d.kl.staged = f :: r → d.maySend k f = true →
      ∃ t, Completes (.frameSend k) s t ∧ t.kl.staged = r ∧ ((t.kl.links[k]).books[f.vc]).avail = (l.books[f.vc]).avail - frameUnits f.payload.length ∧
        ((t.kl.links[k]).books[f.vc]).fseqOut = (l.books[f.vc]).fseqOut + 1 ∧
        (let bs := frameBytes f (if k = 0 then 0 else f.srcDst) (l.books[f.vc]).fseqOut
         t.out = d.out ++ [.frame k f.vc.val f.typ (l.books[f.vc]).fseqOut.toNat f.more f.payload bs (d.striped k (frameBlocks f.vc.val bs))]) ∧ t.ctx = d.ctx ∧ t.ev = d.ev ∧ sameBytes d t) ∧
    (d.coreOn = true → (k ≠ 0 ∨ d.pwr.tFifo = []) → (d.ltxRoom k = false ∨ l.deepWant = false ∧ ∀ f ∈ d.kl.staged, d.maySend k f = false) →
      Completes (.frameSend k) s d) ∧
    (d.coreOn = true → l.st = .active → ¬ crcOk → ∃ t, Completes (.frameReceive k x) s t ∧ (t.kl.links[k]).crcErr = satAdd l.crcErr 1 ∧
      t.kl.inbox = d.kl.inbox ∧ t.kl.staged = d.kl.staged ∧ t.ctx = d.ctx ∧ sameBytes d t) ∧
    (∀ mt tag body, d.coreOn = true → l.st = .active → crcOk → x.stray = false → fld x.w0 8 8 = 2 → fld x.w0 0 7 = 64 → x.sofVc.toNat = 64 →
      len ≤ l.maxPay → x.payload.length = len → x.blocks = (16 + len + framePad len + 4) / 8 →
      messages (len / 8) x.payload = [(mt, tag, some body)] → msgKept k mt = true → mt ≠ 3 →
      (l.books[(64 : Fin 65)]).held + frameUnits len ≤ (l.books[(64 : Fin 65)]).own →
      ∃ t, Completes (.frameReceive k x) s t ∧ t.kl.inbox = d.kl.inbox ++ [{ link := k, mtype := mt, tag := tag, body := body, units := frameUnits len, age := d.cycle }] ∧
        ((t.kl.links[k]).books[(64 : Fin 65)]).held = (l.books[(64 : Fin 65)]).held + frameUnits len ∧
        (k ≠ 2 ∨ (∀ q, (l.books[(64 : Fin 65)]).fseqIn = some q → q + 1 = x.w1.extractLsb' 0 16) → t = { d with kl := t.kl })) ∧
    (d.coreOn = true → lanePresent s.part n = true → y.st = .active → y.measuring = false → n ∈ d.usedLanes j → d.creditDue n = true → d.ltxRoom j = true → y.unrep = [v] →
      let c := (y.books[v]).cumOut
      let credit := ctlBlock 0x4B [BitVec.ofNat 8 v.val, c.extractLsb' 0 8, c.extractLsb' 8 8, 0x7F]
      ∃ t, Completes (.creditBlockSend n) s t ∧ (t.kl.links[j]).unrep = [] ∧ ((t.kl.links[j]).books[v]).cumRep = c ∧
        t.out = (d.sendStream j (if (d.inTurn j).headD n = n then [credit] else [ctlBlock 0x1E [], credit])).out ∧
        t = { d with kl := t.kl, out := t.out }) ∧
    (d.coreOn = true → lanePresent s.part n = true → y.st = .active → blockGood b = true → octet b 0 = 0x4B → octet b 1 = BitVec.ofNat 8 v.val → octet b 4 = 0x7F →
      let gain := (octets2 b 2 - (y.books[v]).cumIn).toNat
      ∃ t, Completes (.creditBlockReceive n b) s t ∧ t.ctx = d.ctx ∧ sameBytes d t ∧
        ((y.books[v]).avail + gain ≤ (y.books[v]).partner → ((t.kl.links[j]).books[v]).avail = (y.books[v]).avail + gain ∧
          ((t.kl.links[j]).books[v]).cumIn = octets2 b 2 ∧ (t.kl.links[j]).crOvr = y.crOvr) ∧
        ((y.books[v]).partner < (y.books[v]).avail + gain → (t.kl.links[j]).books[v] = y.books[v] ∧ (t.kl.links[j]).crOvr = satAdd y.crOvr 1)) ∧
    (d.coreOn = true → let c := (d.kl.lanes[firstLane k]).alignOut
      ∃ t, Completes (.alignSend k) s t ∧ (∀ i ∈ d.alignLanes s.part k, (t.kl.lanes[i]).alignOut = c + 1) ∧ t = { d with kl := t.kl, out := t.out } ∧
        t.out = ((d.alignLanes s.part k).foldl (fun e i => e.sendBlock i (ctlBlock 0x99 [BitVec.ofNat 8 i.val, c.extractLsb' 0 8, c.extractLsb' 8 8])) d).out) ∧
    (d.coreOn = true → lanePresent s.part n = true → (d.kl.links[(0 : LinkId)]).receives = true → blockGood b = true → octet b 0 = 0x99 → n.val < 2 →
      let o : LaneId := if n = 0 then 1 else 0
      ∃ t, Completes (.alignReceive n b) s t ∧ (t.kl.lanes[n]).alignIn = some (octets2 b 2) ∧ t = { d with kl := t.kl } ∧
        let skew := decide ((d.kl.links[(0 : LinkId)]).st = .lock ∧ (d.kl.lanes[o]).alignIn = some (octets2 b 2) ∧ (d.kl.lanes[o]).alignAt + 25 < d.cycle)
        (t.kl.links[(0 : LinkId)]).skewErr = ((d.kl.links[(0 : LinkId)]).skewErr || skew) ∧
        (t.kl.links[(0 : LinkId)]).two = ((d.kl.links[(0 : LinkId)]).two && !skew)) ∧
    (s.mayWrite m (linkOff k 0x2C) → linkPresent s.part k = true → l.st = .active → l.measuring = false → q ≠ 0 →
      ∃ t, Completes (.measureStart m k q) s t ∧ (t.kl.links[k]).measuring = true ∧ (t.kl.links[k]).meas = q.toNat ∧
        (d.out ++ [.group (firstLane k) (codeBlock false (firstLane k) 0 (true, ctlBlock 0x2D [(flag (d.kl.lanes[firstLane k]).ready 0 ||| 2).setWidth 8, BitVec.ofNat 8 l.rate,
          BitVec.ofNat 8 (ffeOctet (Config.ffeRequest d.out.length)), BitVec.ofNat 8 (firstLane k).val, q])).1 (Config.prbsState d.out.length)]) <+: t.out ∧
        (∀ i ∈ linkLanes s.part k, (t.kl.lanes[i]).prbsErr = 0 ∧ (t.kl.lanes[i]).prbsBits = 0) ∧
        (∀ i ∈ d.usedLanes k, (t.kl.lanes[i]).prbsTo = q.toNat * 64 * 1023 * 64 / 65536) ∧ t = { d with kl := t.kl, out := t.out, free := t.free }) ∧
    (d.coreOn = true → lanePresent s.part n = true → y.st = .active → y.measuring = false → blockGood b = true → octet b 0 = 0x2D → (octet b 2).toNat = y.rate →
      (octet b 1).getLsbD 1 = true → octet b 5 ≠ 0 → ∃ t, Completes (.measureRequestReceive n b) s t ∧ (t.kl.links[j]).measuring = true ∧
        (t.kl.links[j]).meas = (octet b 5).toNat ∧ (t.kl.lanes[n]).eq = (if d.eqDef j then (d.kl.lanes[n]).eq else ffeTake (d.kl.lanes[n]).eq (octet b 3)) ∧
        t.out.length = d.out.length + (d.usedLanes j).length ∧ t = { d with kl := t.kl, out := t.out, free := t.free }) ∧
    (d.coreOn = true → l.measuring = true → (∀ i ∈ d.usedLanes k, (d.kl.lanes[i]).blockLock = true) → ∃ t, Completes (.measureEnd k) s t ∧ (t.kl.links[k]).measuring = false ∧ (t.kl.links[k]).meas = 0 ∧
      (∀ i ∈ d.usedLanes k, (t.kl.lanes[i]).prbsBits = nword (d.kl.lanes[i]).prbsTo) ∧ t.ctx = d.ctx ∧ sameBytes d t)

/-- The housekeeping sequence and its requests (01 R25, 11 R253, R256, R257, R262, R272, R275): START in IDLE starts entry 0 and outside IDLE does nothing; STOP ends the sequence after the running conversion, or at once where none runs; CLRDROP clears the count; a period that ends starts a waiting pass or falls due; an urgent request that reaches the converter starts at once where nothing runs, is dropped in DROP mode, abandons a sequence conversion in RESUME mode, whose entry restarts later, and waits for an urgent one; a written entry configuration keeps its channel field where the channel is absent, and its limit zone becomes inside. -/
def Obligations.HousekeepingSequence : Prop :=
  ∀ (s : State) (m : Master) (v : Word) (e : HkEnt) (u : Fin 2) (rest : List (Fin 2)) (c : Conv),
    let d := s.dev
    let hk := d.hk
    let only (t : Dev) : Prop := t = { d with hk := t.hk }
    let w : Dev := d.crossWrite s.part 0xA0004
    let took (t : Dev) : Prop := t = { w with hk := t.hk }
    let starts (t : Dev) (k : Nat) (y : Option (Fin 2)) : Prop := ∃ x, t.hk.conv = some x ∧ x.entry.val = k ∧ x.urgent = y ∧
      x.cfg = d.reg (0xA0200 + 16 * k) ∧ x.stage = .settle ∧ x.meas = [] ∧ x.phaseB = false ∧ x.again = false
    let o := 0xA0200 + 16 * e.val
    let mk := regMask s.part d o
    (s.part.hkin ≠ 0 →
      (s.mayWrite m 0xA0004 →
        (hk.seq = .idle → hk.conv = none → hk.slot[(0 : Fin 2)] = none → hk.slot[(1 : Fin 2)] = none →
          ∃ t, Completes (.hkCmdStart m) s t ∧ took t ∧ t.hk.seq = .run ∧ starts t 0 none) ∧
        (hk.seq ≠ .idle → Completes (.hkCmdStart m) s w) ∧
        (hk.conv = some c →
          (hk.seq = .run → Completes (.hkCmdStop m) s { w with hk := { hk with seq := .stopping } }) ∧
          (hk.seq = .wait → Completes (.hkCmdStop m) s { w with hk := { hk with seq := .idle } })) ∧
        (hk.conv = none → hk.slot[(0 : Fin 2)] = none → hk.slot[(1 : Fin 2)] = none →
          (hk.seq = .wait → Completes (.hkCmdStop m) s { w with hk := { hk with seq := .idle } }) ∧
          (hk.seq = .idle → Completes (.hkCmdStop m) s w)) ∧
        Completes (.clrdrop m) s { w with hk := { hk with drop := 0 } }) ∧
      (s.mayWrite m o →
        (¬ (s.part.hkin ≤ fld v 0 4 ∧ fld v 0 4 < 8) → ∃ t, Completes (.hkEntCfgWrite m e v) s t ∧
          t.reg o = (d.reg o &&& ~~~mk) ||| (v &&& mk) ∧ (∀ o', o' ≠ o → t.reg o' = d.reg o') ∧ t.hk = { hk with zone := hk.zone.set e .inside } ∧
          t = { w with regs := t.regs, hk := t.hk }) ∧
        (s.part.hkin ≤ fld v 0 4 → fld v 0 4 < 8 → ∃ t, Completes (.hkEntCfgWrite m e v) s t ∧ fld (t.reg o) 0 4 = fld (d.reg o) 0 4 ∧
          (∀ i, 4 ≤ i → i < 30 → bit (t.reg o) i = bit v i) ∧ t.sys = { d.sys with absent := true } ∧
          t.hk = { hk with zone := hk.zone.set e .inside } ∧ t = { w with regs := t.regs, hk := t.hk, sys := t.sys }))) ∧
    (d.up = true → s.part.hkin ≠ 0 →
      (hk.seq = .wait → hk.conv = none → hk.slot[(0 : Fin 2)] = none → hk.slot[(1 : Fin 2)] = none →
        ∃ t, Completes .hkPeriodExpiry s t ∧ only t ∧ t.hk.seq = .run ∧ starts t 0 none) ∧
      (hk.seq = .run → Completes .hkPeriodExpiry s { d with hk := { hk with due := true } })) ∧
    (d.coreOn = true → s.part.hkin ≠ 0 → hk.crossing = u :: rest →
      let drop := bit (d.reg 0xA0000) (5 + u.val)
      (hk.conv = none → rest = [] → hk.slot[u] = some e → (∀ w : Fin 2, w ≠ u → hk.slot[w] = none) →
        ∃ t, Completes .urgentRequestArrival s t ∧ only t ∧ t.hk.slot = hk.slot ∧ t.hk.seq = hk.seq ∧ starts t e.val (some u)) ∧
      (hk.conv = some c → drop = true → ∃ t, Completes .urgentRequestArrival s t ∧
        t = { d with hk := { hk with crossing := rest, drop := hk.drop + 1, slot := hk.slot.set u none } }) ∧
      (hk.conv = some c → drop = false → c.urgent ≠ none → Completes .urgentRequestArrival s { d with hk := { hk with crossing := rest } }) ∧
      (hk.conv = some c → drop = false → c.urgent = none → rest = [] → hk.slot[u] = some e → (∀ w : Fin 2, w ≠ u → hk.slot[w] = none) →
        ∃ t, Completes .urgentRequestArrival s t ∧ only t ∧ t.hk.abandon = true ∧ t.hk.redo = true ∧ t.hk.at_ = c.entry.val ∧ t.hk.res = hk.res ∧ t.hk.seq = hk.seq ∧
          starts t e.val (some u)))

/-- A housekeeping conversion (01 R25, 11 R252, R254, R259, R261, R265, R267, R268): the reference settles; the integration starts, or without a settled reference the conversion ends with its fault; each integration's end keeps what it met, and the first of a 3-wire conversion exchanges the sources; a COMPLIANCE with AUTOSTEP repeats once with the next lower current; otherwise, where its crossing has room and no result kept over STANDBY waits for it, the result word shows VALID, FRESH, FAULT, the pass and the value, with event 33 for a fault and event 32 for an urgent conversion, whose slot is freed, and no other result changes; a VOLT code is the rounded quotient of R252. -/
def Obligations.HousekeepingConversion : Prop :=
  ∀ (s : State) (c : Conv) (x : HkMeas), s.dev.phase = .run → s.part.hkin ≠ 0 → s.dev.hk.conv = some c →
    let d := s.dev
    let hk := d.hk
    let set (y : Conv) : Dev := { d with hk := { hk with conv := some y } }
    let e := d.evaluate c
    let word := flag (e.1 == 0) 31 ||| flag true 30 ||| place e.1 27 ||| place (hk.pass.toNat % 8) 24 ||| (iword e.2.1 &&& 0xFFFFFF)
    let seq (t : Dev) (n : Fin 64) := (t.ev.src[n]).seq
    let repeats := e.1 = 3 ∧ bit c.cfg 20 = true ∧ 0 < c.icode ∧ c.again = false
    Completes .refSettled s { d with hk := { hk with refSettled := true } } ∧
    (c.stage = .settle →
      (hk.refSettled = true → Completes .integrationStart s (set { c with stage := .integrate })) ∧
      (hk.refSettled = false → Completes .refUnsettled s (set { c with stage := .comp, refFault := true }))) ∧
    (c.stage = .integrate →
      let y := { c with meas := c.meas ++ [x], cj := d.pwr.dieTemp.toInt }
      (entWire c.cfg = 2 ∧ c.phaseB = false → Completes (.integrationEnd x) s (set { y with phaseB := true, stage := .settle })) ∧
      (entWire c.cfg ≠ 2 ∨ c.phaseB = true → Completes (.integrationEnd x) s (set { y with stage := .comp }))) ∧
    (c.stage = .comp →
      (repeats → Completes .resultPublish s (set { c with phaseB := false, again := true, icode := c.icode - 1, stage := .settle, meas := [] })) ∧
      (¬ repeats → d.crossRoom 7 = false ∨ (∃ k : HkEnt, hk.kept[k] ≠ none) → Completes .resultPublish s d) ∧
      (¬ repeats → d.crossRoom 7 = true → (∀ k : HkEnt, hk.kept[k] = none) → ∃ t, Completes .resultPublish s t ∧ t.hk.res = hk.res.set c.entry word ∧
        (∀ k : HkEnt, k ≠ c.entry → t.hk.aux[k] = hk.aux[k]) ∧ t.ctx = d.ctx ∧ sameBytes d t ∧
        (e.1 ≠ 0 → seq t 33 = seq d 33 + 1) ∧ (e.1 = 0 → seq t 33 = seq d 33) ∧
        (∀ u, c.urgent = some u → t.hk.slot = hk.slot.set u none ∧ seq t 32 = seq d 32 + 1 ∧ t.hk.pass = hk.pass) ∧
        (c.urgent = none → t.hk.slot = hk.slot ∧ seq t 32 = seq d 32 ∧
          (hk.seq = .stopping → t.hk.seq = .idle) ∧
          (hk.seq = .run → fld (d.reg 0xA0000) 0 4 ≤ c.entry.val → t.hk.pass = hk.pass + 1 ∧ seq t 31 = seq d 31 + 1) ∧
          (hk.seq = .run → c.entry.val < fld (d.reg 0xA0000) 0 4 → t.hk.pass = hk.pass ∧ t.hk.at_ = c.entry.val + 1)))) ∧
    (c.refFault = true → e = (4, 0, d.tableBad c)) ∧
    (c.refFault = false → entCh c.cfg < 8 → entWire c.cfg = 0 → entRef c.cfg = 0 → entCurve c.cfg = 0 → c.meas = [x] →
      let code := rdiv (x.vin * 2 ^ fld c.cfg 4 3 * 2 ^ 23) 2500000000
      (-8388607 ≤ code → code ≤ 8388607 → e = (0, code, false)) ∧
      (8388607 < code → e = (5, 8388607, false)) ∧ (code < -8388607 → e = (5, -8388607, false)))

/-- WDT-A (01 R25, 12 R276, R277, R278, R279, R280, R281, R290, 14 R326): a start begins the first period, and a running WDT-A does not start again; the window opens; EARLY raises event 48 in RUN and wakes the device from STANDBY; expiry resets with cause WDT_A, the count of watchdog resets raised and the PC of context 0 in the evidence; a service write of its owner crosses with its PC and word while WDT-A runs, other writes of the unit take up their crossing; arriving inside the window, 0xA5 arms, 0x5A after it begins a new period, and any other write disarms with SEQERR; before the window the write leaves a record of cause 6 at once, freezes context 0 at its next boundary, and disarms. -/
def Obligations.WatchdogA : Prop :=
  ∀ (s : State) (m : Master) (v : Word) (b : Byte) (pc insn : Word) (rest : List (Byte × Word × Word)),
    let d := s.dev
    let w := d.wdt
    let P := s.part
    let begun : Wdt := { w with aCount := 0, aOpen := P.aWindow == 0, aEarly := false, seqArm := false }
    let arrives (y : Wdt) : Prop := Completes .wdtaServiceArrival s { d with wdt := y }
    (s.mayWrite m 0xB0004 →
      (w.aRun = false → Completes (.wdtAStart m) s { d.crossWrite P 0xB0004 with wdt := { begun with aRun := true } }) ∧
      (w.aRun = true → Completes (.wdtAStart m) s (d.crossWrite P 0xB0004))) ∧
    (s.mayWrite m 0xB0008 →
      (w.aRun = true → Completes (.wdtASvcWrite m v) s { d with wdt := { w with svc := w.svc ++ [(v.extractLsb' 0 8, s.storeAt m)] } }) ∧
      (w.aRun = false → Completes (.wdtASvcWrite m v) s d)) ∧
    (d.phase ≠ .inReset → w.aRun = true →
      Completes .wdtaWindowOpen s { d with wdt := { w with aCount := max w.aCount P.aWindow, aOpen := true } } ∧
      (w.aEarly = false → ∃ t, Completes .wdtaEarly s t ∧ t.wdt = { w with aCount := max w.aCount (P.aPeriod / 8 * 7), aOpen := true, aEarly := true } ∧
        (d.phase = .run → (t.ev.src[(48 : Fin 64)]).seq = (d.ev.src[(48 : Fin 64)]).seq + 1 ∧ t = { d with wdt := t.wdt, ev := t.ev }) ∧
        (d.phase = .standby → t.phase = .waking ∧ t.pwr = { d.pwr with wakeSrc := 0x10, wakeTick := d.pwr.aonEdges } ∧ t.ev = { d.ev with held := d.ev.held ++ [(48, 0)] } ∧
          t = { d with phase := t.phase, wdt := t.wdt, ev := t.ev, pwr := t.pwr })) ∧
      (∃ t, Completes .wdtaExpiry s t ∧ t.phase = .inReset ∧ t.pwr.rstCause = 3 ∧
        t.word 0x3000800 = (3#16 ++ BitVec.ofNat 16 (min 0xFFFF ((d.word 0x3000800).toNat % 65536 + 1)) : BitVec 32) ∧
        t.word 0x3000804 = (d.ctx[(0 : CtxId)]).pc ∧ t.word 0x3000808 = 0 ∧ t.word 0x300080C = ~~~(t.word 0x3000800))) ∧
    (d.phase ≠ .inReset → w.svc = (b, pc, insn) :: rest →
      (w.aOpen = true →
        (b = 0xA5 → w.seqArm = false → arrives { w with svc := rest, seqArm := true }) ∧
        (b = 0x5A → w.seqArm = true → arrives { begun with svc := rest }) ∧
        (¬ (b = 0xA5 ∧ w.seqArm = false) → ¬ (b = 0x5A ∧ w.seqArm = true) → arrives { w with svc := rest, seqArm := false, seqErr := true })) ∧
      (w.aOpen = false →
        let x := d.ctx[(0 : CtxId)]
        let at_ := 0x3000000 + 32 * d.sys.frW.toNat
        d.traced 0 = false → ∃ t, Completes .wdtaServiceArrival s t ∧ t.wdt = { w with svc := rest, seqArm := false } ∧
          (x.atBoundary = false → t.ctx = upd d.ctx 0 (fun y => { y with due := { y.due with owner := true } })) ∧
          (x.atBoundary = true → x.due = {} → t.ctx = upd d.ctx 0 (fun y => { y with frozen := true, lastCause := 6, urgent := 0, cold := true })) ∧
          (d.recordsNow = [] → x.atBoundary = false ∨ x.due = {} → t.sys.frW = d.sys.frW + 1 ∧
          t.word at_ = 0x00010600 ∧ t.word (at_ + 4) = pc ∧ t.word (at_ + 8) = 0x080B0008 ∧ t.word (at_ + 16) = insn ∧ sameBytesBut d t at_ 32)))

/-- WDT-B and its keys (01 R25, 12 R282, R283, R284, R285, R287, R290, R293): a write of EN = 1 starts it; a write of EN = 0 stops it when the whole key sequence is no older than 256 cycles and LOCK is 0, and otherwise only sets KEYFAIL, with the key sequence kept; LOCK sets; a key write out of order sets KEYFAIL; a check-in sets the bit of its slot; at a period's end every slot that takes part and was not seen is missed and asks for a capture; the capture keeps PC and last check-in of each missed slot's context, and then only raises event 49, or freezes those contexts without a record and raises it, or resets with cause WDT_B; the debugger's hold is written in a permitted session alone. -/
def Obligations.WatchdogB : Prop :=
  ∀ (s : State) (m : Master) (v : Word) (k : Fin 8) (rest : List (Fin 8)) (miss : Byte) (more : List Byte) (b : Bool),
    let d := s.dev
    let w := d.wdt
    let now := match w.bKeyAt with | some t0 => decide (d.cycle ≤ t0 + 256) | none => false
    let keyed := w.bKeyOk && now && !w.bLock
    let lock := w.bLock || bit v 4
    let regs (t : Dev) (y : Wdt) : Prop := t.wdt = y ∧ t = { d.crossWrite s.part 0xB0100 with wdt := t.wdt, regs := t.regs }
    let takes (j : Fin 8) : Bool := bit (d.slotReg j) 7 && bit (d.slotReg j) 6
    (s.mayWrite m 0xB0100 →
      (w.bRun = false → ∃ t, Completes (.wdtbEnable m v) s t ∧
        regs t { w with bRun := true, bLock := lock, bCount := 0, bSeen := 0, keys := [], lastKey := Vector.replicate 8 none }) ∧
      (w.bRun = true → keyed = true → ∃ t, Completes (.wdtbDisable m v) s t ∧
        regs t { w with bRun := false, bLock := lock, bKeyAt := none, bKeyOk := false }) ∧
      (w.bRun = true → keyed = false → ∃ t, Completes (.wdtbDisable m v) s t ∧
        regs t { w with bLock := lock, bKeyFail := true }) ∧
      (w.bRun = true → bit v 0 = true → ∃ t, Completes (.wdtbLock m v) s t ∧ regs t { w with bLock := true })) ∧
    (s.mayWrite m 0xB0108 →
      let key := v.extractLsb' 0 8
      let e := d.crossWrite s.part 0xB0108
      (key = 0x3C → w.bKeyAt = none ∨ w.bKeyOk = true →
        Completes (.wdtBKeyWrite m v) s { e with wdt := { w with bKeyAt := some d.cycle, bKeyOk := false } }) ∧
      (key = 0xC3 → w.bKeyAt ≠ none → w.bKeyOk = false → Completes (.wdtBKeyWrite m v) s { e with wdt := { w with bKeyOk := true } }) ∧
      (¬ (key = 0x3C ∧ (w.bKeyAt = none ∨ w.bKeyOk = true)) → ¬ (key = 0xC3 ∧ w.bKeyAt ≠ none ∧ w.bKeyOk = false) → ∃ t, Completes (.wdtBKeyWrite m v) s t ∧
        t.wdt.bKeyFail = true ∧ t.wdt.bKeyOk = false ∧ t.wdt.bRun = w.bRun ∧ t = { e with wdt := t.wdt })) ∧
    (s.mayWrite .debug 0xB0300 →
      let e := d.crossWrite s.part 0xB0300
      (w.attached = true → Completes (.dbgWdtHold b) s { e with wdt := { w with bHold := b } }) ∧ (w.attached = false → Completes (.dbgWdtHold b) s e)) ∧
    (d.up = true →
      Completes (.debugSession b) s { d with wdt := { w with attached := b && !s.part.dbgdis, bHold := w.bHold && b } } ∧
      (w.keys = k :: rest → w.bRun = true →
        Completes .keyCheckin s { d with wdt := { w with keys := rest, bSeen := if takes k then w.bSeen ||| (1#8 <<< k.val) else w.bSeen } }) ∧
      (w.bRun = true → w.bHold = false → ∃ t, Completes .wdtbPeriodEnd s t ∧ t = { d with wdt := t.wdt } ∧ t.wdt.bSeen = 0 ∧ t.wdt.bCount = 0 ∧
        t.wdt.bRun = true ∧
        ((∀ j : Fin 8, takes j = true → w.bSeen.getLsbD j.val = true) → t.wdt.bMissed = w.bMissed ∧ t.wdt.captures = w.captures) ∧
        ((∃ j : Fin 8, takes j = true ∧ w.bSeen.getLsbD j.val = false) → t.wdt.captures = w.captures ++ [t.wdt.bMissed] ∧
          ∀ j : Fin 8, t.wdt.bMissed.getLsbD j.val = (takes j && !w.bSeen.getLsbD j.val)))) ∧
    (d.phase = .run → w.captures = miss :: more →
      let act := fld (d.reg 0xB0100) 2 2
      let evid (t : Dev) : Prop := ∀ j : Fin 8,
        (miss.getLsbD j.val = true → t.wdt.evPc[j] = (d.ctx[d.slotCtx j]).pc ∧ t.wdt.evTs[j] = (w.lastKey[j]).getD 0 ∧ t.wdt.evNone[j] = (w.lastKey[j]).isNone) ∧
        (miss.getLsbD j.val = false → t.wdt.evPc[j] = w.evPc[j] ∧ t.wdt.evTs[j] = w.evTs[j] ∧ t.wdt.evNone[j] = w.evNone[j])
      ∃ t, Completes .wdtbEvidenceCapture s t ∧ evid t ∧
        (act ≤ 1 → t.wdt.captures = more ∧ (t.ev.src[(49 : Fin 64)]).seq = (d.ev.src[(49 : Fin 64)]).seq + 1 ∧ t.sys = d.sys) ∧
        (act = 0 → t = { d with wdt := t.wdt, ev := t.ev }) ∧
        (act = 1 → ∀ c : CtxId, ((d.ctx[c]).atBoundary = true ∨ (d.ctx[c]).run ≠ .ready) → (d.ctx[c]).due = {} → (d.ctx[c]).frozen = false →
          t.ctx[c] = (if ∃ j : Fin 8, miss.getLsbD j.val = true ∧ d.slotCtx j = c then { d.ctx[c] with frozen := true, urgent := 0, cold := true } else d.ctx[c])) ∧
        (2 ≤ act → t.phase = .inReset ∧ t.pwr.rstCause = 4 ∧ t.wdt.bMissed = w.bMissed ∧ t.word 0x3000804 = 0 ∧
          t.word 0x3000808 = w.bMissed.setWidth 32 ∧ t.word 0x3000800 = (4#16 ++ BitVec.ofNat 16 (min 0xFFFF ((d.word 0x3000800).toNat % 65536 + 1)) : BitVec 32)))

/-- Enumeration of a chain (13 R298), each message in its turn of arrival (10 R243). ASSIGN at a member without an address whose upstream port is live takes it and answers ASSIGNED; at one with an address it repeats the answer, passes a higher one down under a 10 ms timer, staged until link 2 is ACTIVE, ends the chain at 7, or tells a wrong one in ENUMERR, as the master does of any; ASSIGNED goes up, and the master then assigns the next; CHAIN_END goes up and sets LEN at the master with event 44; the timer's end sends CHAIN_END; ENUM starts with ASSIGN(1). -/
def Obligations.ChainEnumeration : Prop :=
  ∀ (s : State) (b : BitVec 4) (m : Master),
    let d := s.dev
    let a := d.cas.addr
    let sent : Dev → LinkId → Nat → Word → Prop := fun t k mt w => t.ctx = d.ctx ∧ sameBytes d t ∧ ∃ f : Staged, t.kl.staged = d.kl.staged ++ Staged.recut (d.payCap k) f.payload.length f ∧ f.link = k ∧
      f.vc = 64 ∧ f.typ = 2 ∧ f.payload = [place mt 0 ||| place 4 16, 0, w].flatMap wordBytes
    let next := fun mt : Nat => d.isNext (fun x => x.mtype == mt && fld (x.body.headD 0) 0 4 == b.toNat) = true
    (d.coreOn = true → s.part.casc = true → d.role s.part = 0 → next 0x10 →
      (a = 0xF → d.pins.chnI = true → (d.kl.links[(1 : LinkId)]).st = .active →
        ∃ t, Completes (.assign b) s t ∧ t.cas = { d.cas with addr := b, chnO := true } ∧ sent t 1 0x11 (nword b.toNat)) ∧
      (a ≠ 0xF → b = a → ∃ t, Completes (.assign b) s t ∧ t.cas = d.cas ∧ sent t 1 0x11 (nword a.toNat)) ∧
      (a.toNat < b.toNat → a ≠ 0xF → ¬ (a = 7 ∧ b = 8) →
        ∃ t, Completes (.assign b) s t ∧ t.cas = { d.cas with timer := true } ∧ sent t 2 0x10 (b.setWidth 32)) ∧
      (a = 7 → b = 8 → ∃ t, Completes (.assign b) s t ∧ t.cas = d.cas ∧ sent t 1 0x12 7) ∧
      (a ≠ 0xF → b.toNat < a.toNat → ∃ t, Completes (.assign b) s t ∧ t.cas = { d.cas with enumErr := true } ∧ t.kl.staged = d.kl.staged)) ∧
    (d.coreOn = true → s.part.casc = true → d.role s.part = 0 →
      (next 0x11 → ∃ t, Completes (.assigned b) s t ∧ t.cas = { d.cas with timer := false } ∧ sent t 1 0x11 (nword b.toNat)) ∧
      (next 0x12 → ∃ t, Completes (.chainEnd b) s t ∧ t.cas = { d.cas with timer := false } ∧ sent t 1 0x12 (nword b.toNat))) ∧
    (d.coreOn = true → s.part.casc = true → d.role s.part ≠ 0 →
      (next 0x10 → ∃ t, Completes (.assign b) s t ∧ t.cas = { d.cas with enumErr := true } ∧ t.kl.staged = d.kl.staged ∧ t.ctx = d.ctx) ∧
      (next 0x11 → d.cas.enumerating = true → ∃ t, Completes (.assigned b) s t ∧ t.cas = d.cas ∧ sent t 2 0x10 (b.setWidth 32 + 1)) ∧
      (next 0x12 → ∃ t, Completes (.chainEnd b) s t ∧ t.cas = { d.cas with len := (b.toNat + 1) % 16, enumerating := false, enumDone := true } ∧
        (t.ev.src[(44 : Fin 64)]).seq = (d.ev.src[(44 : Fin 64)]).seq + 1 ∧ t.kl.staged = d.kl.staged ∧ t.ctx = d.ctx ∧ sameBytes d t)) ∧
    (d.coreOn = true → s.part.casc = true → d.cas.timer = true →
      ∃ t, Completes .enumTimeout s t ∧ t.cas = { d.cas with timer := false } ∧ sent t 1 0x12 (nword a.toNat)) ∧
    (s.mayWrite m 0xC0004 → s.part.casc = true → d.role s.part = 1 → ∃ t, Completes (.enum m) s t ∧ t.cas.enumerating = true ∧
      t.cas.enumDone = false ∧ t.cas.addr = a ∧ t.reg 0xC0004 = d.reg 0xC0004 ∧ sent t 2 0x10 1)

/-- A member under its master, and the timebase (13 R297, R299, R303, R304, R305, R309, 17 R392): CHAIN_START, which also clears a member's captures (DEDUCED, log 85), CHAIN_STOP, SEAMSET and TBSYNC act on a member and go on down the chain where a device stands below; an LSYNC pulse of 8 cycles, within 2 either way, fires the member's next line into the lowest FREE slot with the offsets set for it, and where no slot is FREE it only passes the number on (DESIGN CHOICE, log 106), one of 32 cycles is only counted, one of no listed width sets CFGERR and is not counted (DEDUCED, log 44); TBSYNC with the count of a latched pulse gives the timebase offset; and a MULTIPLY master's TIMEBASE_PULSE drives 32 cycles. -/
def Obligations.ChainMembersAndTimebase : Prop :=
  ∀ (s : State) (n0 : Word) (pstr : BitVec 18) (voff hoff : Byte) (cnt : Half) (stb : Pos) (width : Nat) (n : Fin 256), s.dev.coreOn = true → s.part.casc = true →
    let d := s.dev
    let next := fun (mt : Nat) (p : List Word → Bool) => d.isNext (fun x => x.mtype == mt && p x.body) = true
    let passed : Dev → Nat → List Word → Prop := fun t mt body => t.ctx = d.ctx ∧ sameBytes d t ∧ (d.downOk = false → t.kl.staged = d.kl.staged) ∧
      (d.downOk = true → ∃ f : Staged, t.kl.staged = d.kl.staged ++ Staged.recut (d.payCap 2) f.payload.length f ∧ f.link = 2 ∧ f.vc = 64 ∧
        f.payload = ([place mt 0 ||| place (4 * body.length) 16, 0] ++ body).flatMap wordBytes)
    (d.role s.part = 0 →
      (next 0x13 (fun b => b.headD 0 == n0 && fld ((b.drop 1).headD 0) 0 18 == pstr.toNat) → ∃ t, Completes (.chainStart n0 pstr) s t ∧ passed t 0x13 [n0, nword pstr.toNat] ∧
        t.cas = { d.cas with joined := true, nextLine := n0, mPstr := pstr.toNat, seg := d.reg 0xC0010 } ∧
        (d.slaved s.part = true → t.pix.hist = [])) ∧
      (next 0x14 (fun _ => true) → ∃ t, Completes .chainStop s t ∧ passed t 0x14 [] ∧ t.cas = { d.cas with joined := false }) ∧
      (next 0x15 (fun b => fld (b.headD 0) 0 8 == voff.toNat && fld (b.headD 0) 8 8 == hoff.toNat) → ∃ t, Completes (.seamset voff hoff) s t ∧ passed t 0x15 [voff.setWidth 32 ||| (hoff.setWidth 32 <<< 8)] ∧
        t.cas = { d.cas with seamSet := some (voff, hoff) }) ∧
      (next 0x16 (fun b => fld (b.headD 0) 0 16 == cnt.toNat) → ∃ t, Completes (.tbsync cnt stb) s t ∧
        passed t 0x16 [cnt.setWidth 32, stb.extractLsb' 0 32, (stb.extractLsb' 32 16).setWidth 32] ∧
        (d.cas.lsStb.lookup cnt.toNat = none → t.cas = d.cas) ∧
        (∀ t0, d.cas.lsStb.lookup cnt.toNat = some t0 → d.hearsLsync s.part = true →
          t.cas = { d.cas with tbOfs := (stb - t0).toInt, tbValid := true }))) ∧
    (d.hearsLsync s.part = true →
      ((∀ w ∈ [8, 16, 24, 32], width + 2 < w ∨ w + 2 < width) → Completes (.lsyncPulse width) s { d with cas := { d.cas with cfgErr := true } }) ∧
      (30 ≤ width → width ≤ 34 → ∃ t, Completes (.lsyncPulse width) s t ∧ t.cas.lsyncCnt = d.cas.lsyncCnt + 1 ∧ t.cas.lsEnc.lookup (d.cas.lsyncCnt + 1).toNat = some (d.counted 0) ∧
        t = { d with free := d.free + 1, cas := t.cas }) ∧
      (6 ≤ width → width ≤ 10 → d.slaved s.part = true → d.freeSlot = some n → ∃ t, Completes (.lsyncPulse width) s t ∧ t.cas.lsyncCnt = d.cas.lsyncCnt + 1 ∧
        t.cas.nextLine = d.cas.nextLine + 1 ∧ t.cas.seamSet = none ∧ (t.ls.slots[n]).st = .fill ∧ (t.ls.slots[n]).kind = .numbered ∧
        (t.ls.slots[n]).line = d.cas.nextLine ∧ (t.hng.voff, t.hng.hoff) = d.cas.seamSet.getD (d.hng.voff, d.hng.hoff) ∧
        t.acq.line = d.cas.nextLine ∧ t.ctx = d.ctx ∧ sameBytes d t) ∧
      (6 ≤ width → width ≤ 10 → d.slaved s.part = true → d.freeSlot = none → ∃ t, Completes (.lsyncPulse width) s t ∧ t.cas.nextLine = d.cas.nextLine + 1 ∧ t.cas.seamSet = none ∧
        t.ls = d.ls ∧ t.acq = d.acq ∧ t.ctx = d.ctx ∧ sameBytes d t)) ∧
    (d.role s.part = 1 → d.chainMode s.part = 0 → ∃ t, Completes .timebasePulse s t ∧ t.cas.lsyncCnt = d.cas.lsyncCnt + 1 ∧
      d.out ++ [.lsync 32] <+: t.out ∧ t.ctx = d.ctx ∧ sameBytes d t)

/-- Segments at a master that assembles (01 R17, R18, 13 R308, 03 R78, R79): SLOTWRITE, whose bursts of 16 beats each need a grant of its port, the first since the frame's arrival or the last burst and the others since the one before them, waits in cascade ingress's buffer for its first burst or puts its bytes at its offset in the slot in FILL of its line, and changes no other byte, and freezes cascade ingress at a beat that it cannot reach, while a beat in an egress window is appended to no line (DESIGN CHOICE, log 89); SEGEND notes its sender; a segment for no such slot sets SEGLOST and raises event 45; SEGMENT_TIMEOUT completes a written line without its missing segments, with SEGTMO and event 45; a frozen cascade ingress holds the frames. -/
def Obligations.CascadeSegments : Prop :=
  ∀ (s : State) (src : BitVec 4) (off line : Word) (data : List Byte) (n : Fin 256), s.dev.coreOn = true → s.part.casc = true →
    let d := s.dev
    let did := (d.kl.casIn.head?.map fun x => x.did).getD 0
    let ask := (d.kl.casIn.head?.map fun x => max x.age x.nextAt).getD d.cycle
    let inFront := fun p : RxMsg → Bool => (d.kl.casIn.head?.all p) = true
    let at_ := d.slotBase n.val + off.toNat + did
    let left := data.length - did
    let next := inFront fun m => cascadeIs m 2 src line && cpWord m.raw 1 == off && m.raw.drop 16 == data
    let nextEnd := inFront fun m => cascadeIs m 3 src line
    let granted := fun age => d.grantable s.part (portOf (regionOf s.part at_)) age .cascIn
    let ring := 0x3000000 + 32 * d.sys.frW.toNat
    let seq := fun t : Dev => (t.ev.src[(45 : Fin 64)]).seq
    let lost : Dev → Prop := fun t => t.cas.segLost = true ∧ seq t = seq d + 1 ∧ t.ls = d.ls ∧ t.ctx = d.ctx ∧ sameBytes d t
    (d.frozen .cascIn = true → Completes (.slotwrite src off line data) s d ∧ Completes (.segend src line) s d) ∧
    (d.frozen .cascIn = false →
      (next → d.fillSlot line = some n → did < data.length → regionOf s.part at_ = .ls → regionOf s.part (at_ + left - 1) = .ls → granted ask = true →
        (left ≤ 256 - at_ % 16 ∨ granted d.cycle = true) →
        ∃ t, Completes (.slotwrite src off line data) s t ∧ t.bytes at_ left = data.drop did ∧ sameBytesBut d t at_ left ∧ t.ls = d.ls ∧ t.ctx = d.ctx) ∧
      (next → d.kl.casIn ≠ [] → d.fillSlot line = some n → did < data.length → regionOf s.part at_ = .ls → granted ask = false → Completes (.slotwrite src off line data) s d) ∧
      (next → d.fillSlot line = some n → did < data.length → (∀ i < left, (egressStream (at_ + i)).isSome = true) →
        ∃ t, Completes (.slotwrite src off line data) s t ∧ t.frozen .cascIn = false ∧ t.ls = d.ls ∧ t.ctx = d.ctx ∧ t.kl.opened = d.kl.opened ∧ sameBytes d t) ∧
      (next → d.fillSlot line = some n → did < data.length → egressStream at_ = none → reaches .cascIn (regionOf s.part at_) = false →
        (∀ r ∈ d.recordsNow, r.1 ≤ 81) →
        ∃ t, Completes (.slotwrite src off line data) s t ∧ t.frozen .cascIn = true ∧ t.ls = d.ls ∧ t.ctx = d.ctx ∧ sameBytesBut d t ring 32) ∧
      (d.fillSlot line = none → (next → ∃ t, Completes (.slotwrite src off line data) s t ∧ lost t) ∧
        (nextEnd → ∃ t, Completes (.segend src line) s t ∧ lost t)) ∧
      (nextEnd → d.fillSlot line = some n → (d.ls.slots[n]).written = false →
        ∃ t, Completes (.segend src line) s t ∧ t.ls = { d.ls with slots := upd d.ls.slots n fun x => { x with segs := x.segs ||| (1#8 <<< src.toNat) } } ∧
          t = { d with ls := t.ls, kl := t.kl })) ∧
    (n.val < d.ls.geom.nslot → (d.ls.slots[n]).st = .fill → (d.ls.slots[n]).kind = .numbered → (d.ls.slots[n]).written = true →
      d.assembling s.part = true → d.segsIn s.part (d.ls.slots[n]) = false →
      (d.ls.slots[n]).wroteAt + 400 * d.segTmoUs ≤ d.cycle →
      ∃ t, Completes (.segmentTimeout n) s t ∧ t.cas = { d.cas with segTmo := true } ∧ seq t = seq d + 1 ∧ (t.ls.slots[n]).st ≠ .fill ∧
        (t.ls.slots[n]).hold = d.holdMask s.part (d.ls.slots[n]) ∧ t.ctx = d.ctx ∧ sameBytes d t)

/-- A redundant pair (06 R154, 13 R310, R311, R312, R313, R315, R320). PAIR_CTL.EN makes the primary ACTIVE_SOLO and the secondary STANDBY, whose Hinge is OFF; PAIR_HELLO makes ACTIVE_SOLO ACTIVE, with the lines fired before still awaited (R312), and restarts the peer timer of ACTIVE, and has no effect in any other state; the ACTIVE device sends the checkpoint of its oldest secured line, and heartbeats, but none while CD is in DEEP (15 R362); the STANDBY device writes a whole checkpoint, in bursts of 256 bytes of which each needs a grant of its port (01 R17), into the next half of its buffer and keeps it once it is whole, and a heartbeat restarts its timer alone (DEDUCED, logs 48 and 92); a peer silent for TPEER makes STANDBY with a checkpoint TAKEOVER with FORCE_O, one silent for twice TPEER makes ACTIVE ACTIVE_SOLO, where the last secured line is the one that later checkpoints repeat (log 23), each with event 47; a high PAIR_FORCE_I deposes an active device, whose LED pulses end; REPAIR releases FORCE_O in every state (DEDUCED, log 50) and REJOIN makes a DEPOSED device STANDBY. -/
def Obligations.RedundantPair : Prop :=
  ∀ (s : State) (m : Master) (v : Word) (data : List Byte) (o : LineOut) (rest : List LineOut) (high : Bool) (st : BitVec 3),
    let d := s.dev
    let seq := d.cas.nextCp
    let news := fun t : Dev => t.kl.staged.drop d.kl.staged.length
    let at_ := (d.reg 0xC004C &&& 0xFFFFC000).toNat + (if d.cas.cpHalf then 0x2000 else 0)
    let did := (d.kl.mirIn.head?.map fun x => x.did).getD 0
    let ask := (d.kl.mirIn.head?.map fun x => max x.age x.nextAt).getD d.cycle
    let granted := fun age => d.grantable s.part .pd age .mirrorIn
    let here := at_ + did
    let left := data.length - did
    let inPd := did < data.length ∧ regionOf s.part at_ = .pd ∧ regionOf s.part (at_ + data.length - 1) = .pd
    let dark : Dev := { d with led := d.led.map fun l => { l with on := false, armed := false } }
    let standby := fun t : Dev => t.cas.pair = .standby ∧ t.cas.cp = none ∧ t.cas.tpeer = 200 ∧ t.cas.heardAt = d.cycle ∧ t.hng.st = .off ∧
      t.kl.lineOut = [] ∧ t.kl.secured = [] ∧ t.led = dark.led ∧ t.ctx = d.ctx ∧ sameBytes d t ∧
      (d.hng.st = .off → t = { dark with cas := t.cas, regs := t.regs, kl := { d.kl with lineOut := [], secured := [] } })
    let inTurn := d.kl.mirIn.head?.all (fun m => m.raw == data) = true
    let ev47 := fun t : Dev => (t.ev.src[(47 : Fin 64)]).seq
    (s.mayWrite m 0xC0040 → s.part.casc = true → s.part.pair = true → d.cas.pair = .off → d.pins.forceI = false →
      (d.role s.part = 2 → ∃ t, Completes (.pairEnable m v) s t ∧ t.cas = { d.cas with pair := .activeSolo } ∧ t = { d with cas := t.cas, regs := t.regs }) ∧
      (d.role s.part = 3 → ∃ t, Completes (.pairEnable m v) s t ∧ standby t)) ∧
    (s.mayWrite m 0xC0044 → s.part.casc = true → s.part.pair = true →
      Completes (.repair m) s { d with cas := { d.cas with forceO := false } } ∧
      (d.cas.pair = .deposed → d.pins.forceI = false → ∃ t, Completes (.rejoin m) s t ∧ t.regs = d.regs ∧ standby t) ∧
      (d.cas.pair ≠ .deposed ∨ d.pins.forceI = true → Completes (.rejoin m) s d)) ∧
    (d.coreOn = true → s.part.casc = true → s.part.pair = true → d.isNext (fun x => x.mtype == 0x17 && fld (x.body.headD 0) 0 3 == st.toNat) = true →
      (d.cas.pair = .active → ∃ t, Completes (.pairHello st) s t ∧ t = { d with kl := t.kl, cas := { d.cas with heardAt := d.cycle } }) ∧
      (d.cas.pair ≠ .active → d.cas.pair ≠ .activeSolo ∨ (d.kl.links[(2 : LinkId)]).st ≠ .active → ∃ t, Completes (.pairHello st) s t ∧ t = { d with kl := t.kl }) ∧
      (d.cas.pair = .activeSolo → (d.kl.links[(2 : LinkId)]).st = .active → ∃ t, Completes (.pairHello st) s t ∧ t.cas.pair = .active ∧ t.cas.peerLive = true ∧ t.kl.secured = d.kl.secured ∧ t.kl.lineOut = d.kl.lineOut ∧
        t.cas.heardAt = d.cycle ∧ t = { d with kl := t.kl, cas := t.cas })) ∧
    (d.coreOn = true → s.part.pair = true → d.cas.pair = .standby → ∃ (t : Dev) (f : Staged), Completes .pairHelloSend s t ∧
      t.kl.staged = d.kl.staged ++ Staged.recut (d.payCap 2) f.payload.length f ∧ f.link = 2 ∧ f.vc = 64 ∧
      f.payload = [place 0x17 0 ||| place 4 16, 0, 3].flatMap wordBytes ∧ t.cas = d.cas ∧ t.ctx = d.ctx ∧ sameBytes d t) ∧
    (d.coreOn = true → s.part.pair = true → d.cas.pair ≠ .standby → Completes .pairHelloSend s d) ∧
    (d.coreOn = true → s.part.pair = true → d.cas.pair ≠ .active ∨ (d.kl.links[(2 : LinkId)]).st = .deep →
      Completes .checkpointSend s d ∧ Completes .heartbeatSend s d) ∧
    (d.coreOn = true → s.part.pair = true → d.cas.pair = .active → (d.kl.links[(2 : LinkId)]).st ≠ .deep →
      (d.kl.secured = o :: rest → ∃ t, Completes .checkpointSend s t ∧ t.cas = { d.cas with nextCp := seq + 1, cpLast := some o } ∧ t.kl.secured = rest ∧
        (∀ f ∈ news t, f.link = 2 ∧ f.vc = 64 ∧ f.typ = 4) ∧
        (news t).flatMap (fun f => f.payload) = (d.cpWords s.part seq o (rest ++ d.kl.lineOut)).flatMap wordBytes ∧ t.ctx = d.ctx ∧ sameBytes d t) ∧
      (∃ t, Completes .heartbeatSend s t ∧ t.cas = { d.cas with nextCp := seq + 1 } ∧ (∀ f ∈ news t, f.link = 2 ∧ f.vc = 64 ∧ f.typ = 4) ∧
        (8 ≤ d.payCap 2 → (news t).flatMap (fun f => f.payload) = [seq, flag true 0 ||| flag d.running 1].flatMap wordBytes) ∧ t.ctx = d.ctx ∧ sameBytes d t)) ∧
    (d.coreOn = true → s.part.pair = true → d.cas.pair = .standby → d.frozen .mirrorIn = false → inTurn →
      (bit (cpWord data 1) 0 = false → inPd → granted ask = false → d.kl.mirIn ≠ [] → Completes (.checkpointReceive data) s d) ∧
      (bit (cpWord data 1) 0 = false → inPd → granted ask = true → 256 < left → granted d.cycle = false → ∃ t, Completes (.checkpointReceive data) s t ∧
        t.bytes here 256 = (data.drop did).take 256 ∧ sameBytesBut d t here 256 ∧ t.cas = d.cas ∧ t.ctx = d.ctx ∧
        (t.kl.mirIn.head?.map fun x => x.did) = some (did + 256)) ∧
      (bit (cpWord data 1) 0 = false → inPd → granted ask = true → left ≤ 256 ∨ granted d.cycle = true → ∃ t, Completes (.checkpointReceive data) s t ∧ t.cas.cp = some data ∧
        t.cas.cpHalf = !d.cas.cpHalf ∧ t.cas.cpSeq = cpWord data 0 ∧ t.cas.cpLine = cpWord data 2 ∧ t.cas.pair = .standby ∧ t.cas.heardAt = d.cycle ∧
        t.cas.tpeer = tpeerOf (bit (cpWord data 1) 1) (max 256 (cpWord data 12).toNat) (cpWord data 13).toNat ∧
        t.bytes here left = data.drop did ∧ sameBytesBut d t here left ∧ t.ctx = d.ctx) ∧
      (bit (cpWord data 1) 0 = true → ∃ t, Completes (.checkpointReceive data) s t ∧
        t = { d with kl := t.kl, cas := { d.cas with heardAt := d.cycle } })) ∧
    (d.coreOn = true → s.part.pair = true →
      (d.cas.pair = .standby → d.cas.cp ≠ none → d.peerSilent 1 = true → ∃ t, Completes .pairPeerLost s t ∧ t.cas = { d.cas with pair := .takeover, forceO := true, loaded := false } ∧
        ev47 t = ev47 d + 1 ∧ t = { d with cas := t.cas, ev := t.ev }) ∧
      (d.cas.pair = .active → d.peerSilent 2 = true → ∃ t, Completes .pairPeerLost s t ∧ t.cas = { d.cas with pair := .activeSolo, peerLive := false, cpLast := d.kl.secured.getLast?.or d.cas.cpLast } ∧ t.kl.secured = [] ∧
        t.kl.lineOut = d.kl.lineOut ∧ ev47 t = ev47 d + 1 ∧ t.ctx = d.ctx ∧ sameBytes d t)) ∧
    (s.part.pair = true → ∃ t, Completes (.pairForceIn high) s t ∧ t.pins.forceI = high ∧
      (high = true → d.cas.pair = .active ∨ d.cas.pair = .activeSolo → t.cas.pair = .deposed ∧ t.cas.forced = true ∧ t.hng.st = .off ∧ t.led = dark.led) ∧
      (high = false ∨ (d.cas.pair ≠ .active ∧ d.cas.pair ≠ .activeSolo) → t = { d with pins := { d.pins with forceI := high } }))

/-- The takeover (13 R310, R315, R316, R318): TAKEOVER_LOAD of the last whole checkpoint loads the pacing books of all streams, the Hinge's registers, and, when the peer ran, the Hinge in FROZEN_WAIT with the checkpoint's line and grid position and event 14 (02 R60), both axes at rest; PAIR_TAKEOVER then makes the device ACTIVE_SOLO with event 46. -/
def Obligations.PairTakeoverRule : Prop :=
  ∀ (s : State) (bs : List Byte), s.dev.coreOn = true → s.part.pair = true → s.dev.cas.pair = .takeover →
    let d := s.dev
    (d.cas.loaded = false → d.cas.cp = some bs →
      ∃ t, Completes .takeoverLoad s t ∧ t.cas.loaded = true ∧ t.cas.pLine = cpWord bs 2 ∧ t.cas.pair = .takeover ∧
        (∀ k : Fin 64, (t.hng.streams[k]).opened = bit (cpWord bs (16 + 4 * k.val)) 0 ∧
          (t.hng.streams[k]).granted = cpWord bs (17 + 4 * k.val) ∧ (t.hng.streams[k]).delivered = cpWord bs (18 + 4 * k.val) ∧
          (t.hng.streams[k]).avail = cpWord bs (17 + 4 * k.val) - cpWord bs (18 + 4 * k.val)) ∧
        t.reg 0x5000C = cpWord bs 12 ∧ t.reg 0x5002C = cpWord bs 13 ∧ t.reg 0x50000 = cpWord bs 14 ∧
        (t.mot[(0 : AxisId)]).v = 0 ∧ (t.mot[(1 : AxisId)]).v = 0 ∧ (t.mot[(1 : AxisId)]).p = cpPos bs 8 * 65536 ∧
        (bit (cpWord bs 1) 1 = true → t.hng.st = .frozenWait ∧ t.hng.reason = .takeover ∧
          (t.ev.src[(14 : Fin 64)]).seq = (d.ev.src[(14 : Fin 64)]).seq + 1 ∧ t.hng.lLast = cpWord bs 2 ∧ t.hng.lineNo = cpWord bs 2 + 1 ∧
          t.hng.pLast = cpPos bs 4 ∧ t.hng.next = cpPos bs 4 + t.pitch ∧ t.hng.dup = true ∧ t.hng.noPin = true) ∧
        (bit (cpWord bs 1) 1 = false → t.hng.st = d.hng.st)) ∧
    (d.cas.loaded = true → d.pins.forceI = false →
      ∃ t, Completes .pairTakeover s t ∧ t.cas = { d.cas with pair := .activeSolo, loaded := false } ∧
        (t.ev.src[(46 : Fin 64)]).seq = (d.ev.src[(46 : Fin 64)]).seq + 1 ∧ t = { d with cas := t.cas, ev := t.ev })

/-- STANDBY (01 R30, 05 R130, 11 R274, 14 R323, R324, R325, R326, R327, R328, R351): SYS STANDBY is refused with Z = 0 and the code of the first condition that fails, and accepted with Z = 1, which writes no code (DEDUCED, log 41, which also reads the seventh condition), with every beat that an engine has put out accepted; the entry, once SUSPEND is written, records STB, stops PLL-L, leaves the slots of the line store empty (DEDUCED, log 97) with LHOLD_N at its last level (R325) and keeps contexts, registers and every byte outside LS; a link that is late abandons it with code 8, a wake source before it with code 9; an enabled wake source wakes a sleeping device and is recorded with those of its AON tick (DEDUCED, log 40); PLL-C's lock goes before the reload of STB at a CK_AON edge past those counted (DEDUCED, log 91), after which the device runs, the held events are delivered and the kept housekeeping results are shown as far as their crossing has room, the others later. -/
def Obligations.StandbyAndWake : Prop :=
  ∀ (s : State) (c : CtxId) (src : WakeSrc) (n : Nat),
    let d := s.dev
    let i := s.issued c
    let quiet := bit (d.reg 0xF0000) 0 = false
    let wakes := d.wakeEn s.part src = true ∧ ∀ k, src = .link k → (d.kl.links[k]).st = .deep
    let frees (t : Dev) (code : Nat) : Prop := t.phase = .run ∧ t.pwr.refuse = code ∧ t.pwr.abandoned = true ∧ t.pwr.deepWait = [] ∧ t.regs = d.regs ∧
      (quiet → t.ctx = d.ctx ∧ sameBytes d t)
    (s.issues c → (d.ctx[c]).priv = true →
      let fails : List Bool := [decide (i.hng.st ≠ .off), decide (∃ k : DmaId, dmaPresent s.part k = true ∧ (i.dma[k]).st ≠ .idle),
        decide (∃ p : PortId, bit (i.portReg p 0) 0 = true ∨ (i.port[p]).disPend = true), i.motBusy 0 || i.motBusy 1, i.pwr.nvmOp.isSome, i.wdt.attached, i.wakeNow]
      let code := fails.findIdx id + 1
      (code ≤ 7 → Completes (.sysStandby c) s
        ({ i with pwr := { i.pwr with refuse := code } }.updCtx c fun y => { y with z := false, pc := y.pc + 4 })) ∧
      (7 < code → quiet → (∀ k : CtxId, (i.ctx[k]).sbuf = []) → (∀ k : LinkId, (i.kl.links[k]).st ≠ .active) → Completes (.sysStandby c) s
        ({ i.lateAll s.part with phase := .entering, pwr := { i.pwr with deepWait := [], suspDue := false } }.updCtx c fun y => { y with z := true, pc := y.pc + 4 }))) ∧
    (d.phase = .entering →
      (d.pwr.suspDue = true ∨ d.pwr.deepWait ≠ [] → Completes .standbyEntry s d) ∧
      (d.pwr.suspDue = false → d.pwr.deepWait = [] → ∃ t, Completes .standbyEntry s t ∧ t.phase = .standby ∧ t.pwr = { d.pwr with sEntry := d.stb, aonEdges := 0 } ∧
        t.kl = { d.kl with pll := false } ∧ (∀ a, regionOf s.part a ≠ .ls → regionOf s.part a ≠ .lsAbsent → t.byte a = d.byte a) ∧
        t.hk.res = d.hk.res ∧
        (∀ k : Fin 256, t.ls.slots[k] = { d.ls.slots[k] with st := .free, hold := 0 }) ∧ t.ls = { d.ls with slots := t.ls.slots, lowArmed := t.ls.lowArmed } ∧
        (∀ k : DmaId, t.dma[k] = { d.dma[k] with list := [] }) ∧
        t = { d with phase := t.phase, pwr := t.pwr, kl := t.kl, hk := t.hk, ls := t.ls, dma := t.dma, mem := t.mem, ecc := t.ecc, cas := { d.cas with lholdKept := d.lholdPulled s.part } }) ∧
      (d.pwr.deepWait ≠ [] → ∃ t, Completes .standbyDeepTimeout s t ∧ frees t 8) ∧
      (wakes → ∃ t, Completes (.wakeSource src) s t ∧ frees t 9)) ∧
    (d.phase = .standby → wakes →
      Completes (.wakeSource src) s { d with phase := .waking, pwr := { d.pwr with wakeSrc := place 1 (wakeBit src), wakeTick := d.pwr.aonEdges } }) ∧
    (d.phase = .waking ∨ d.phase = .reloading → wakes → Completes (.wakeSource src) s (if d.pwr.aonEdges = d.pwr.wakeTick then
      { d with pwr := { d.pwr with wakeSrc := d.pwr.wakeSrc ||| place 1 (wakeBit src) } } else d)) ∧
    (¬ wakes ∨ d.phase = .run → Completes (.wakeSource src) s d) ∧
    (d.phase = .clocks → Completes .pllcLock s { d with phase := .verify, stb := 0 }) ∧
    (d.phase = .waking → Completes .pllcLock s { d with phase := .reloading }) ∧
    (d.phase = .reloading → n ≤ d.pwr.aonEdges → Completes (.stbReload n) s d) ∧
    (d.phase = .reloading → d.pwr.aonEdges < n → ∃ t, Completes (.stbReload n) s t ∧ t.phase = .run ∧
      t.stb = d.pwr.sEntry + BitVec.ofNat 48 ((n * 390625 + d.pwr.frac) / 32) ∧ t.pwr.frac = (n * 390625 + d.pwr.frac) % 32 ∧
      t.pwr.slept = BitVec.ofNat 32 n ∧ t.pwr.sEntry = d.pwr.sEntry ∧ t.ev.held = [] ∧ t.ev.resync = List.range 65 ∧ t.hk.seq = .idle ∧ t.hk.conv = none ∧
      (∀ e : HkEnt, d.hk.kept[e] = none → t.hk.res[e] = d.hk.res[e] ∧ t.hk.aux[e] = d.hk.aux[e]) ∧
      (∀ (e : HkEnt) (r a : Word), d.hk.kept[e] = some (r, a) →
        let before := ((List.finRange 16).filter fun k : HkEnt => decide (k < e) && (d.hk.kept[k]).isSome).length
        (before + d.crossUsed 7 < 4 → t.hk.kept[e] = none ∧ t.hk.res[e] = putFld r 24 3 (d.hk.pass.toNat % 8) ||| 0x40000000 ∧ t.hk.aux[e] = a) ∧
        (4 ≤ before + d.crossUsed 7 → t.hk.kept[e] = some (r, a) ∧ t.hk.res[e] = d.hk.res[e] ∧ t.hk.aux[e] = d.hk.aux[e])) ∧ t.cas.heardAt = d.cycle ∧
      (quiet → t.ctx = d.ctx ∧ sameBytes d t))

/-- Resets (12 R288, R289, R290, 14 R330, R331): POWER_ON, PIN, BROWNOUT, PWR_CMD.RESET, SYS RESET and the failure of the LFRC each leave the device in reset with their code in PWR_RSTCAUSE; every register and context is at its reset value, NVM is unchanged when no operation runs, and but for POWER_ON, which zeroes AON, AON keeps its bytes outside the evidence block, which shows the cause, and the fault-ring indices and the WDT-B evidence stay; a failure of the LFXO raises event 50 and leaves CK_AON on the LFRC until a reset. -/
def Obligations.ResetCauses : Prop :=
  ∀ (s : State) (m : Master) (c : CtxId),
    let d := s.dev
    let P := s.part
    let resets (i : Instr) (code : Nat) : Prop := ∃ t, Completes i s t ∧ t.phase = .inReset ∧ t.pwr.rstCause = BitVec.ofNat 8 code ∧
      t.regs = [] ∧ t.ctx = Vector.replicate 64 {} ∧ t.ev = {} ∧ t.hng = {} ∧ t.mot = Vector.replicate 2 {} ∧ t.port = Vector.replicate 4 {} ∧
      t.dma = Vector.replicate 16 {} ∧ t.kl = {} ∧ t.hk = {} ∧ t.fifo = Vector.replicate 9 [] ∧ t.cas = {} ∧ t.late = [] ∧ t.mfrozen = 0 ∧ t.latch = [] ∧ t.pins = d.pins ∧
      (d.pwr.nvmOp = none → ∀ a, regionOf P a = .nvm → t.byte a = d.byte a) ∧
      (code = 1 → t.sys = {} ∧ t.wdt = {} ∧ ∀ a, regionOf P a = .aon → t.byte a = 0) ∧
      (code ≠ 1 →
        t.sys = { frW := d.sys.frW, frSeq := d.sys.frSeq, frR := d.sys.frR, frPend := d.sys.frPend, frOver := d.sys.frOver } ∧
        t.wdt = { bMissed := d.wdt.bMissed, evPc := d.wdt.evPc, evTs := d.wdt.evTs, evNone := d.wdt.evNone } ∧
        t.word 0x3000800 = (BitVec.ofNat 16 code ++
          (if code = 5 then BitVec.ofNat 16 (min 0xFFFF ((d.word 0x3000800).toNat % 65536 + 1)) else (d.word 0x3000800).extractLsb' 0 16) : BitVec 32) ∧
        t.word 0x3000804 = 0 ∧ t.word 0x3000808 = 0 ∧ t.word 0x300080C = ~~~(t.word 0x3000800) ∧
        ∀ a, regionOf P a = .aon → a < 0x3000800 ∨ 0x3000820 ≤ a → t.byte a = d.byte a)
    resets .powerOn 1 ∧
    (d.phase ≠ .inReset → resets .pin 2 ∧ resets .brownout 8 ∧ (d.wdt.onLfrc = true → resets .lfrcFail 5) ∧
      (d.wdt.onLfrc = false → Completes .lfrcFail s d ∧ ∃ t, Completes .lfxoFail s t ∧ t.wdt = { d.wdt with lfxoFail := true, onLfrc := true } ∧
        t = { d with wdt := t.wdt, ev := t.ev } ∧ (d.phase = .run → (t.ev.src[(50 : Fin 64)]).seq = (d.ev.src[(50 : Fin 64)]).seq + 1)) ∧
      (d.wdt.lfxoFail = false → Completes .lfxoStart s { d with wdt := { d.wdt with onLfrc := false } }) ∧
      (d.wdt.lfxoFail = true → Completes .lfxoStart s d)) ∧
    (s.mayWrite m 0xD0014 → resets (.pwrCmdReset m) (if m = .mgmt then 7 else 6)) ∧
    (s.issues c → (d.ctx[c]).priv = true → (d.ctx[c]).sbuf = [] → resets (.sysReset c) 6)

/-- The end of reset, the end of the boot and a register write take place (01 R16, R18, R25, 14 R335, R338, R339): RESET_RELEASE of a device held in reset goes on to the wait for its clocks; BOOT_OUTCOME of a device whose images the boot ROM has verified ends the boot in RUN, with the outcome RECOVERY exactly when the SUP image fails a check; and MMIO_WRITE at an offset of the region, by a master that may write it, is accepted, takes up its crossing and has the register's effect. -/
def Obligations.ResetBootAndWritesComplete : Prop :=
  ∀ (s : State) (m : Master) (o : Nat) (v : Word),
    let d := s.dev
    (d.phase = .inReset → ∃ t, Completes .resetRelease s t ∧ t.phase = .clocks ∧ t.ctx = d.ctx ∧ t.regs = d.regs ∧ sameBytes d t) ∧
    (d.phase = .verify → ∃ t, Completes .bootOutcome s t ∧ t.phase = .run ∧ (t.sys.outcome = 3 ↔ d.imgFails s.part false ≠ [])) ∧
    (s.mayWrite m o → Completes (.mmioWrite m (BitVec.ofNat 32 (0x8000000 + o)) v) s
      ((d.crossWrite s.part o).mmioWrite s.part m (s.storeAt m).1 (s.storeAt m).2 o v))

/-- The boot (12 R276, 13 R295, 14 R333, R334, R335, R336, R337, R338, R339): the end of reset reads the straps and starts WDT-A with AUTOSTART; with a SUP image that fails any check, of its header, key hash, signature, ECC or of a blank fuse (SHA-256 and ECDSA as FIPS gives them: PRESUMED, log 13), the outcome is RECOVERY, every context is STOPPED, 0 and, where the part has it, 32 in S privilege at 0, and every link is DISABLED; otherwise FULL or RESTRICTED, with the image's body at its load address, contexts 0 and 32 (where present) READY in S privilege at their entries, and the image's ID shown. -/
def Obligations.BootOutcomes : Prop :=
  ∀ (s : State),
    let d := s.dev
    let P := s.part
    let w := fun o => d.word (0x4000000 + o)
    (d.phase = .inReset → ∃ t, Completes .resetRelease s t ∧ t.phase = .clocks ∧ t.cas.strap = d.pins.role ∧ t.wdt.aRun = (d.wdt.aRun || P.autostart) ∧
      t = { d with phase := t.phase, cas := t.cas, wdt := t.wdt }) ∧
    (d.phase = .verify → d.imgFails P false ≠ [] → ∃ t, Completes .bootOutcome s t ∧ t.phase = .run ∧ t.sys.outcome = 3 ∧ t.sys.mismatch = 0 ∧
      (∀ c : CtxId, t.ctx[c] =
        if c = 0 ∨ (c = 32 ∧ ctxPresent P 32 = true) then { d.ctx[c] with run := .stopped, priv := true, pc := 0 } else { d.ctx[c] with run := .stopped }) ∧
      (∀ k : LinkId, (t.kl.links[k]).st = .disabled) ∧ ((∀ k : LinkId, (d.kl.links[k]).st = .disabled) → t.kl = d.kl) ∧ t.regs = d.regs) ∧
    (d.phase = .verify → d.imgFails P false = [] → bit (d.reg 0xF0000) 0 = false → ∃ t, Completes .bootOutcome s t ∧ t.phase = .run ∧
      (t.sys.outcome = 1 ∨ t.sys.outcome = 2) ∧ t.sys.reason = 0 ∧ t.sys.supId = w 0xC ∧
      t.bytes (w 0x1C).toNat (w 8).toNat = d.bytes 0x40000C0 (w 8).toNat ∧
      (t.ctx[(0 : CtxId)]).run = .ready ∧ (t.ctx[(0 : CtxId)]).priv = true ∧ (t.ctx[(0 : CtxId)]).pc = w 0x20 ∧
      (ctxPresent P 32 = true → (t.ctx[(32 : CtxId)]).run = .ready ∧ (t.ctx[(32 : CtxId)]).priv = true ∧ (t.ctx[(32 : CtxId)]).pc = w 0x24) ∧
      (∀ c : CtxId, c ≠ 0 → c ≠ 32 → t.ctx[c] = d.ctx[c]))

/-- NVM operations (14 R340, R342): a command starts the operation on the unit addressed, and with an operation in progress it is refused with BUSYREJ alone (DEDUCED, log 108), on a protected sector, or as a PROGRAM of a unit that is not erased by its corrected contents (DESIGN CHOICE, log 16), with its flags; the operation's end stores the unit, or erases the sector to 0xFF, and no other byte changes; NVM_WPROT bits are only set. And: Temperature, supplies and trace (01 R25, 07 R160, 14 R332, R349, R350, R352): a sample is shown, and goes on to the shading filter that takes it, where it waits for room in the crossing, and one that reaches PWR_TWARN raises event 54 once until a sample falls below PWR_TWARN - 50; a supply's exit from its window latches and raises event 55 once until it returns; an enable of the trace writes EN and places a SYNC packet for every traced context that is not STOPPED, the last one marked, behind a GAP packet where losses are owed, as many as find room: in the FIFO of 256, or at TRC_WPTR of the trace buffer in PD, each put out by master 83 as a beat that its port accepts in its turn (01 R17), none while that master is frozen (DEDUCED, log 111); a traced context's jump puts out a BRANCH packet with its PC and target there; memory changes when BURST_GRANT accepts a beat, at its bytes alone. -/
def Obligations.NvmSensorsAndTrace : Prop :=
  (∀ (s : State) (m : Master) (v : Word) (u k : Nat) (x : Vector Word 4),
    let d := s.dev
    let p := d.pwr
    let unit := (d.reg 0xE0000).toNat / 16 % 32768
    let at_ := 0x4000000 + 16 * unit
    let prot := if unit / 256 < 96 then p.wprot.getLsbD 0 else p.wprot.getLsbD 1
    let full := !(decide (∀ b ∈ d.bytes at_ 16, b = 0xFF)) || decide (d.mark at_ = some .double)
    let leaves (i : Instr) (q : Pwr) : Prop := Completes i s { d with pwr := q }
    (s.mayWrite m 0xE0014 →
      (p.nvmOp ≠ none → leaves (.program m) { p with busyRej := true } ∧ leaves (.erase m) { p with busyRej := true }) ∧
      (p.nvmOp = none →
        (prot = false → full = false →
          leaves (.program m) { p with nvmOp := some (.program unit #v[d.reg 0xE0004, d.reg 0xE0008, d.reg 0xE000C, d.reg 0xE0010]) }) ∧
        (prot = true ∨ full = true → leaves (.program m) { p with prot := p.prot || prot, notBlank := p.notBlank || full }) ∧
        (prot = false → leaves (.erase m) { p with nvmOp := some (.erase (unit / 256)) }) ∧
        (prot = true → leaves (.erase m) { p with prot := true }))) ∧
    (s.mayWrite m 0xE001C → leaves (.nvmWprotWrite m v) { p with wprot := p.wprot ||| v.extractLsb' 0 2 }) ∧
    (d.up = true →
      (p.nvmOp = some (.program u x) → u < 32768 → ∃ t, Completes .nvmOperationDone s t ∧ t.pwr = { p with nvmOp := none, nvmDone := true } ∧
        t.bytes (0x4000000 + 16 * u) 16 = x.toList.flatMap wordBytes ∧ sameBytesBut d t (0x4000000 + 16 * u) 16 ∧
        t = { d with pwr := t.pwr, mem := t.mem, ecc := t.ecc }) ∧
      (p.nvmOp = some (.erase k) → k < 128 → ∃ t, Completes .nvmOperationDone s t ∧ t.pwr = { p with nvmOp := none, nvmDone := true } ∧
        (∀ a, 0x4000000 + 4096 * k ≤ a → a < 0x4000000 + 4096 * k + 4096 → t.byte a = 0xFF) ∧ sameBytesBut d t (0x4000000 + 4096 * k) 4096 ∧
        t = { d with pwr := t.pwr, mem := t.mem, ecc := t.ecc }))) ∧
  (∀ (s : State) (m : Master) (v : Word) (temp : Half) (mon : Fin 4) (c : CtxId) (imm : Imm26),
    let d := s.dev
    let p := d.pwr
    let seq (t : Dev) (n : Fin 64) := (t.ev.src[n]).seq
    let warn := ((d.reg 0xD0018).extractLsb' 0 16).toInt
    let rptr := fld (d.reg 0xF000C) 4 12
    let put (i : Nat) (k : Vector Word 4) : LateWrite := ⟨.debug, .pd, fld (d.reg 0xF0004) 16 4 * 65536 + 16 * i, k.toList.flatMap wordBytes, d.cycle⟩
    let traced := (List.finRange 64).filter fun c : CtxId => (d.reg 0xF0014 ++ d.reg 0xF0010 : BitVec 64).getLsbD c.val && decide ((d.ctx[c]).run ≠ .stopped)
    let sync := traced.map fun c => d.packet 4 c.val (d.ctx[c]).pc (runBits d.ctx[c] ||| if traced.getLast? = some c then 8 else 0)
    let gap := d.packet 7 0 (nword p.tOwed) 0
    let packets := if 0 < p.tOwed then gap :: sync else sync
    (d.phase = .run →
      (∃ t, Completes (.dieTempSample temp) s t ∧
        t = { d with pwr := t.pwr, ev := t.ev, pix := t.pix, hk := t.hk, fifo := t.fifo, free := t.free } ∧
        (bit (d.reg 0x40000) 3 = false → t = { d with pwr := t.pwr, ev := t.ev }) ∧
        (bit (d.reg 0x40000) 3 = true → d.crossRoom 7 = false ∨ d.hk.dieHeld ≠ [] → t.pix = d.pix ∧ t.hk = { d.hk with dieHeld := d.hk.dieHeld ++ [temp.toInt] }) ∧
        (bit (d.reg 0x40000) 3 = true → d.crossRoom 7 = true → d.hk.dieHeld = [] → t.pix = (d.tempUpdate temp.toInt).pix ∧ t.hk = d.hk) ∧
        (warn ≤ temp.toInt → p.tempArmed = true → t.pwr = { p with dieTemp := temp, tempArmed := false } ∧ seq t 54 = seq d 54 + 1) ∧
        (warn ≤ temp.toInt → p.tempArmed = false → t.pwr = { p with dieTemp := temp } ∧ t.ev = d.ev) ∧
        (temp.toInt < warn → t.pwr = { p with dieTemp := temp, tempArmed := p.tempArmed || decide (temp.toInt < warn - 50) } ∧ t.ev = d.ev)) ∧
      (p.supOut.getLsbD mon.val = false → ∃ t, Completes (.supplyWarn mon true) s t ∧ t = { d with pwr := t.pwr, ev := t.ev } ∧
        t.pwr = { p with supOut := p.supOut ||| (1#4 <<< mon.val), supLatch := p.supLatch ||| (1#4 <<< mon.val) } ∧ seq t 55 = seq d 55 + 1) ∧
      (p.supOut.getLsbD mon.val = true → Completes (.supplyWarn mon true) s d)) ∧
    Completes (.supplyWarn mon false) s { d with pwr := { p with supOut := p.supOut &&& ~~~(1#4 <<< mon.val) } } ∧
    (s.mayWrite m 0xF0000 → ∃ t, Completes (.trcEnable m v) s t ∧ t.reg 0xF0000 = (d.reg 0xF0000 &&& ~~~7) ||| ((v ||| 1) &&& 7) ∧
      (bit (d.reg 0xF0000) 0 = true → t = { d with regs := t.regs }) ∧
      (bit (d.reg 0xF0000) 0 = false → p.tWptr < 4096 → 
        let placed := if d.frozen .debug then 0 else if bit v 2 then min packets.length ((rptr + 4095 - p.tWptr) % 4096) else packets.length
        t = { d with regs := t.regs, pwr := t.pwr, late := t.late } ∧ sameBytes d t ∧ t.pwr.tSince ≤ 64 ∧
        (bit v 1 = true → t.pwr.tFifo = p.tFifo ++ packets.take (256 - p.tFifo.length) ∧ t.late = d.late ∧ t.pwr.tWptr = p.tWptr) ∧
        (bit v 1 = false → t.pwr.tFifo = p.tFifo ∧ t.pwr.tWptr = (p.tWptr + placed) % 4096 ∧
          t.late = d.late ++ (packets.take placed).zipIdx.map fun x => put ((p.tWptr + x.2) % 4096) x.1))) ∧
    (s.issues c → d.traced c = true → fld (d.reg 0xF0000) 1 2 = 0 → d.frozen .debug = false → p.tOwed = 0 → p.tSince < 1023 → p.tWptr < 4096 →
      let y := d.ctx[c]
      let dest := y.pc + (imm.signExtend 32 <<< 2)
      ∃ t, Completes (.jal c imm) s t ∧ sameBytes d t ∧ t.pwr.tWptr = (p.tWptr + 1) % 4096 ∧ (t.ctx[c]).pc = dest ∧
        t.late = d.late ++ [put p.tWptr #v[(d.stb.extractLsb' 32 16 ++ BitVec.ofNat 12 c.val ++ 1#4 : BitVec 32), d.stb.extractLsb' 0 32, y.pc, dest]]) ∧
    (∀ (w : LateWrite) (r : List LateWrite), d.coreOn = true → d.late = w :: r → (w.port = .nvm → p.nvmOp = none) → (∀ n : DmaId, (d.dma[n]).burst = 0) →
      oldestReq (d.waiting s.part w.port) = some (w.who, .late) → regionOf s.part w.addr = .pd → regionOf s.part (w.addr + w.bytes.length - 1) = .pd →
      ∃ t, Completes (.burstGrant w.port) s t ∧ t.late = r ∧ t.bytes w.addr w.bytes.length = w.bytes ∧ sameBytesBut d t w.addr w.bytes.length ∧
        t = { d with mem := t.mem, ecc := t.ecc, ev := t.ev, late := r }))

/-- Management requests executed (01 R17, 16 R367, R370, R371, 02 R41), with fewer than 16 answers waiting, in arrival order (10 R243), for this device's own chain address; an answer goes out within the link's MAXPAY (10 R235, log 68). MREAD of 1 to 64 words of PD without uncorrectable errors answers with the words, COUNT and status OK; each word goes when the executor is granted it, and a request whose first word has to wait stays in front with nothing done (01 R17); MWRITE stores its words there, raises event 43 and answers unless NORESP is set; a request that is not well formed, by COUNT or length, is answered with FORMAT and COUNT 0 (DEDUCED, log 36); CREDIT grants its pair to an open stream; CAPS answers with seven words, of which SUP and LNK of an image that is not valid read 0 (DEDUCED, log 75); PING gives its body back, and one above 64 bytes is discarded and counted (DEDUCED, log 36). -/
def Obligations.ManagementRequests : Prop :=
  ∀ (s : State) (k : LinkId) (tag w0 a : Word) (vs : List Word),
    let d := s.dev
    let n := reqCount w0
    let takes := fun (mt : Nat) (tag : Word) (body : List Word) => d.takesRequest s.part k mt tag body = true
    let own := place (d.ownAddr s.part) 8
    let inPd : Nat → Prop := fun c => a.toNat % 4 = 0 ∧ a.toNat + 4 * c ≤ 0x100000
    let fresh := d.reqDone = (0, (0, 0), [])
    let free := fun (w : Bool) => ∀ i < n, d.wordFree s.part (if i = 0 then d.inboxAsk else d.cycle) (a + nword (4 * i)) w = true
    let answers : Dev → Nat → List Word → Prop := fun t mt body => ∃ f : Staged, t.kl.staged = d.kl.staged ++ Staged.recut (d.payCap k) f.payload.length f ∧ f.link = k ∧ f.vc = 64 ∧ f.typ = 2 ∧
      f.answer = true ∧ f.payload = ([place mt 0 ||| place (4 * body.length) 16, tag] ++ body).flatMap wordBytes
    let seq43 := fun t : Dev => (t.ev.src[(43 : Fin 64)]).seq
    (takes 1 tag [w0, a] → reqDev s.part w0 = d.ownAddr s.part → 1 ≤ n → n ≤ 64 → inPd n → fresh → free false → (∀ i < n, d.eccBad s.part (a.toNat + 4 * i) 4 = false) →
      ∃ t, Completes (.mread k tag [w0, a]) s t ∧ t.ctx = d.ctx ∧ sameBytes d t ∧
        answers t 3 ([place 0 0 ||| own ||| place n 16, 0] ++ (List.range n).map fun i => d.word (a.toNat + 4 * i))) ∧
    (takes 1 tag [w0, a] → reqDev s.part w0 = d.ownAddr s.part → 1 ≤ n → n ≤ 64 → fresh → d.wordFree s.part d.inboxAsk a false = false →
      Completes (.mread k tag [w0, a]) s (d.keepRequest s.part k 1 tag [w0, a])) ∧
    (takes 1 tag (w0 :: vs) → reqDev s.part w0 = d.ownAddr s.part → n = 0 ∨ 64 < n ∨ vs.length ≠ 1 → ∃ t, Completes (.mread k tag (w0 :: vs)) s t ∧ t.ctx = d.ctx ∧ sameBytes d t ∧
      answers t 3 [place 5 0 ||| own ||| place 0 16, 0] ∧ seq43 t = seq43 d) ∧
    (takes 2 tag (w0 :: vs) → reqDev s.part w0 = d.ownAddr s.part → n = 0 ∨ 64 < n ∨ vs.length ≠ n + 1 → ∃ t, Completes (.mwrite k tag (w0 :: vs)) s t ∧ t.ctx = d.ctx ∧ sameBytes d t ∧
      answers t 3 [place 5 0 ||| own ||| place 0 16, 0] ∧ seq43 t = seq43 d) ∧
    (takes 2 tag (w0 :: a :: vs) → reqDev s.part w0 = d.ownAddr s.part → 1 ≤ n → n ≤ 64 → inPd n → fresh → free true → vs.length = n → s.part.halock = false →
      ∃ t, Completes (.mwrite k tag (w0 :: a :: vs)) s t ∧ t.ctx = d.ctx ∧ (∀ i (h : i < vs.length), t.word (a.toNat + 4 * i) = vs[i]) ∧
        sameBytesBut d t a.toNat (4 * n) ∧ seq43 t = seq43 d + 1 ∧
        (bit w0 16 = true → t.kl.staged = d.kl.staged) ∧ (bit w0 16 = false → answers t 3 [place 0 0 ||| own ||| place n 16, 0])) ∧
    (∀ q : Fin 64, takes 5 ((d.kl.inbox.head?.map fun x => x.tag).getD 0) [w0, a] → (if s.part.casc then fld w0 8 4 else 0) = d.ownAddr s.part → fld w0 0 6 = q.val → (d.hng.streams[q]).opened = true →
      (d.hng.streams[q]).avail.toNat + a.toNat ≤ 0xFFFFFF →
      ∃ t, Completes (.credit k [w0, a]) s t ∧ (t.hng.streams[q]).granted = (d.hng.streams[q]).granted + a ∧
        (t.hng.streams[q]).avail = (d.hng.streams[q]).avail + a ∧ (∀ j : Fin 64, j ≠ q → t.hng.streams[j] = d.hng.streams[j]) ∧
        seq43 t = seq43 d + 1 ∧ t.kl.staged = d.kl.staged ∧ t.ctx = d.ctx ∧ sameBytes d t) ∧
    (takes 6 tag [] → ∃ t, Completes (.capsMessage k tag) s t ∧ t.ctx = d.ctx ∧ sameBytes d t ∧ seq43 t = seq43 d ∧
      answers t 6 [s.part.id, s.part.caps, d.sys.boot, 0x0102, d.sys.supId, d.sys.lnkId, place (d.ownAddr s.part) 0 ||| place d.cas.len 4]) ∧
    (takes 7 tag vs → vs.length ≤ 16 → ∃ t, Completes (.ping k tag vs) s t ∧ t.ctx = d.ctx ∧ sameBytes d t ∧ answers t 7 vs ∧ seq43 t = seq43 d + 1) ∧
    (takes 7 tag vs → 16 < vs.length → ∃ t, Completes (.ping k tag vs) s t ∧ t.ctx = d.ctx ∧ sameBytes d t ∧ t.kl.staged = d.kl.staged ∧
      t.sys.discarded = if d.sys.discarded = 255 then 255 else d.sys.discarded + 1)

/-- SPI transactions, debug accesses and the TAP (16 R367, R373, R374, R375, 01 R16, R17, R25, 17 R393). A request whose CRC-8 holds is executed as the management master's word access in PD and answered with its status, the data most significant byte first, and a CRC-8; while a VC 64 request that came before it, or its port, keeps it waiting, the request is kept and answered later, when the executor is granted its access; a wrong CRC is counted and answered with 4, an unknown command with 5; the rise of CS_N drops what is left, and an access that waits is then made without an answer. A debug access reads or writes one word of PD while master 83 is not frozen, or waits for its port, and the TAP returns busy while it is frozen, or while the crossing holds 4 requests (DEDUCED, log 37). IDCODE shifts the variant's code out, SAMPLE takes the levels of the balls into the boundary register and fills its output stage, and EXTEST, CLAMP and HIGHZ change the instruction in force alone (DEDUCED, log 37). -/
def Obligations.SpiDebugAndTap : Prop :=
  ∀ (s : State) (a v : Word) (crc cmd : Byte) (body : List Byte) (w : Bool) (code : BitVec 4), s.dev.coreOn = true →
    let d := s.dev
    let good := crc8 (0x03 :: wordBytesBE a) = crc
    let goodW := crc8 (0x02 :: (wordBytesBE a ++ wordBytesBE v)) = crc
    let pd := a.toNat % 4 = 0 ∧ a.toNat < 0x100000
    let bad : Dev := { d with
      sys := { d.sys with spiCrc := if d.sys.spiCrc = 255 then 255 else d.sys.spiCrc + 1 }, spi := spiResponse 4 [], out := d.out ++ [.spi (spiResponse 4 [])] }
    let goes := fun (w : Bool) => d.spiReq = [] ∧ d.spiWaits s.part d.cycle = false ∧ d.wordFree s.part d.cycle a w = true
    let waits := fun (w : Bool) => d.spiReq = [] ∧ (d.spiWaits s.part d.cycle = true ∨ d.wordFree s.part d.cycle a w = false)
    (good → pd → goes false → d.eccBad s.part a.toNat 4 = false → ∃ t, Completes (.spiRead a crc) s t ∧ t.spi = spiResponse 0 (wordBytesBE (d.word a.toNat)) ∧
      t.out = d.out ++ [.spi (spiResponse 0 (wordBytesBE (d.word a.toNat)))] ∧ t.spiReq = [] ∧ t.ctx = d.ctx ∧ sameBytes d t) ∧
    (goodW → pd → goes true → s.part.halock = false → ∃ t, Completes (.spiWrite a v crc) s t ∧ t.spi = spiResponse 0 [] ∧
      t.out = d.out ++ [.spi (spiResponse 0 [])] ∧ t.spiReq = [] ∧ t.word a.toNat = v ∧ sameBytesBut d t a.toNat 4 ∧ t.ctx = d.ctx) ∧
    (goodW → s.part.halock = true → pd → goes true → ∃ t, Completes (.spiWrite a v crc) s t ∧ t.spi = spiResponse 3 [] ∧ t.ctx = d.ctx ∧ sameBytes d t) ∧
    (good → waits false → Completes (.spiRead a crc) s { d with spiReq := [⟨false, a, 0, d.cycle, true⟩] }) ∧
    (goodW → waits true → Completes (.spiWrite a v crc) s { d with spiReq := [⟨true, a, v, d.cycle, true⟩] }) ∧
    (∀ age, d.spiReq = [⟨false, a, 0, age, true⟩] → pd → d.eccBad s.part a.toNat 4 = false → d.spiWaits s.part age = false →
      d.wordFree s.part age a false = true → (∀ n : DmaId, (d.dma[n]).burst = 0) → oldestReq (d.waiting s.part .pd) = some (.mgmt, .burst) →
      ∃ t, Completes (.burstGrant .pd) s t ∧ t.spi = spiResponse 0 (wordBytesBE (d.word a.toNat)) ∧ t.spiReq = [] ∧
        t.out = d.out ++ [.spi (spiResponse 0 (wordBytesBE (d.word a.toNat)))] ∧ t.ctx = d.ctx ∧ sameBytes d t) ∧
    (¬ good → Completes (.spiRead a crc) s bad) ∧ (¬ goodW → Completes (.spiWrite a v crc) s bad) ∧
    (cmd ≠ 0x02 → cmd ≠ 0x03 → crc8 (cmd :: body) = crc →
      Completes (.spiUnknownCommand cmd body crc) s { d with spi := spiResponse 5 [], out := d.out ++ [.spi (spiResponse 5 [])] }) ∧
    Completes .spiCsRise s { d with spi := [], spiReq := d.spiReq.map fun r => { r with wanted := false } } ∧
    (s.part.dbgdis = false → d.frozen .debug = true ∨ d.crossRoom 8 = false ∨ 4 ≤ d.dbgReq.length →
      Completes (.debugAccessRequest w a v) s { d with out := d.out ++ [.tap none] }) ∧
    (s.part.dbgdis = false → d.frozen .debug = false → d.crossRoom 8 = true → d.dbgReq = [] → pd →
      (d.grantable s.part .pd d.cycle .debug = true → d.eccBad s.part a.toNat 4 = false →
        ∃ t, Completes (.debugAccessRequest false a v) s t ∧ t.out = d.out ++ [.tap (some (d.word a.toNat))] ∧ t.dbgReq = [] ∧ t.ctx = d.ctx ∧ sameBytes d t) ∧
      (d.grantable s.part .pd d.cycle .debug = true →
        ∃ t, Completes (.debugAccessRequest true a v) s t ∧ t.out = d.out ∧ t.dbgReq = [] ∧ t.word a.toNat = v ∧ sameBytesBut d t a.toNat 4 ∧ t.ctx = d.ctx) ∧
      (d.grantable s.part .pd d.cycle .debug = false → Completes (.debugAccessRequest w a v) s { d.cross 8 with dbgReq := [⟨w, a, v, d.cycle⟩] })) ∧
    (Completes (.tapInstruction 2) s { d with tap := 2, out := d.out ++ [.tap (some s.part.idcode)] }) ∧
    (s.part.dbgdis = false → code = 0 ∨ code = 3 ∨ code = 4 → Completes (.tapInstruction code) s { d with tap := code }) ∧
    (s.part.dbgdis = false → ∃ t, Completes (.tapInstruction 1) s t ∧ t.bsr.length = 72 ∧ t.preload.length = 72 ∧
      (∀ (i : Nat) b l, balls[i]? = some b → d.ballIn s.part b = some l → t.bsr[i]? = some l) ∧ t = { d with tap := 1, bsr := t.bsr, preload := t.preload, free := d.free + 1 }) ∧
    (s.part.dbgdis = true ∨ 4 < code.toNat → code ≠ 2 → Completes (.tapInstruction code) s { d with tap := 0xF })

/-- Writes of SYS_FR_RIDX, CTX_CMD and CTX_THAW (16 R364, 03 R71, R82, R83, R84, R91): the read index sets PENDING by the distance to the write index, and the indices before it are kept for a record of the same cycle; CTX_CMD operations 1 to 5 on a context the part has start, stop, reset and set the privilege of it, STOP, RESET and the privilege at an instruction boundary, which here it stands at; CTX_THAW, written by a context or the management master, clears FROZEN of the named context or of a master from 80 to 84, and makes a frozen DMA channel IDLE with its lines abandoned (09 R217); written by another master it does nothing; a number of an absent context or channel sets SYS_FAULT.ABSENT. Nothing else changes where the target is not traced and its sequencer's clock runs. -/
def Obligations.CtxAndFaultRingWrites : Prop :=
  ∀ (s : State) (m : Master) (v : Word) (b : Byte) (n : CtxId) (q : Fin 5) (ch : DmaId), b.toNat = n.val → ctxPresent s.part n = true →
    let d := s.dev
    let y := d.ctx[n]
    let goes (i : Instr) (f : Ctx → Ctx) : Prop := ∃ t, Completes i s t ∧ t.ctx = upd d.ctx n f ∧
      (d.traced n = false → d.pwr.gated[sequencerOf n] = false → t = { d with ctx := t.ctx } ∧ sameBytes d t)
    let r : BitVec 6 := v.extractLsb' 0 6
    (s.mayWrite m 0x14 → Completes (.sysFrRidxWrite m v) s { d with sys := { d.sys with
      ridxAt := some d.cycle, ridxWas := (d.sys.frR, d.sys.frPend), frR := r, frPend := if d.sys.frW = r then (if d.sys.frPend = 64 then 64 else 0) else (d.sys.frW - r).toNat } }) ∧
    (s.mayWrite m 0x10024 →
      (y.run = .stopped → d.sys.outcome ≠ 3 →
        goes (.ctxCmdStart m b) (fun y => { y with run := .ready, urgent := 0, firstDue := false, fetched := false, issuableSince := d.cycle })) ∧
      (y.run ≠ .stopped → y.resetting = false → y.atBoundary = true → y.due = {} →
        goes (.ctxCmdStop m b) (fun y => { y with run := .stopped, urgent := 0, firstDue := false })) ∧
      (y.atBoundary = true → y.due = {} → y.sbuf = [] →
        goes (.ctxCmdReset m b) (fun y => { y with
          run := .stopped, urgent := 0, g := Vector.replicate 16 0, z := false, n := false, c := false, v := false, abs := false, pc := y.entry
          emask := 0, queue := [], wrec := Vector.replicate 4 0, wake := none, cold := false, firstDue := false, fetched := false, resetting := false
          issuableSince := d.cycle })) ∧
      (y.atBoundary = true → y.due = {} → goes (.ctxCmdSetU m b) (fun y => { y with priv := false })) ∧
      (y.atBoundary = true → y.due = {} → goes (.ctxCmdSetS m b) (fun y => { y with priv := true }))) ∧
    (s.mayWrite m 0x10020 →
      let nothing : Prop := Completes (.ctxThawWrite m v) s d
      (masterAbsent s.part (fld v 0 8) = true → Completes (.ctxThawWrite m v) s { d with sys := { d.sys with absent := true } }) ∧
      (m = .debug ∨ m = .mirrorIn → masterAbsent s.part (fld v 0 8) = false → nothing) ∧
      (m ≠ .debug → m ≠ .mirrorIn →
        (fld v 0 8 = n.val → y.frozen = true → goes (.ctxThawWrite m v) (fun y => { y with frozen := false, fetched := false, issuableSince := d.cycle })) ∧
        (fld v 0 8 = n.val → y.frozen = false → nothing) ∧
        (fld v 0 8 = 64 + ch.val → dmaPresent s.part ch = true →
          (d.frozen (.dma ch) = false → nothing) ∧
          (d.frozen (.dma ch) = true → ∃ t, Completes (.ctxThawWrite m v) s t ∧ t.mfrozen = d.mfrozen &&& ~~~(1#21 <<< ch.val) ∧
            (t.dma[ch]).st = .idle ∧ (t.dma[ch]).bound = none ∧ (t.dma[ch]).list = [] ∧ t.ctx = d.ctx ∧ sameBytes d t)) ∧
        (fld v 0 8 = 80 + q.val →
          (d.mfrozen.getLsbD (16 + q.val) = true → Completes (.ctxThawWrite m v) s { d with mfrozen := d.mfrozen &&& ~~~(1#21 <<< (16 + q.val)) }) ∧
          (d.mfrozen.getLsbD (16 + q.val) = false → nothing))))
end

