-- ==== Sys2Proof/Laws/State.lean ====
section
/-!
SUPPORT. What each update of the device leaves as it was, field by field, and what it does to its own field: every equation holds by rfl, so that no later proof unfolds a record update.
-/
namespace Sys2Proof.Laws

open Sys2Proof.Machine

-- One thread: the package is compiled as one text, and each waiting thread costs a whole stack.
set_option Elab.async false

/-- Fields of the device after updCtx. -/
@[simp] theorem updCtx_fields (d : Dev) (c : CtxId) (f : Ctx → Ctx) :
    (d.updCtx c f).ctx = upd d.ctx c f ∧ (d.updCtx c f).phase = d.phase ∧ (d.updCtx c f).stb = d.stb ∧ (d.updCtx c f).cycle = d.cycle
    ∧ (d.updCtx c f).free = d.free ∧ (d.updCtx c f).out = d.out ∧ (d.updCtx c f).pins = d.pins ∧ (d.updCtx c f).mem = d.mem
    ∧ (d.updCtx c f).ecc = d.ecc ∧ (d.updCtx c f).reqs = d.reqs ∧ (d.updCtx c f).regs = d.regs ∧ (d.updCtx c f).latch = d.latch
    ∧ (d.updCtx c f).rdata = d.rdata ∧ (d.updCtx c f).mfrozen = d.mfrozen ∧ (d.updCtx c f).ev = d.ev ∧ (d.updCtx c f).sys = d.sys
    ∧ (d.updCtx c f).hng = d.hng ∧ (d.updCtx c f).mot = d.mot ∧ (d.updCtx c f).led = d.led ∧ (d.updCtx c f).pldup = d.pldup
    ∧ (d.updCtx c f).widthErr = d.widthErr ∧ (d.updCtx c f).port = d.port ∧ (d.updCtx c f).acq = d.acq ∧ (d.updCtx c f).pix = d.pix
    ∧ (d.updCtx c f).ls = d.ls ∧ (d.updCtx c f).dma = d.dma ∧ (d.updCtx c f).kl = d.kl ∧ (d.updCtx c f).hk = d.hk
    ∧ (d.updCtx c f).wdt = d.wdt ∧ (d.updCtx c f).cas = d.cas ∧ (d.updCtx c f).pwr = d.pwr ∧ (d.updCtx c f).spi = d.spi
    ∧ (d.updCtx c f).tap = d.tap ∧ (d.updCtx c f).promo = d.promo ∧ (d.updCtx c f).fifo = d.fifo ∧
    (d.updCtx c f).spiReq = d.spiReq ∧ (d.updCtx c f).dbgReq = d.dbgReq ∧ (d.updCtx c f).bsr = d.bsr ∧
    (d.updCtx c f).preload = d.preload ∧ (d.updCtx c f).late = d.late := by
  refine ⟨rfl, rfl, rfl, rfl, rfl, rfl, rfl, rfl, rfl, rfl, rfl, rfl, rfl, rfl, rfl, rfl, rfl, rfl, rfl, rfl, rfl, rfl, rfl, rfl, rfl, rfl, rfl, rfl, rfl, rfl, rfl, rfl, rfl, rfl, rfl, rfl, rfl, rfl, rfl, rfl⟩

/-- Fields of the device after updHng. -/
@[simp] theorem updHng_fields (d : Dev) (f : Hinge → Hinge) :
    (d.updHng f).hng = f d.hng ∧ (d.updHng f).phase = d.phase ∧ (d.updHng f).stb = d.stb ∧ (d.updHng f).cycle = d.cycle
    ∧ (d.updHng f).free = d.free ∧ (d.updHng f).out = d.out ∧ (d.updHng f).pins = d.pins ∧ (d.updHng f).mem = d.mem
    ∧ (d.updHng f).ecc = d.ecc ∧ (d.updHng f).reqs = d.reqs ∧ (d.updHng f).regs = d.regs ∧ (d.updHng f).latch = d.latch
    ∧ (d.updHng f).rdata = d.rdata ∧ (d.updHng f).mfrozen = d.mfrozen ∧ (d.updHng f).ctx = d.ctx ∧ (d.updHng f).ev = d.ev
    ∧ (d.updHng f).sys = d.sys ∧ (d.updHng f).mot = d.mot ∧ (d.updHng f).led = d.led ∧ (d.updHng f).pldup = d.pldup
    ∧ (d.updHng f).widthErr = d.widthErr ∧ (d.updHng f).port = d.port ∧ (d.updHng f).acq = d.acq ∧ (d.updHng f).pix = d.pix
    ∧ (d.updHng f).ls = d.ls ∧ (d.updHng f).dma = d.dma ∧ (d.updHng f).kl = d.kl ∧ (d.updHng f).hk = d.hk ∧ (d.updHng f).wdt = d.wdt
    ∧ (d.updHng f).cas = d.cas ∧ (d.updHng f).pwr = d.pwr ∧ (d.updHng f).spi = d.spi ∧ (d.updHng f).tap = d.tap ∧ (d.updHng f).promo = d.promo ∧ (d.updHng f).fifo = d.fifo ∧
    (d.updHng f).spiReq = d.spiReq ∧ (d.updHng f).dbgReq = d.dbgReq ∧ (d.updHng f).bsr = d.bsr ∧
    (d.updHng f).preload = d.preload ∧ (d.updHng f).late = d.late := by
  refine ⟨rfl, rfl, rfl, rfl, rfl, rfl, rfl, rfl, rfl, rfl, rfl, rfl, rfl, rfl, rfl, rfl, rfl, rfl, rfl, rfl, rfl, rfl, rfl, rfl, rfl, rfl, rfl, rfl, rfl, rfl, rfl, rfl, rfl, rfl, rfl, rfl, rfl, rfl, rfl, rfl⟩

/-- Fields of the device after updStream. -/
@[simp] theorem updStream_fields (d : Dev) (n : Fin 64) (f : Stream → Stream) :
    (d.updStream n f).hng = { d.hng with streams := upd d.hng.streams n f } ∧ (d.updStream n f).phase = d.phase
    ∧ (d.updStream n f).stb = d.stb ∧ (d.updStream n f).cycle = d.cycle ∧ (d.updStream n f).free = d.free
    ∧ (d.updStream n f).out = d.out ∧ (d.updStream n f).pins = d.pins ∧ (d.updStream n f).mem = d.mem ∧ (d.updStream n f).ecc = d.ecc
    ∧ (d.updStream n f).reqs = d.reqs ∧ (d.updStream n f).regs = d.regs ∧ (d.updStream n f).latch = d.latch
    ∧ (d.updStream n f).rdata = d.rdata ∧ (d.updStream n f).mfrozen = d.mfrozen ∧ (d.updStream n f).ctx = d.ctx
    ∧ (d.updStream n f).ev = d.ev ∧ (d.updStream n f).sys = d.sys ∧ (d.updStream n f).mot = d.mot ∧ (d.updStream n f).led = d.led
    ∧ (d.updStream n f).pldup = d.pldup ∧ (d.updStream n f).widthErr = d.widthErr ∧ (d.updStream n f).port = d.port
    ∧ (d.updStream n f).acq = d.acq ∧ (d.updStream n f).pix = d.pix ∧ (d.updStream n f).ls = d.ls ∧ (d.updStream n f).dma = d.dma
    ∧ (d.updStream n f).kl = d.kl ∧ (d.updStream n f).hk = d.hk ∧ (d.updStream n f).wdt = d.wdt ∧ (d.updStream n f).cas = d.cas
    ∧ (d.updStream n f).pwr = d.pwr ∧ (d.updStream n f).spi = d.spi ∧ (d.updStream n f).tap = d.tap ∧ (d.updStream n f).promo = d.promo ∧ (d.updStream n f).fifo = d.fifo ∧
    (d.updStream n f).spiReq = d.spiReq ∧ (d.updStream n f).dbgReq = d.dbgReq ∧ (d.updStream n f).bsr = d.bsr ∧
    (d.updStream n f).preload = d.preload ∧ (d.updStream n f).late = d.late := by
  refine ⟨rfl, rfl, rfl, rfl, rfl, rfl, rfl, rfl, rfl, rfl, rfl, rfl, rfl, rfl, rfl, rfl, rfl, rfl, rfl, rfl, rfl, rfl, rfl, rfl, rfl, rfl, rfl, rfl, rfl, rfl, rfl, rfl, rfl, rfl, rfl, rfl, rfl, rfl, rfl, rfl⟩

/-- Fields of the device after updMot. -/
@[simp] theorem updMot_fields (d : Dev) (m : AxisId) (f : Axis → Axis) :
    (d.updMot m f).mot = upd d.mot m f ∧ (d.updMot m f).phase = d.phase ∧ (d.updMot m f).stb = d.stb ∧ (d.updMot m f).cycle = d.cycle
    ∧ (d.updMot m f).free = d.free ∧ (d.updMot m f).out = d.out ∧ (d.updMot m f).pins = d.pins ∧ (d.updMot m f).mem = d.mem
    ∧ (d.updMot m f).ecc = d.ecc ∧ (d.updMot m f).reqs = d.reqs ∧ (d.updMot m f).regs = d.regs ∧ (d.updMot m f).latch = d.latch
    ∧ (d.updMot m f).rdata = d.rdata ∧ (d.updMot m f).mfrozen = d.mfrozen ∧ (d.updMot m f).ctx = d.ctx ∧ (d.updMot m f).ev = d.ev
    ∧ (d.updMot m f).sys = d.sys ∧ (d.updMot m f).hng = d.hng ∧ (d.updMot m f).led = d.led ∧ (d.updMot m f).pldup = d.pldup
    ∧ (d.updMot m f).widthErr = d.widthErr ∧ (d.updMot m f).port = d.port ∧ (d.updMot m f).acq = d.acq ∧ (d.updMot m f).pix = d.pix
    ∧ (d.updMot m f).ls = d.ls ∧ (d.updMot m f).dma = d.dma ∧ (d.updMot m f).kl = d.kl ∧ (d.updMot m f).hk = d.hk
    ∧ (d.updMot m f).wdt = d.wdt ∧ (d.updMot m f).cas = d.cas ∧ (d.updMot m f).pwr = d.pwr ∧ (d.updMot m f).spi = d.spi
    ∧ (d.updMot m f).tap = d.tap ∧ (d.updMot m f).promo = d.promo ∧ (d.updMot m f).fifo = d.fifo ∧
    (d.updMot m f).spiReq = d.spiReq ∧ (d.updMot m f).dbgReq = d.dbgReq ∧ (d.updMot m f).bsr = d.bsr ∧
    (d.updMot m f).preload = d.preload ∧ (d.updMot m f).late = d.late := by
  refine ⟨rfl, rfl, rfl, rfl, rfl, rfl, rfl, rfl, rfl, rfl, rfl, rfl, rfl, rfl, rfl, rfl, rfl, rfl, rfl, rfl, rfl, rfl, rfl, rfl, rfl, rfl, rfl, rfl, rfl, rfl, rfl, rfl, rfl, rfl, rfl, rfl, rfl, rfl, rfl, rfl⟩

/-- Fields of the device after updLed. -/
@[simp] theorem updLed_fields (d : Dev) (k : Fin 4) (f : Led → Led) :
    (d.updLed k f).led = upd d.led k f ∧ (d.updLed k f).phase = d.phase ∧ (d.updLed k f).stb = d.stb ∧ (d.updLed k f).cycle = d.cycle
    ∧ (d.updLed k f).free = d.free ∧ (d.updLed k f).out = d.out ∧ (d.updLed k f).pins = d.pins ∧ (d.updLed k f).mem = d.mem
    ∧ (d.updLed k f).ecc = d.ecc ∧ (d.updLed k f).reqs = d.reqs ∧ (d.updLed k f).regs = d.regs ∧ (d.updLed k f).latch = d.latch
    ∧ (d.updLed k f).rdata = d.rdata ∧ (d.updLed k f).mfrozen = d.mfrozen ∧ (d.updLed k f).ctx = d.ctx ∧ (d.updLed k f).ev = d.ev
    ∧ (d.updLed k f).sys = d.sys ∧ (d.updLed k f).hng = d.hng ∧ (d.updLed k f).mot = d.mot ∧ (d.updLed k f).pldup = d.pldup
    ∧ (d.updLed k f).widthErr = d.widthErr ∧ (d.updLed k f).port = d.port ∧ (d.updLed k f).acq = d.acq ∧ (d.updLed k f).pix = d.pix
    ∧ (d.updLed k f).ls = d.ls ∧ (d.updLed k f).dma = d.dma ∧ (d.updLed k f).kl = d.kl ∧ (d.updLed k f).hk = d.hk
    ∧ (d.updLed k f).wdt = d.wdt ∧ (d.updLed k f).cas = d.cas ∧ (d.updLed k f).pwr = d.pwr ∧ (d.updLed k f).spi = d.spi
    ∧ (d.updLed k f).tap = d.tap ∧ (d.updLed k f).promo = d.promo ∧ (d.updLed k f).fifo = d.fifo ∧
    (d.updLed k f).spiReq = d.spiReq ∧ (d.updLed k f).dbgReq = d.dbgReq ∧ (d.updLed k f).bsr = d.bsr ∧
    (d.updLed k f).preload = d.preload ∧ (d.updLed k f).late = d.late := by
  refine ⟨rfl, rfl, rfl, rfl, rfl, rfl, rfl, rfl, rfl, rfl, rfl, rfl, rfl, rfl, rfl, rfl, rfl, rfl, rfl, rfl, rfl, rfl, rfl, rfl, rfl, rfl, rfl, rfl, rfl, rfl, rfl, rfl, rfl, rfl, rfl, rfl, rfl, rfl, rfl, rfl⟩

/-- Fields of the device after updPort. -/
@[simp] theorem updPort_fields (d : Dev) (p : PortId) (f : PortSt → PortSt) :
    (d.updPort p f).port = upd d.port p f ∧ (d.updPort p f).phase = d.phase ∧ (d.updPort p f).stb = d.stb
    ∧ (d.updPort p f).cycle = d.cycle ∧ (d.updPort p f).free = d.free ∧ (d.updPort p f).out = d.out ∧ (d.updPort p f).pins = d.pins
    ∧ (d.updPort p f).mem = d.mem ∧ (d.updPort p f).ecc = d.ecc ∧ (d.updPort p f).reqs = d.reqs ∧ (d.updPort p f).regs = d.regs
    ∧ (d.updPort p f).latch = d.latch ∧ (d.updPort p f).rdata = d.rdata ∧ (d.updPort p f).mfrozen = d.mfrozen
    ∧ (d.updPort p f).ctx = d.ctx ∧ (d.updPort p f).ev = d.ev ∧ (d.updPort p f).sys = d.sys ∧ (d.updPort p f).hng = d.hng
    ∧ (d.updPort p f).mot = d.mot ∧ (d.updPort p f).led = d.led ∧ (d.updPort p f).pldup = d.pldup
    ∧ (d.updPort p f).widthErr = d.widthErr ∧ (d.updPort p f).acq = d.acq ∧ (d.updPort p f).pix = d.pix ∧ (d.updPort p f).ls = d.ls
    ∧ (d.updPort p f).dma = d.dma ∧ (d.updPort p f).kl = d.kl ∧ (d.updPort p f).hk = d.hk ∧ (d.updPort p f).wdt = d.wdt
    ∧ (d.updPort p f).cas = d.cas ∧ (d.updPort p f).pwr = d.pwr ∧ (d.updPort p f).spi = d.spi ∧ (d.updPort p f).tap = d.tap ∧ (d.updPort p f).promo = d.promo ∧ (d.updPort p f).fifo = d.fifo ∧
    (d.updPort p f).spiReq = d.spiReq ∧ (d.updPort p f).dbgReq = d.dbgReq ∧ (d.updPort p f).bsr = d.bsr ∧
    (d.updPort p f).preload = d.preload ∧ (d.updPort p f).late = d.late := by
  refine ⟨rfl, rfl, rfl, rfl, rfl, rfl, rfl, rfl, rfl, rfl, rfl, rfl, rfl, rfl, rfl, rfl, rfl, rfl, rfl, rfl, rfl, rfl, rfl, rfl, rfl, rfl, rfl, rfl, rfl, rfl, rfl, rfl, rfl, rfl, rfl, rfl, rfl, rfl, rfl, rfl⟩

/-- Fields of the device after updPix. -/
@[simp] theorem updPix_fields (d : Dev) (f : Pix → Pix) :
    (d.updPix f).pix = f d.pix ∧ (d.updPix f).phase = d.phase ∧ (d.updPix f).stb = d.stb ∧ (d.updPix f).cycle = d.cycle
    ∧ (d.updPix f).free = d.free ∧ (d.updPix f).out = d.out ∧ (d.updPix f).pins = d.pins ∧ (d.updPix f).mem = d.mem
    ∧ (d.updPix f).ecc = d.ecc ∧ (d.updPix f).reqs = d.reqs ∧ (d.updPix f).regs = d.regs ∧ (d.updPix f).latch = d.latch
    ∧ (d.updPix f).rdata = d.rdata ∧ (d.updPix f).mfrozen = d.mfrozen ∧ (d.updPix f).ctx = d.ctx ∧ (d.updPix f).ev = d.ev
    ∧ (d.updPix f).sys = d.sys ∧ (d.updPix f).hng = d.hng ∧ (d.updPix f).mot = d.mot ∧ (d.updPix f).led = d.led
    ∧ (d.updPix f).pldup = d.pldup ∧ (d.updPix f).widthErr = d.widthErr ∧ (d.updPix f).port = d.port ∧ (d.updPix f).acq = d.acq
    ∧ (d.updPix f).ls = d.ls ∧ (d.updPix f).dma = d.dma ∧ (d.updPix f).kl = d.kl ∧ (d.updPix f).hk = d.hk ∧ (d.updPix f).wdt = d.wdt
    ∧ (d.updPix f).cas = d.cas ∧ (d.updPix f).pwr = d.pwr ∧ (d.updPix f).spi = d.spi ∧ (d.updPix f).tap = d.tap ∧ (d.updPix f).promo = d.promo ∧ (d.updPix f).fifo = d.fifo ∧
    (d.updPix f).spiReq = d.spiReq ∧ (d.updPix f).dbgReq = d.dbgReq ∧ (d.updPix f).bsr = d.bsr ∧
    (d.updPix f).preload = d.preload ∧ (d.updPix f).late = d.late := by
  refine ⟨rfl, rfl, rfl, rfl, rfl, rfl, rfl, rfl, rfl, rfl, rfl, rfl, rfl, rfl, rfl, rfl, rfl, rfl, rfl, rfl, rfl, rfl, rfl, rfl, rfl, rfl, rfl, rfl, rfl, rfl, rfl, rfl, rfl, rfl, rfl, rfl, rfl, rfl, rfl, rfl⟩

/-- Fields of the device after updSlot. -/
@[simp] theorem updSlot_fields (d : Dev) (n : Fin 256) (f : Slot → Slot) :
    (d.updSlot n f).ls = { d.ls with slots := upd d.ls.slots n f } ∧ (d.updSlot n f).phase = d.phase ∧ (d.updSlot n f).stb = d.stb
    ∧ (d.updSlot n f).cycle = d.cycle ∧ (d.updSlot n f).free = d.free ∧ (d.updSlot n f).out = d.out ∧ (d.updSlot n f).pins = d.pins
    ∧ (d.updSlot n f).mem = d.mem ∧ (d.updSlot n f).ecc = d.ecc ∧ (d.updSlot n f).reqs = d.reqs ∧ (d.updSlot n f).regs = d.regs
    ∧ (d.updSlot n f).latch = d.latch ∧ (d.updSlot n f).rdata = d.rdata ∧ (d.updSlot n f).mfrozen = d.mfrozen
    ∧ (d.updSlot n f).ctx = d.ctx ∧ (d.updSlot n f).ev = d.ev ∧ (d.updSlot n f).sys = d.sys ∧ (d.updSlot n f).hng = d.hng
    ∧ (d.updSlot n f).mot = d.mot ∧ (d.updSlot n f).led = d.led ∧ (d.updSlot n f).pldup = d.pldup
    ∧ (d.updSlot n f).widthErr = d.widthErr ∧ (d.updSlot n f).port = d.port ∧ (d.updSlot n f).acq = d.acq ∧ (d.updSlot n f).pix = d.pix
    ∧ (d.updSlot n f).dma = d.dma ∧ (d.updSlot n f).kl = d.kl ∧ (d.updSlot n f).hk = d.hk ∧ (d.updSlot n f).wdt = d.wdt
    ∧ (d.updSlot n f).cas = d.cas ∧ (d.updSlot n f).pwr = d.pwr ∧ (d.updSlot n f).spi = d.spi ∧ (d.updSlot n f).tap = d.tap ∧ (d.updSlot n f).promo = d.promo ∧ (d.updSlot n f).fifo = d.fifo ∧
    (d.updSlot n f).spiReq = d.spiReq ∧ (d.updSlot n f).dbgReq = d.dbgReq ∧ (d.updSlot n f).bsr = d.bsr ∧
    (d.updSlot n f).preload = d.preload ∧ (d.updSlot n f).late = d.late := by
  refine ⟨rfl, rfl, rfl, rfl, rfl, rfl, rfl, rfl, rfl, rfl, rfl, rfl, rfl, rfl, rfl, rfl, rfl, rfl, rfl, rfl, rfl, rfl, rfl, rfl, rfl, rfl, rfl, rfl, rfl, rfl, rfl, rfl, rfl, rfl, rfl, rfl, rfl, rfl, rfl, rfl⟩

/-- Fields of the device after updDma. -/
@[simp] theorem updDma_fields (d : Dev) (n : DmaId) (f : Chan → Chan) :
    (d.updDma n f).dma = upd d.dma n f ∧ (d.updDma n f).phase = d.phase ∧ (d.updDma n f).stb = d.stb ∧ (d.updDma n f).cycle = d.cycle
    ∧ (d.updDma n f).free = d.free ∧ (d.updDma n f).out = d.out ∧ (d.updDma n f).pins = d.pins ∧ (d.updDma n f).mem = d.mem
    ∧ (d.updDma n f).ecc = d.ecc ∧ (d.updDma n f).reqs = d.reqs ∧ (d.updDma n f).regs = d.regs ∧ (d.updDma n f).latch = d.latch
    ∧ (d.updDma n f).rdata = d.rdata ∧ (d.updDma n f).mfrozen = d.mfrozen ∧ (d.updDma n f).ctx = d.ctx ∧ (d.updDma n f).ev = d.ev
    ∧ (d.updDma n f).sys = d.sys ∧ (d.updDma n f).hng = d.hng ∧ (d.updDma n f).mot = d.mot ∧ (d.updDma n f).led = d.led
    ∧ (d.updDma n f).pldup = d.pldup ∧ (d.updDma n f).widthErr = d.widthErr ∧ (d.updDma n f).port = d.port ∧ (d.updDma n f).acq = d.acq
    ∧ (d.updDma n f).pix = d.pix ∧ (d.updDma n f).ls = d.ls ∧ (d.updDma n f).kl = d.kl ∧ (d.updDma n f).hk = d.hk
    ∧ (d.updDma n f).wdt = d.wdt ∧ (d.updDma n f).cas = d.cas ∧ (d.updDma n f).pwr = d.pwr ∧ (d.updDma n f).spi = d.spi
    ∧ (d.updDma n f).tap = d.tap ∧ (d.updDma n f).promo = d.promo ∧ (d.updDma n f).fifo = d.fifo ∧
    (d.updDma n f).spiReq = d.spiReq ∧ (d.updDma n f).dbgReq = d.dbgReq ∧ (d.updDma n f).bsr = d.bsr ∧
    (d.updDma n f).preload = d.preload ∧ (d.updDma n f).late = d.late := by
  refine ⟨rfl, rfl, rfl, rfl, rfl, rfl, rfl, rfl, rfl, rfl, rfl, rfl, rfl, rfl, rfl, rfl, rfl, rfl, rfl, rfl, rfl, rfl, rfl, rfl, rfl, rfl, rfl, rfl, rfl, rfl, rfl, rfl, rfl, rfl, rfl, rfl, rfl, rfl, rfl, rfl⟩

/-- Fields of the device after updKl. -/
@[simp] theorem updKl_fields (d : Dev) (f : Kl → Kl) :
    (d.updKl f).kl = f d.kl ∧ (d.updKl f).phase = d.phase ∧ (d.updKl f).stb = d.stb ∧ (d.updKl f).cycle = d.cycle
    ∧ (d.updKl f).free = d.free ∧ (d.updKl f).out = d.out ∧ (d.updKl f).pins = d.pins ∧ (d.updKl f).mem = d.mem
    ∧ (d.updKl f).ecc = d.ecc ∧ (d.updKl f).reqs = d.reqs ∧ (d.updKl f).regs = d.regs ∧ (d.updKl f).latch = d.latch
    ∧ (d.updKl f).rdata = d.rdata ∧ (d.updKl f).mfrozen = d.mfrozen ∧ (d.updKl f).ctx = d.ctx ∧ (d.updKl f).ev = d.ev
    ∧ (d.updKl f).sys = d.sys ∧ (d.updKl f).hng = d.hng ∧ (d.updKl f).mot = d.mot ∧ (d.updKl f).led = d.led
    ∧ (d.updKl f).pldup = d.pldup ∧ (d.updKl f).widthErr = d.widthErr ∧ (d.updKl f).port = d.port ∧ (d.updKl f).acq = d.acq
    ∧ (d.updKl f).pix = d.pix ∧ (d.updKl f).ls = d.ls ∧ (d.updKl f).dma = d.dma ∧ (d.updKl f).hk = d.hk ∧ (d.updKl f).wdt = d.wdt
    ∧ (d.updKl f).cas = d.cas ∧ (d.updKl f).pwr = d.pwr ∧ (d.updKl f).spi = d.spi ∧ (d.updKl f).tap = d.tap ∧ (d.updKl f).promo = d.promo ∧ (d.updKl f).fifo = d.fifo ∧
    (d.updKl f).spiReq = d.spiReq ∧ (d.updKl f).dbgReq = d.dbgReq ∧ (d.updKl f).bsr = d.bsr ∧
    (d.updKl f).preload = d.preload ∧ (d.updKl f).late = d.late := by
  refine ⟨rfl, rfl, rfl, rfl, rfl, rfl, rfl, rfl, rfl, rfl, rfl, rfl, rfl, rfl, rfl, rfl, rfl, rfl, rfl, rfl, rfl, rfl, rfl, rfl, rfl, rfl, rfl, rfl, rfl, rfl, rfl, rfl, rfl, rfl, rfl, rfl, rfl, rfl, rfl, rfl⟩

/-- Fields of the device after updLink. -/
@[simp] theorem updLink_fields (d : Dev) (k : LinkId) (f : Link → Link) :
    (d.updLink k f).kl = { d.kl with links := upd d.kl.links k f } ∧ (d.updLink k f).phase = d.phase ∧ (d.updLink k f).stb = d.stb
    ∧ (d.updLink k f).cycle = d.cycle ∧ (d.updLink k f).free = d.free ∧ (d.updLink k f).out = d.out ∧ (d.updLink k f).pins = d.pins
    ∧ (d.updLink k f).mem = d.mem ∧ (d.updLink k f).ecc = d.ecc ∧ (d.updLink k f).reqs = d.reqs ∧ (d.updLink k f).regs = d.regs
    ∧ (d.updLink k f).latch = d.latch ∧ (d.updLink k f).rdata = d.rdata ∧ (d.updLink k f).mfrozen = d.mfrozen
    ∧ (d.updLink k f).ctx = d.ctx ∧ (d.updLink k f).ev = d.ev ∧ (d.updLink k f).sys = d.sys ∧ (d.updLink k f).hng = d.hng
    ∧ (d.updLink k f).mot = d.mot ∧ (d.updLink k f).led = d.led ∧ (d.updLink k f).pldup = d.pldup
    ∧ (d.updLink k f).widthErr = d.widthErr ∧ (d.updLink k f).port = d.port ∧ (d.updLink k f).acq = d.acq ∧ (d.updLink k f).pix = d.pix
    ∧ (d.updLink k f).ls = d.ls ∧ (d.updLink k f).dma = d.dma ∧ (d.updLink k f).hk = d.hk ∧ (d.updLink k f).wdt = d.wdt
    ∧ (d.updLink k f).cas = d.cas ∧ (d.updLink k f).pwr = d.pwr ∧ (d.updLink k f).spi = d.spi ∧ (d.updLink k f).tap = d.tap ∧ (d.updLink k f).promo = d.promo ∧ (d.updLink k f).fifo = d.fifo ∧
    (d.updLink k f).spiReq = d.spiReq ∧ (d.updLink k f).dbgReq = d.dbgReq ∧ (d.updLink k f).bsr = d.bsr ∧
    (d.updLink k f).preload = d.preload ∧ (d.updLink k f).late = d.late := by
  refine ⟨rfl, rfl, rfl, rfl, rfl, rfl, rfl, rfl, rfl, rfl, rfl, rfl, rfl, rfl, rfl, rfl, rfl, rfl, rfl, rfl, rfl, rfl, rfl, rfl, rfl, rfl, rfl, rfl, rfl, rfl, rfl, rfl, rfl, rfl, rfl, rfl, rfl, rfl, rfl, rfl⟩

/-- Fields of the device after updLane. -/
@[simp] theorem updLane_fields (d : Dev) (n : LaneId) (f : Lane → Lane) :
    (d.updLane n f).kl = { d.kl with lanes := upd d.kl.lanes n f } ∧ (d.updLane n f).phase = d.phase ∧ (d.updLane n f).stb = d.stb
    ∧ (d.updLane n f).cycle = d.cycle ∧ (d.updLane n f).free = d.free ∧ (d.updLane n f).out = d.out ∧ (d.updLane n f).pins = d.pins
    ∧ (d.updLane n f).mem = d.mem ∧ (d.updLane n f).ecc = d.ecc ∧ (d.updLane n f).reqs = d.reqs ∧ (d.updLane n f).regs = d.regs
    ∧ (d.updLane n f).latch = d.latch ∧ (d.updLane n f).rdata = d.rdata ∧ (d.updLane n f).mfrozen = d.mfrozen
    ∧ (d.updLane n f).ctx = d.ctx ∧ (d.updLane n f).ev = d.ev ∧ (d.updLane n f).sys = d.sys ∧ (d.updLane n f).hng = d.hng
    ∧ (d.updLane n f).mot = d.mot ∧ (d.updLane n f).led = d.led ∧ (d.updLane n f).pldup = d.pldup
    ∧ (d.updLane n f).widthErr = d.widthErr ∧ (d.updLane n f).port = d.port ∧ (d.updLane n f).acq = d.acq ∧ (d.updLane n f).pix = d.pix
    ∧ (d.updLane n f).ls = d.ls ∧ (d.updLane n f).dma = d.dma ∧ (d.updLane n f).hk = d.hk ∧ (d.updLane n f).wdt = d.wdt
    ∧ (d.updLane n f).cas = d.cas ∧ (d.updLane n f).pwr = d.pwr ∧ (d.updLane n f).spi = d.spi ∧ (d.updLane n f).tap = d.tap ∧ (d.updLane n f).promo = d.promo ∧ (d.updLane n f).fifo = d.fifo ∧
    (d.updLane n f).spiReq = d.spiReq ∧ (d.updLane n f).dbgReq = d.dbgReq ∧ (d.updLane n f).bsr = d.bsr ∧
    (d.updLane n f).preload = d.preload ∧ (d.updLane n f).late = d.late := by
  refine ⟨rfl, rfl, rfl, rfl, rfl, rfl, rfl, rfl, rfl, rfl, rfl, rfl, rfl, rfl, rfl, rfl, rfl, rfl, rfl, rfl, rfl, rfl, rfl, rfl, rfl, rfl, rfl, rfl, rfl, rfl, rfl, rfl, rfl, rfl, rfl, rfl, rfl, rfl, rfl, rfl⟩

/-- Fields of the device after updHk. -/
@[simp] theorem updHk_fields (d : Dev) (f : Hk → Hk) :
    (d.updHk f).hk = f d.hk ∧ (d.updHk f).phase = d.phase ∧ (d.updHk f).stb = d.stb ∧ (d.updHk f).cycle = d.cycle
    ∧ (d.updHk f).free = d.free ∧ (d.updHk f).out = d.out ∧ (d.updHk f).pins = d.pins ∧ (d.updHk f).mem = d.mem
    ∧ (d.updHk f).ecc = d.ecc ∧ (d.updHk f).reqs = d.reqs ∧ (d.updHk f).regs = d.regs ∧ (d.updHk f).latch = d.latch
    ∧ (d.updHk f).rdata = d.rdata ∧ (d.updHk f).mfrozen = d.mfrozen ∧ (d.updHk f).ctx = d.ctx ∧ (d.updHk f).ev = d.ev
    ∧ (d.updHk f).sys = d.sys ∧ (d.updHk f).hng = d.hng ∧ (d.updHk f).mot = d.mot ∧ (d.updHk f).led = d.led
    ∧ (d.updHk f).pldup = d.pldup ∧ (d.updHk f).widthErr = d.widthErr ∧ (d.updHk f).port = d.port ∧ (d.updHk f).acq = d.acq
    ∧ (d.updHk f).pix = d.pix ∧ (d.updHk f).ls = d.ls ∧ (d.updHk f).dma = d.dma ∧ (d.updHk f).kl = d.kl ∧ (d.updHk f).wdt = d.wdt
    ∧ (d.updHk f).cas = d.cas ∧ (d.updHk f).pwr = d.pwr ∧ (d.updHk f).spi = d.spi ∧ (d.updHk f).tap = d.tap ∧ (d.updHk f).promo = d.promo ∧ (d.updHk f).fifo = d.fifo ∧
    (d.updHk f).spiReq = d.spiReq ∧ (d.updHk f).dbgReq = d.dbgReq ∧ (d.updHk f).bsr = d.bsr ∧
    (d.updHk f).preload = d.preload ∧ (d.updHk f).late = d.late := by
  refine ⟨rfl, rfl, rfl, rfl, rfl, rfl, rfl, rfl, rfl, rfl, rfl, rfl, rfl, rfl, rfl, rfl, rfl, rfl, rfl, rfl, rfl, rfl, rfl, rfl, rfl, rfl, rfl, rfl, rfl, rfl, rfl, rfl, rfl, rfl, rfl, rfl, rfl, rfl, rfl, rfl⟩

/-- Fields of the device after updWdt. -/
@[simp] theorem updWdt_fields (d : Dev) (f : Wdt → Wdt) :
    (d.updWdt f).wdt = f d.wdt ∧ (d.updWdt f).phase = d.phase ∧ (d.updWdt f).stb = d.stb ∧ (d.updWdt f).cycle = d.cycle
    ∧ (d.updWdt f).free = d.free ∧ (d.updWdt f).out = d.out ∧ (d.updWdt f).pins = d.pins ∧ (d.updWdt f).mem = d.mem
    ∧ (d.updWdt f).ecc = d.ecc ∧ (d.updWdt f).reqs = d.reqs ∧ (d.updWdt f).regs = d.regs ∧ (d.updWdt f).latch = d.latch
    ∧ (d.updWdt f).rdata = d.rdata ∧ (d.updWdt f).mfrozen = d.mfrozen ∧ (d.updWdt f).ctx = d.ctx ∧ (d.updWdt f).ev = d.ev
    ∧ (d.updWdt f).sys = d.sys ∧ (d.updWdt f).hng = d.hng ∧ (d.updWdt f).mot = d.mot ∧ (d.updWdt f).led = d.led
    ∧ (d.updWdt f).pldup = d.pldup ∧ (d.updWdt f).widthErr = d.widthErr ∧ (d.updWdt f).port = d.port ∧ (d.updWdt f).acq = d.acq
    ∧ (d.updWdt f).pix = d.pix ∧ (d.updWdt f).ls = d.ls ∧ (d.updWdt f).dma = d.dma ∧ (d.updWdt f).kl = d.kl ∧ (d.updWdt f).hk = d.hk
    ∧ (d.updWdt f).cas = d.cas ∧ (d.updWdt f).pwr = d.pwr ∧ (d.updWdt f).spi = d.spi ∧ (d.updWdt f).tap = d.tap ∧ (d.updWdt f).promo = d.promo ∧ (d.updWdt f).fifo = d.fifo ∧
    (d.updWdt f).spiReq = d.spiReq ∧ (d.updWdt f).dbgReq = d.dbgReq ∧ (d.updWdt f).bsr = d.bsr ∧
    (d.updWdt f).preload = d.preload ∧ (d.updWdt f).late = d.late := by
  refine ⟨rfl, rfl, rfl, rfl, rfl, rfl, rfl, rfl, rfl, rfl, rfl, rfl, rfl, rfl, rfl, rfl, rfl, rfl, rfl, rfl, rfl, rfl, rfl, rfl, rfl, rfl, rfl, rfl, rfl, rfl, rfl, rfl, rfl, rfl, rfl, rfl, rfl, rfl, rfl, rfl⟩

/-- Fields of the device after updCas. -/
@[simp] theorem updCas_fields (d : Dev) (f : Cas → Cas) :
    (d.updCas f).cas = f d.cas ∧ (d.updCas f).phase = d.phase ∧ (d.updCas f).stb = d.stb ∧ (d.updCas f).cycle = d.cycle
    ∧ (d.updCas f).free = d.free ∧ (d.updCas f).out = d.out ∧ (d.updCas f).pins = d.pins ∧ (d.updCas f).mem = d.mem
    ∧ (d.updCas f).ecc = d.ecc ∧ (d.updCas f).reqs = d.reqs ∧ (d.updCas f).regs = d.regs ∧ (d.updCas f).latch = d.latch
    ∧ (d.updCas f).rdata = d.rdata ∧ (d.updCas f).mfrozen = d.mfrozen ∧ (d.updCas f).ctx = d.ctx ∧ (d.updCas f).ev = d.ev
    ∧ (d.updCas f).sys = d.sys ∧ (d.updCas f).hng = d.hng ∧ (d.updCas f).mot = d.mot ∧ (d.updCas f).led = d.led
    ∧ (d.updCas f).pldup = d.pldup ∧ (d.updCas f).widthErr = d.widthErr ∧ (d.updCas f).port = d.port ∧ (d.updCas f).acq = d.acq
    ∧ (d.updCas f).pix = d.pix ∧ (d.updCas f).ls = d.ls ∧ (d.updCas f).dma = d.dma ∧ (d.updCas f).kl = d.kl ∧ (d.updCas f).hk = d.hk
    ∧ (d.updCas f).wdt = d.wdt ∧ (d.updCas f).pwr = d.pwr ∧ (d.updCas f).spi = d.spi ∧ (d.updCas f).tap = d.tap ∧ (d.updCas f).promo = d.promo ∧ (d.updCas f).fifo = d.fifo ∧
    (d.updCas f).spiReq = d.spiReq ∧ (d.updCas f).dbgReq = d.dbgReq ∧ (d.updCas f).bsr = d.bsr ∧
    (d.updCas f).preload = d.preload ∧ (d.updCas f).late = d.late := by
  refine ⟨rfl, rfl, rfl, rfl, rfl, rfl, rfl, rfl, rfl, rfl, rfl, rfl, rfl, rfl, rfl, rfl, rfl, rfl, rfl, rfl, rfl, rfl, rfl, rfl, rfl, rfl, rfl, rfl, rfl, rfl, rfl, rfl, rfl, rfl, rfl, rfl, rfl, rfl, rfl, rfl⟩

/-- Fields of the device after updPwr. -/
@[simp] theorem updPwr_fields (d : Dev) (f : Pwr → Pwr) :
    (d.updPwr f).pwr = f d.pwr ∧ (d.updPwr f).phase = d.phase ∧ (d.updPwr f).stb = d.stb ∧ (d.updPwr f).cycle = d.cycle
    ∧ (d.updPwr f).free = d.free ∧ (d.updPwr f).out = d.out ∧ (d.updPwr f).pins = d.pins ∧ (d.updPwr f).mem = d.mem
    ∧ (d.updPwr f).ecc = d.ecc ∧ (d.updPwr f).reqs = d.reqs ∧ (d.updPwr f).regs = d.regs ∧ (d.updPwr f).latch = d.latch
    ∧ (d.updPwr f).rdata = d.rdata ∧ (d.updPwr f).mfrozen = d.mfrozen ∧ (d.updPwr f).ctx = d.ctx ∧ (d.updPwr f).ev = d.ev
    ∧ (d.updPwr f).sys = d.sys ∧ (d.updPwr f).hng = d.hng ∧ (d.updPwr f).mot = d.mot ∧ (d.updPwr f).led = d.led
    ∧ (d.updPwr f).pldup = d.pldup ∧ (d.updPwr f).widthErr = d.widthErr ∧ (d.updPwr f).port = d.port ∧ (d.updPwr f).acq = d.acq
    ∧ (d.updPwr f).pix = d.pix ∧ (d.updPwr f).ls = d.ls ∧ (d.updPwr f).dma = d.dma ∧ (d.updPwr f).kl = d.kl ∧ (d.updPwr f).hk = d.hk
    ∧ (d.updPwr f).wdt = d.wdt ∧ (d.updPwr f).cas = d.cas ∧ (d.updPwr f).spi = d.spi ∧ (d.updPwr f).tap = d.tap ∧ (d.updPwr f).promo = d.promo ∧ (d.updPwr f).fifo = d.fifo ∧
    (d.updPwr f).spiReq = d.spiReq ∧ (d.updPwr f).dbgReq = d.dbgReq ∧ (d.updPwr f).bsr = d.bsr ∧
    (d.updPwr f).preload = d.preload ∧ (d.updPwr f).late = d.late := by
  refine ⟨rfl, rfl, rfl, rfl, rfl, rfl, rfl, rfl, rfl, rfl, rfl, rfl, rfl, rfl, rfl, rfl, rfl, rfl, rfl, rfl, rfl, rfl, rfl, rfl, rfl, rfl, rfl, rfl, rfl, rfl, rfl, rfl, rfl, rfl, rfl, rfl, rfl, rfl, rfl, rfl⟩

/-- Fields of the device after updSys. -/
@[simp] theorem updSys_fields (d : Dev) (f : Sys → Sys) :
    (d.updSys f).sys = f d.sys ∧ (d.updSys f).phase = d.phase ∧ (d.updSys f).stb = d.stb ∧ (d.updSys f).cycle = d.cycle
    ∧ (d.updSys f).free = d.free ∧ (d.updSys f).out = d.out ∧ (d.updSys f).pins = d.pins ∧ (d.updSys f).mem = d.mem
    ∧ (d.updSys f).ecc = d.ecc ∧ (d.updSys f).reqs = d.reqs ∧ (d.updSys f).regs = d.regs ∧ (d.updSys f).latch = d.latch
    ∧ (d.updSys f).rdata = d.rdata ∧ (d.updSys f).mfrozen = d.mfrozen ∧ (d.updSys f).ctx = d.ctx ∧ (d.updSys f).ev = d.ev
    ∧ (d.updSys f).hng = d.hng ∧ (d.updSys f).mot = d.mot ∧ (d.updSys f).led = d.led ∧ (d.updSys f).pldup = d.pldup
    ∧ (d.updSys f).widthErr = d.widthErr ∧ (d.updSys f).port = d.port ∧ (d.updSys f).acq = d.acq ∧ (d.updSys f).pix = d.pix
    ∧ (d.updSys f).ls = d.ls ∧ (d.updSys f).dma = d.dma ∧ (d.updSys f).kl = d.kl ∧ (d.updSys f).hk = d.hk ∧ (d.updSys f).wdt = d.wdt
    ∧ (d.updSys f).cas = d.cas ∧ (d.updSys f).pwr = d.pwr ∧ (d.updSys f).spi = d.spi ∧ (d.updSys f).tap = d.tap ∧ (d.updSys f).promo = d.promo ∧ (d.updSys f).fifo = d.fifo ∧
    (d.updSys f).spiReq = d.spiReq ∧ (d.updSys f).dbgReq = d.dbgReq ∧ (d.updSys f).bsr = d.bsr ∧
    (d.updSys f).preload = d.preload ∧ (d.updSys f).late = d.late := by
  refine ⟨rfl, rfl, rfl, rfl, rfl, rfl, rfl, rfl, rfl, rfl, rfl, rfl, rfl, rfl, rfl, rfl, rfl, rfl, rfl, rfl, rfl, rfl, rfl, rfl, rfl, rfl, rfl, rfl, rfl, rfl, rfl, rfl, rfl, rfl, rfl, rfl, rfl, rfl, rfl, rfl⟩

/-- Fields of the device after updEv. -/
@[simp] theorem updEv_fields (d : Dev) (f : Fabric → Fabric) :
    (d.updEv f).ev = f d.ev ∧ (d.updEv f).phase = d.phase ∧ (d.updEv f).stb = d.stb ∧ (d.updEv f).cycle = d.cycle
    ∧ (d.updEv f).free = d.free ∧ (d.updEv f).out = d.out ∧ (d.updEv f).pins = d.pins ∧ (d.updEv f).mem = d.mem
    ∧ (d.updEv f).ecc = d.ecc ∧ (d.updEv f).reqs = d.reqs ∧ (d.updEv f).regs = d.regs ∧ (d.updEv f).latch = d.latch
    ∧ (d.updEv f).rdata = d.rdata ∧ (d.updEv f).mfrozen = d.mfrozen ∧ (d.updEv f).ctx = d.ctx ∧ (d.updEv f).sys = d.sys
    ∧ (d.updEv f).hng = d.hng ∧ (d.updEv f).mot = d.mot ∧ (d.updEv f).led = d.led ∧ (d.updEv f).pldup = d.pldup
    ∧ (d.updEv f).widthErr = d.widthErr ∧ (d.updEv f).port = d.port ∧ (d.updEv f).acq = d.acq ∧ (d.updEv f).pix = d.pix
    ∧ (d.updEv f).ls = d.ls ∧ (d.updEv f).dma = d.dma ∧ (d.updEv f).kl = d.kl ∧ (d.updEv f).hk = d.hk ∧ (d.updEv f).wdt = d.wdt
    ∧ (d.updEv f).cas = d.cas ∧ (d.updEv f).pwr = d.pwr ∧ (d.updEv f).spi = d.spi ∧ (d.updEv f).tap = d.tap ∧ (d.updEv f).promo = d.promo ∧ (d.updEv f).fifo = d.fifo ∧
    (d.updEv f).spiReq = d.spiReq ∧ (d.updEv f).dbgReq = d.dbgReq ∧ (d.updEv f).bsr = d.bsr ∧
    (d.updEv f).preload = d.preload ∧ (d.updEv f).late = d.late := by
  refine ⟨rfl, rfl, rfl, rfl, rfl, rfl, rfl, rfl, rfl, rfl, rfl, rfl, rfl, rfl, rfl, rfl, rfl, rfl, rfl, rfl, rfl, rfl, rfl, rfl, rfl, rfl, rfl, rfl, rfl, rfl, rfl, rfl, rfl, rfl, rfl, rfl, rfl, rfl, rfl, rfl⟩

/-- Fields of the device after emitOut. -/
@[simp] theorem emitOut_fields (d : Dev) (o : Out) :
    (d.emitOut o).out = d.out ++ [o] ∧ (d.emitOut o).phase = d.phase ∧ (d.emitOut o).stb = d.stb ∧ (d.emitOut o).cycle = d.cycle
    ∧ (d.emitOut o).free = d.free ∧ (d.emitOut o).pins = d.pins ∧ (d.emitOut o).mem = d.mem ∧ (d.emitOut o).ecc = d.ecc
    ∧ (d.emitOut o).reqs = d.reqs ∧ (d.emitOut o).regs = d.regs ∧ (d.emitOut o).latch = d.latch ∧ (d.emitOut o).rdata = d.rdata
    ∧ (d.emitOut o).mfrozen = d.mfrozen ∧ (d.emitOut o).ctx = d.ctx ∧ (d.emitOut o).ev = d.ev ∧ (d.emitOut o).sys = d.sys
    ∧ (d.emitOut o).hng = d.hng ∧ (d.emitOut o).mot = d.mot ∧ (d.emitOut o).led = d.led ∧ (d.emitOut o).pldup = d.pldup
    ∧ (d.emitOut o).widthErr = d.widthErr ∧ (d.emitOut o).port = d.port ∧ (d.emitOut o).acq = d.acq ∧ (d.emitOut o).pix = d.pix
    ∧ (d.emitOut o).ls = d.ls ∧ (d.emitOut o).dma = d.dma ∧ (d.emitOut o).kl = d.kl ∧ (d.emitOut o).hk = d.hk
    ∧ (d.emitOut o).wdt = d.wdt ∧ (d.emitOut o).cas = d.cas ∧ (d.emitOut o).pwr = d.pwr ∧ (d.emitOut o).spi = d.spi
    ∧ (d.emitOut o).tap = d.tap ∧ (d.emitOut o).promo = d.promo ∧ (d.emitOut o).fifo = d.fifo ∧
    (d.emitOut o).spiReq = d.spiReq ∧ (d.emitOut o).dbgReq = d.dbgReq ∧ (d.emitOut o).bsr = d.bsr ∧
    (d.emitOut o).preload = d.preload ∧ (d.emitOut o).late = d.late := by
  refine ⟨rfl, rfl, rfl, rfl, rfl, rfl, rfl, rfl, rfl, rfl, rfl, rfl, rfl, rfl, rfl, rfl, rfl, rfl, rfl, rfl, rfl, rfl, rfl, rfl, rfl, rfl, rfl, rfl, rfl, rfl, rfl, rfl, rfl, rfl, rfl, rfl, rfl, rfl, rfl, rfl⟩

/-- Fields of the device after setReg. -/
@[simp] theorem setReg_fields (d : Dev) (o : Nat) (v : Word) :
    (d.setReg o v).regs = tabSet (regReset o) d.regs o v ∧ (d.setReg o v).phase = d.phase ∧ (d.setReg o v).stb = d.stb
    ∧ (d.setReg o v).cycle = d.cycle ∧ (d.setReg o v).free = d.free ∧ (d.setReg o v).out = d.out ∧ (d.setReg o v).pins = d.pins
    ∧ (d.setReg o v).mem = d.mem ∧ (d.setReg o v).ecc = d.ecc ∧ (d.setReg o v).reqs = d.reqs ∧ (d.setReg o v).latch = d.latch
    ∧ (d.setReg o v).rdata = d.rdata ∧ (d.setReg o v).mfrozen = d.mfrozen ∧ (d.setReg o v).ctx = d.ctx ∧ (d.setReg o v).ev = d.ev
    ∧ (d.setReg o v).sys = d.sys ∧ (d.setReg o v).hng = d.hng ∧ (d.setReg o v).mot = d.mot ∧ (d.setReg o v).led = d.led
    ∧ (d.setReg o v).pldup = d.pldup ∧ (d.setReg o v).widthErr = d.widthErr ∧ (d.setReg o v).port = d.port ∧ (d.setReg o v).acq = d.acq
    ∧ (d.setReg o v).pix = d.pix ∧ (d.setReg o v).ls = d.ls ∧ (d.setReg o v).dma = d.dma ∧ (d.setReg o v).kl = d.kl
    ∧ (d.setReg o v).hk = d.hk ∧ (d.setReg o v).wdt = d.wdt ∧ (d.setReg o v).cas = d.cas ∧ (d.setReg o v).pwr = d.pwr
    ∧ (d.setReg o v).spi = d.spi ∧ (d.setReg o v).tap = d.tap ∧ (d.setReg o v).promo = d.promo ∧ (d.setReg o v).fifo = d.fifo ∧
    (d.setReg o v).spiReq = d.spiReq ∧ (d.setReg o v).dbgReq = d.dbgReq ∧ (d.setReg o v).bsr = d.bsr ∧
    (d.setReg o v).preload = d.preload ∧ (d.setReg o v).late = d.late := by
  refine ⟨rfl, rfl, rfl, rfl, rfl, rfl, rfl, rfl, rfl, rfl, rfl, rfl, rfl, rfl, rfl, rfl, rfl, rfl, rfl, rfl, rfl, rfl, rfl, rfl, rfl, rfl, rfl, rfl, rfl, rfl, rfl, rfl, rfl, rfl, rfl, rfl, rfl, rfl, rfl, rfl⟩

/-- Fields of the device after setMark. -/
@[simp] theorem setMark_fields (d : Dev) (w : Nat) (k : Option EccMark) :
    (d.setMark w k).phase = d.phase ∧ (d.setMark w k).stb = d.stb ∧ (d.setMark w k).cycle = d.cycle ∧ (d.setMark w k).free = d.free
    ∧ (d.setMark w k).out = d.out ∧ (d.setMark w k).pins = d.pins ∧ (d.setMark w k).mem = d.mem ∧ (d.setMark w k).reqs = d.reqs
    ∧ (d.setMark w k).regs = d.regs ∧ (d.setMark w k).latch = d.latch ∧ (d.setMark w k).rdata = d.rdata
    ∧ (d.setMark w k).mfrozen = d.mfrozen ∧ (d.setMark w k).ctx = d.ctx ∧ (d.setMark w k).ev = d.ev ∧ (d.setMark w k).sys = d.sys
    ∧ (d.setMark w k).hng = d.hng ∧ (d.setMark w k).mot = d.mot ∧ (d.setMark w k).led = d.led ∧ (d.setMark w k).pldup = d.pldup
    ∧ (d.setMark w k).widthErr = d.widthErr ∧ (d.setMark w k).port = d.port ∧ (d.setMark w k).acq = d.acq ∧ (d.setMark w k).pix = d.pix
    ∧ (d.setMark w k).ls = d.ls ∧ (d.setMark w k).dma = d.dma ∧ (d.setMark w k).kl = d.kl ∧ (d.setMark w k).hk = d.hk
    ∧ (d.setMark w k).wdt = d.wdt ∧ (d.setMark w k).cas = d.cas ∧ (d.setMark w k).pwr = d.pwr ∧ (d.setMark w k).spi = d.spi
    ∧ (d.setMark w k).tap = d.tap ∧ (d.setMark w k).promo = d.promo ∧ (d.setMark w k).fifo = d.fifo ∧
    (d.setMark w k).spiReq = d.spiReq ∧ (d.setMark w k).dbgReq = d.dbgReq ∧ (d.setMark w k).bsr = d.bsr ∧
    (d.setMark w k).preload = d.preload ∧ (d.setMark w k).late = d.late := by
  refine ⟨rfl, rfl, rfl, rfl, rfl, rfl, rfl, rfl, rfl, rfl, rfl, rfl, rfl, rfl, rfl, rfl, rfl, rfl, rfl, rfl, rfl, rfl, rfl, rfl, rfl, rfl, rfl, rfl, rfl, rfl, rfl, rfl, rfl, rfl, rfl, rfl, rfl, rfl, rfl⟩

/-- Fields of the device after poke. -/
@[simp] theorem poke_fields (d : Dev) (a : Nat) (bs : List Byte) :
    (d.poke a bs).mem = memPuts d.mem a bs ∧ (d.poke a bs).phase = d.phase ∧ (d.poke a bs).stb = d.stb ∧ (d.poke a bs).cycle = d.cycle
    ∧ (d.poke a bs).free = d.free ∧ (d.poke a bs).out = d.out ∧ (d.poke a bs).pins = d.pins ∧ (d.poke a bs).ecc = d.ecc
    ∧ (d.poke a bs).reqs = d.reqs ∧ (d.poke a bs).regs = d.regs ∧ (d.poke a bs).latch = d.latch ∧ (d.poke a bs).rdata = d.rdata
    ∧ (d.poke a bs).mfrozen = d.mfrozen ∧ (d.poke a bs).ctx = d.ctx ∧ (d.poke a bs).ev = d.ev ∧ (d.poke a bs).sys = d.sys
    ∧ (d.poke a bs).hng = d.hng ∧ (d.poke a bs).mot = d.mot ∧ (d.poke a bs).led = d.led ∧ (d.poke a bs).pldup = d.pldup
    ∧ (d.poke a bs).widthErr = d.widthErr ∧ (d.poke a bs).port = d.port ∧ (d.poke a bs).acq = d.acq ∧ (d.poke a bs).pix = d.pix
    ∧ (d.poke a bs).ls = d.ls ∧ (d.poke a bs).dma = d.dma ∧ (d.poke a bs).kl = d.kl ∧ (d.poke a bs).hk = d.hk
    ∧ (d.poke a bs).wdt = d.wdt ∧ (d.poke a bs).cas = d.cas ∧ (d.poke a bs).pwr = d.pwr ∧ (d.poke a bs).spi = d.spi
    ∧ (d.poke a bs).tap = d.tap ∧ (d.poke a bs).promo = d.promo ∧ (d.poke a bs).fifo = d.fifo ∧
    (d.poke a bs).spiReq = d.spiReq ∧ (d.poke a bs).dbgReq = d.dbgReq ∧ (d.poke a bs).bsr = d.bsr ∧
    (d.poke a bs).preload = d.preload ∧ (d.poke a bs).late = d.late := by
  refine ⟨rfl, rfl, rfl, rfl, rfl, rfl, rfl, rfl, rfl, rfl, rfl, rfl, rfl, rfl, rfl, rfl, rfl, rfl, rfl, rfl, rfl, rfl, rfl, rfl, rfl, rfl, rfl, rfl, rfl, rfl, rfl, rfl, rfl, rfl, rfl, rfl, rfl, rfl, rfl, rfl⟩

/-- Fields of the device after setAbsent. -/
@[simp] theorem setAbsent_fields (d : Dev) :
    d.setAbsent.sys = { d.sys with absent := true } ∧ d.setAbsent.phase = d.phase ∧ d.setAbsent.stb = d.stb ∧ d.setAbsent.cycle = d.cycle
    ∧ d.setAbsent.free = d.free ∧ d.setAbsent.out = d.out ∧ d.setAbsent.pins = d.pins ∧ d.setAbsent.mem = d.mem
    ∧ d.setAbsent.ecc = d.ecc ∧ d.setAbsent.reqs = d.reqs ∧ d.setAbsent.regs = d.regs ∧ d.setAbsent.latch = d.latch
    ∧ d.setAbsent.rdata = d.rdata ∧ d.setAbsent.mfrozen = d.mfrozen ∧ d.setAbsent.ctx = d.ctx ∧ d.setAbsent.ev = d.ev
    ∧ d.setAbsent.hng = d.hng ∧ d.setAbsent.mot = d.mot ∧ d.setAbsent.led = d.led ∧ d.setAbsent.pldup = d.pldup
    ∧ d.setAbsent.widthErr = d.widthErr ∧ d.setAbsent.port = d.port ∧ d.setAbsent.acq = d.acq ∧ d.setAbsent.pix = d.pix
    ∧ d.setAbsent.ls = d.ls ∧ d.setAbsent.dma = d.dma ∧ d.setAbsent.kl = d.kl ∧ d.setAbsent.hk = d.hk ∧ d.setAbsent.wdt = d.wdt
    ∧ d.setAbsent.cas = d.cas ∧ d.setAbsent.pwr = d.pwr ∧ d.setAbsent.spi = d.spi ∧ d.setAbsent.tap = d.tap ∧ d.setAbsent.promo = d.promo ∧ d.setAbsent.fifo = d.fifo
    ∧ d.setAbsent.spiReq = d.spiReq ∧ d.setAbsent.dbgReq = d.dbgReq ∧ d.setAbsent.bsr = d.bsr ∧
    d.setAbsent.preload = d.preload ∧ d.setAbsent.late = d.late := by
  refine ⟨rfl, rfl, rfl, rfl, rfl, rfl, rfl, rfl, rfl, rfl, rfl, rfl, rfl, rfl, rfl, rfl, rfl, rfl, rfl, rfl, rfl, rfl, rfl, rfl, rfl, rfl, rfl, rfl, rfl, rfl, rfl, rfl, rfl, rfl, rfl, rfl, rfl, rfl, rfl, rfl⟩

/-- A changed element of a vector, and every other one. -/
theorem upd_get {α : Type} {n : Nat} (v : Vector α n) (i j : Fin n) (f : α → α) :
    (upd v i f)[j] = if i = j then f v[j] else v[j] := by
  unfold upd
  by_cases h : i = j
  · subst h; simp
  · have : (i : Nat) ≠ j := fun e => h (Fin.ext e)
    simp [h, Vector.getElem_set, this]

/-- The changed element of a vector. -/
@[simp] theorem upd_get_self {α : Type} {n : Nat} (v : Vector α n) (i : Fin n) (f : α → α) : (upd v i f)[i] = f v[i] := by
  rw [upd_get]; simp

/-- An element beside the changed one. -/
theorem upd_get_ne {α : Type} {n : Nat} (v : Vector α n) (i j : Fin n) (f : α → α) (h : i ≠ j) : (upd v i f)[j] = v[j] := by
  rw [upd_get]; simp [h]

/-- The changed element of a vector, indexed by the number. -/
@[simp] theorem upd_val {α : Type} {n : Nat} (v : Vector α n) (i : Fin n) (f : α → α) (h : i.val < n) :
    (upd v i f)[i.val]'h = f (v[i.val]'h) := by
  unfold upd
  simp

/-- An element beside the changed one, indexed by the number. -/
theorem upd_val_ne {α : Type} {n : Nat} (v : Vector α n) (i j : Fin n) (f : α → α) (hij : i ≠ j) (h : j.val < n) :
    (upd v i f)[j.val]'h = v[j.val]'h := by
  have hv : (i : Nat) ≠ j := fun e => hij (Fin.ext e)
  unfold upd
  simp [Vector.getElem_set, hv]

/-- Updates that agree on the element they change are equal. -/
theorem upd_congr {α : Type} {n : Nat} (v : Vector α n) (i : Fin n) (f g : α → α) (h : f v[i] = g v[i]) : upd v i f = upd v i g := by
  unfold upd
  rw [h]

/-- Updates that agree on the context they change are equal. -/
theorem updCtx_congr (d : Dev) (c : CtxId) (f g : Ctx → Ctx) (h : f d.ctx[c] = g d.ctx[c]) : d.updCtx c f = d.updCtx c g := by
  unfold Dev.updCtx
  rw [upd_congr _ _ _ _ h]

/-- Two changes of one element are one change. -/
@[simp] theorem upd_upd {α : Type} {n : Nat} (v : Vector α n) (i : Fin n) (f g : α → α) : upd (upd v i f) i g = upd v i fun x => g (f x) := by
  unfold upd
  simp

/-- Two changes of one context are one change. -/
@[simp] theorem updCtx_updCtx (d : Dev) (c : CtxId) (f g : Ctx → Ctx) : (d.updCtx c f).updCtx c g = d.updCtx c fun x => g (f x) := by
  simp [Dev.updCtx]

end Sys2Proof.Laws
end

