-- ==== Sys2Proof/Laws/Memory.lean ====
section
/-!
SUPPORT. Laws of sparse tables and of memory: the canonical form is kept by every write, a read after a write to the same address gives the byte written, and a write leaves every other address as it was.
-/
namespace Sys2Proof.Laws

open Sys2Proof.Machine

-- One thread: the package is compiled as one text, and each waiting thread costs a whole stack.
set_option Elab.async false

variable {α : Type}

/-- What a deletion keeps of a canonical table. -/
theorem tabDel_wf [DecidableEq α] (d : Nat → α) (k : Nat) (t : Tab α) (h : tabWf d t = true) : tabWf d (tabDel k t) = true := by
  induction t with
  | nil => rfl
  | cons p t ih =>
    obtain ⟨a, v⟩ := p
    simp only [tabWf, Bool.and_eq_true] at h
    have ih := ih h.2
    unfold tabDel at ih ⊢
    rw [List.filter_cons]
    split
    · simp only [tabWf, Bool.and_eq_true]
      refine ⟨⟨h.1.1, ?_⟩, ih⟩
      rw [List.all_eq_true] at h ⊢
      intro x hx
      exact h.1.2 x (List.mem_of_mem_filter hx)
    · exact ih

/-- Keys of a table with an entry put in. -/
theorem mem_tabIns (k : Nat) (v : α) (t : Tab α) (p : Nat × α) : p ∈ tabIns k v t → p = (k, v) ∨ p ∈ t := by
  induction t with
  | nil => intro h; left; simpa [tabIns] using h
  | cons q t ih =>
    unfold tabIns
    split
    · intro h
      rcases List.mem_cons.mp h with h | h
      · exact .inl h
      · exact .inr h
    · intro h
      rcases List.mem_cons.mp h with h | h
      · exact .inr (h ▸ List.mem_cons_self)
      · rcases ih h with h | h
        · exact .inl h
        · exact .inr (List.mem_cons_of_mem _ h)

/-- An entry of a new key keeps a canonical table canonical. -/
theorem tabIns_wf [DecidableEq α] (d : Nat → α) (k : Nat) (v : α) (t : Tab α) (h : tabWf d t = true) (hv : v ≠ d k)
    (hk : ∀ p ∈ t, p.1 ≠ k) : tabWf d (tabIns k v t) = true := by
  induction t with
  | nil => simp [tabIns, tabWf, hv]
  | cons p t ih =>
    obtain ⟨a, w⟩ := p
    have h0 := h
    simp only [tabWf, Bool.and_eq_true, List.all_eq_true, decide_eq_true_eq] at h
    unfold tabIns
    split
    · rename_i hlt
      simp only [tabWf, Bool.and_eq_true, List.all_eq_true, decide_eq_true_eq, bne_iff_ne]
      refine ⟨⟨hv, ?_⟩, ⟨⟨by simpa using h.1.1, h.1.2⟩, h.2⟩⟩
      intro x hx
      rcases List.mem_cons.mp hx with rfl | hx
      · exact hlt
      · exact lt_trans hlt (h.1.2 x hx)
    · rename_i hge
      have hne : a ≠ k := hk _ List.mem_cons_self
      simp only [tabWf, Bool.and_eq_true, List.all_eq_true, decide_eq_true_eq]
      refine ⟨⟨h.1.1, ?_⟩, ih h.2 fun p hp => hk p (List.mem_cons_of_mem _ hp)⟩
      intro x hx
      rcases mem_tabIns k v t x hx with rfl | hx
      · simp; omega
      · exact h.1.2 x hx

/-- A write keeps a table canonical. -/
theorem tabSet_wf [DecidableEq α] (d : Nat → α) (k : Nat) (v : α) (t : Tab α) (h : tabWf d t = true) : tabWf d (tabSet (d k) t k v) = true := by
  unfold tabSet
  split
  · exact tabDel_wf d k t h
  · rename_i hv
    refine tabIns_wf d k v _ (tabDel_wf d k t h) hv ?_
    intro p hp
    have := List.of_mem_filter hp
    simpa using this

/-- A deletion leaves other keys. -/
theorem tabGet_tabDel (d : α) (k x : Nat) (t : Tab α) : tabGet d (tabDel k t) x = if x = k then d else tabGet d t x := by
  induction t with
  | nil => simp [tabDel, tabGet]
  | cons p t ih =>
    obtain ⟨a, v⟩ := p
    unfold tabDel at ih ⊢
    rw [List.filter_cons]
    by_cases ha : a = k
    · subst ha
      simp only [bne_self_eq_false, Bool.false_eq_true, if_false, ih, tabGet]
      by_cases hx : x = a
      · simp [hx]
      · have : a ≠ x := fun e => hx e.symm
        simp [hx, this]
    · have : (a != k) = true := by simpa using ha
      simp only [this, if_true, tabGet, ih]
      by_cases hx : a = x
      · subst hx; simp [ha]
      · simp [hx]

/-- A read of a table with a new entry. -/
theorem tabGet_tabIns (d : α) (k x : Nat) (v : α) (t : Tab α) (hk : ∀ p ∈ t, p.1 ≠ k) :
    tabGet d (tabIns k v t) x = if x = k then v else tabGet d t x := by
  induction t with
  | nil =>
    simp only [tabIns, tabGet]
    by_cases h : k = x
    · simp [h]
    · have : x ≠ k := fun e => h e.symm
      simp [h, this]
  | cons p t ih =>
    obtain ⟨a, w⟩ := p
    have ha : a ≠ k := hk _ List.mem_cons_self
    unfold tabIns
    split
    · simp only [tabGet]
      by_cases h : k = x
      · simp [h]
      · have : x ≠ k := fun e => h e.symm
        simp [h, this]
    · simp only [tabGet]
      rw [ih fun p hp => hk p (List.mem_cons_of_mem _ hp)]
      by_cases h : a = x
      · subst h; simp [ha]
      · simp [h]

/-- A read of a table after a write. -/
theorem tabGet_tabSet [DecidableEq α] (d : α) (t : Tab α) (k x : Nat) (v : α) :
    tabGet d (tabSet d t k v) x = if x = k then v else tabGet d t x := by
  unfold tabSet
  split
  · rename_i hv
    rw [tabGet_tabDel]; simp [hv]
  · rw [tabGet_tabIns]
    · rw [tabGet_tabDel]
      by_cases h : x = k <;> simp [h]
    · intro p hp
      have := List.of_mem_filter hp
      simpa using this

/-- A byte of memory after a write of one byte. -/
theorem memGet_memPut (m : Mem) (a x : Nat) (b : Byte) : memGet (memPut m a b) x = if x = a then b else memGet m x := by
  show tabGet (memDflt m x) (tabSet (memDflt m a) m.cells a b) x = _
  unfold memGet
  by_cases h : x = a
  · subst h; rw [tabGet_tabSet]
  · have key : ∀ (t : List Host.Cell) (d : Byte), tabGet (memDflt m x) (tabSet d t a b) x = tabGet (memDflt m x) t x := by
      intro t d
      unfold tabSet
      split
      · rw [tabGet_tabDel]; simp [h]
      · rw [tabGet_tabIns]
        · rw [tabGet_tabDel]; simp [h]
        · intro p hp
          have := List.of_mem_filter hp
          simpa using this
    rw [key]; simp [h]

/-- A written byte keeps memory canonical. -/
theorem memPut_wf (m : Mem) (a : Nat) (b : Byte) (h : memWf m = true) : memWf (memPut m a b) = true := tabSet_wf (memDflt m) a b m.cells h

/-- Written bytes keep memory canonical. -/
theorem memPuts_wf (bs : List Byte) : ∀ (m : Mem) (a : Nat), memWf m = true → memWf (memPuts m a bs) = true := by
  induction bs with
  | nil => intro m a h; exact h
  | cons b bs ih => intro m a h; exact ih _ _ (memPut_wf m a b h)

/-- A table cut to some keys is canonical for any default that agrees there. -/
theorem tabWf_filter {α : Type} [DecidableEq α] (f g : Nat → α) (p : Nat → Bool) (h : ∀ k, p k = true → f k = g k) :
    ∀ t : Tab α, tabWf f t = true → tabWf g (t.filter fun c => p c.1) = true := by
  intro t
  induction t with
  | nil => intro _; rfl
  | cons c t ih =>
    obtain ⟨k, v⟩ := c
    intro w
    simp only [tabWf, Bool.and_eq_true, List.all_eq_true] at w
    obtain ⟨⟨hv, hk⟩, ht⟩ := w
    by_cases hp : p k = true
    · rw [List.filter_cons_of_pos (by simpa using hp)]
      simp only [tabWf, Bool.and_eq_true, List.all_eq_true]
      refine ⟨⟨by rw [← h k hp]; exact hv, fun q hq => hk q (List.mem_of_mem_filter hq)⟩, ih ht⟩
    · rw [List.filter_cons_of_neg (by simpa using hp)]
      exact ih ht

/-- Keeping only some bytes keeps memory canonical. -/
theorem memKeep_wf (m : Mem) (p : Nat → Bool) (h : memWf m = true) : memWf (m.keep p) = true := tabWf_filter _ _ p (fun _ _ => rfl) _ h

/-- The loss of LS contents keeps memory canonical (14 R325). -/
theorem memLoseLs_wf (m : Mem) (h : memWf m = true) : memWf m.loseLs = true := by
  show tabWf (memDflt m.loseLs) (m.cells.filter fun c => decide (c.1 < 0x2000000 ∨ 0x2300000 ≤ c.1)) = true
  refine tabWf_filter (memDflt m) _ (fun a => decide (a < 0x2000000 ∨ 0x2300000 ≤ a)) (fun k hk => ?_) _ h
  have h3 : ¬ (0x2000000 ≤ k ∧ k < 0x2300000) := by have := of_decide_eq_true hk; omega
  simp [memDflt, Mem.loseLs, Mem.keep, h3]

/-- The loss of PD, SH and LS contents at a reset keeps memory canonical (14 R331). -/
theorem memAtReset_wf (m : Mem) (powerOn : Bool) (h : memWf m = true) : memWf (m.atReset powerOn) = true := by
  show tabWf (memDflt (m.atReset powerOn)) (m.cells.filter fun c => decide (0x4000000 ≤ c.1 ∨ (powerOn = false ∧ 0x3000000 ≤ c.1))) = true
  refine tabWf_filter (memDflt m) _ (fun a => decide (0x4000000 ≤ a ∨ (powerOn = false ∧ 0x3000000 ≤ a))) (fun k hk => ?_) _ h
  have h0 : 0x3000000 ≤ k := by have := of_decide_eq_true hk; omega
  have h1 : ¬ k < 0x1200000 := by omega
  have h2 : ¬ k < 0x2300000 := by omega
  simp [memDflt, h1, h2]

/-- A byte below the bytes written stays. -/
theorem memGet_memPuts_lt (bs : List Byte) : ∀ (m : Mem) (a x : Nat), x < a → memGet (memPuts m a bs) x = memGet m x := by
  induction bs with
  | nil => intros; rfl
  | cons b bs ih =>
    intro m a x h
    rw [memPuts, ih _ _ _ (by omega), memGet_memPut]
    have : x ≠ a := by omega
    simp [this]

/-- Bytes outside the bytes written stay. -/
theorem memGet_memPuts_out (bs : List Byte) : ∀ (m : Mem) (a x : Nat), (x < a ∨ a + bs.length ≤ x) → memGet (memPuts m a bs) x = memGet m x := by
  induction bs with
  | nil => intros; rfl
  | cons b bs ih =>
    intro m a x h
    rw [List.length_cons] at h
    rw [memPuts, ih _ _ _ (by omega), memGet_memPut]
    have : x ≠ a := by omega
    simp [this]

/-- A byte written reads back. -/
theorem memGet_memPuts_in (bs : List Byte) : ∀ (m : Mem) (a i : Nat) (h : i < bs.length), memGet (memPuts m a bs) (a + i) = bs[i] := by
  induction bs with
  | nil => intro _ _ i h; exact absurd h (by simp)
  | cons b bs ih =>
    intro m a i h
    rw [memPuts]
    cases i with
    | zero =>
      rw [Nat.add_zero, memGet_memPuts_lt _ _ _ _ (by omega), memGet_memPut]
      simp
    | succ j =>
      have := ih (memPut m a b) (a + 1) j (by simpa using h)
      rw [show a + (j + 1) = a + 1 + j by omega, this]
      simp

end Sys2Proof.Laws
end

