-- ==== Sys2Proof/Laws/Ops.lean ====
section
/-!
SUPPORT. What the shared operations leave as it was, field by field, and what they do to the context or the memory they act on.
-/
namespace Sys2Proof.Laws

open Sys2Proof.Machine

-- One thread: the package is compiled as one text, and each waiting thread costs a whole stack.
set_option Elab.async false

/-- A fold over steps that keep a view of the device keeps it. -/
theorem foldl_keeps {α β : Type} (g : Dev → β) (f : Dev → α → Dev) (h : ∀ d x, g (f d x) = g d) :
    ∀ (l : List α) (d : Dev), g (l.foldl f d) = g d := by
  intro l
  induction l with
  | nil => intro d; rfl
  | cons a l ih => intro d; rw [List.foldl_cons, ih, h]

/-- A lost record changes the fabric alone. -/
@[simp] theorem lose_fields (d : Dev) (n : Fin 64) (k : Nat) :
    (d.lose n k).phase = d.phase ∧ (d.lose n k).stb = d.stb ∧ (d.lose n k).cycle = d.cycle ∧ (d.lose n k).free = d.free ∧
    (d.lose n k).out = d.out ∧ (d.lose n k).pins = d.pins ∧ (d.lose n k).mem = d.mem ∧ (d.lose n k).ecc = d.ecc ∧
    (d.lose n k).reqs = d.reqs ∧ (d.lose n k).regs = d.regs ∧ (d.lose n k).latch = d.latch ∧ (d.lose n k).rdata = d.rdata ∧
    (d.lose n k).mfrozen = d.mfrozen ∧ (d.lose n k).ctx = d.ctx ∧ (d.lose n k).sys = d.sys ∧ (d.lose n k).hng = d.hng ∧
    (d.lose n k).mot = d.mot ∧ (d.lose n k).led = d.led ∧ (d.lose n k).pldup = d.pldup ∧ (d.lose n k).widthErr = d.widthErr ∧
    (d.lose n k).port = d.port ∧ (d.lose n k).acq = d.acq ∧ (d.lose n k).pix = d.pix ∧ (d.lose n k).ls = d.ls ∧
    (d.lose n k).dma = d.dma ∧ (d.lose n k).kl = d.kl ∧ (d.lose n k).hk = d.hk ∧ (d.lose n k).wdt = d.wdt ∧ (d.lose n k).cas = d.cas ∧
    (d.lose n k).pwr = d.pwr ∧ (d.lose n k).spi = d.spi ∧ (d.lose n k).tap = d.tap ∧ (d.lose n k).promo = d.promo ∧ (d.lose n k).fifo = d.fifo ∧
    (d.lose n k).spiReq = d.spiReq ∧ (d.lose n k).dbgReq = d.dbgReq ∧ (d.lose n k).bsr = d.bsr ∧
    (d.lose n k).preload = d.preload ∧ (d.lose n k).late = d.late := by
  unfold Dev.lose Dev.owe
  simp


/-- An assertion changes the fabric alone. -/
@[simp] theorem assert_fields (d : Dev) (n : Fin 64) (w : Word) :
    (d.assert n w).phase = d.phase ∧ (d.assert n w).stb = d.stb ∧ (d.assert n w).cycle = d.cycle ∧ (d.assert n w).free = d.free ∧
    (d.assert n w).out = d.out ∧ (d.assert n w).pins = d.pins ∧ (d.assert n w).mem = d.mem ∧ (d.assert n w).ecc = d.ecc ∧
    (d.assert n w).reqs = d.reqs ∧ (d.assert n w).regs = d.regs ∧ (d.assert n w).latch = d.latch ∧ (d.assert n w).rdata = d.rdata ∧
    (d.assert n w).mfrozen = d.mfrozen ∧ (d.assert n w).ctx = d.ctx ∧ (d.assert n w).sys = d.sys ∧ (d.assert n w).hng = d.hng ∧
    (d.assert n w).mot = d.mot ∧ (d.assert n w).led = d.led ∧ (d.assert n w).pldup = d.pldup ∧ (d.assert n w).widthErr = d.widthErr ∧
    (d.assert n w).port = d.port ∧ (d.assert n w).acq = d.acq ∧ (d.assert n w).pix = d.pix ∧ (d.assert n w).ls = d.ls ∧
    (d.assert n w).dma = d.dma ∧ (d.assert n w).kl = d.kl ∧ (d.assert n w).hk = d.hk ∧ (d.assert n w).wdt = d.wdt ∧
    (d.assert n w).cas = d.cas ∧ (d.assert n w).pwr = d.pwr ∧ (d.assert n w).spi = d.spi ∧ (d.assert n w).tap = d.tap ∧ (d.assert n w).promo = d.promo ∧ (d.assert n w).fifo = d.fifo ∧
    (d.assert n w).spiReq = d.spiReq ∧ (d.assert n w).dbgReq = d.dbgReq ∧ (d.assert n w).bsr = d.bsr ∧
    (d.assert n w).preload = d.preload ∧ (d.assert n w).late = d.late := by
  unfold Dev.assert Dev.assertBy
  (try dsimp only)
  split <;> simp

/-- A raised event changes the fabric alone. -/
@[simp] theorem raise_fields (d : Dev) (n : Fin 64) (w : Word) :
    (d.raise n w).phase = d.phase ∧ (d.raise n w).stb = d.stb ∧ (d.raise n w).cycle = d.cycle ∧ (d.raise n w).free = d.free ∧
    (d.raise n w).out = d.out ∧ (d.raise n w).pins = d.pins ∧ (d.raise n w).mem = d.mem ∧ (d.raise n w).ecc = d.ecc ∧
    (d.raise n w).reqs = d.reqs ∧ (d.raise n w).regs = d.regs ∧ (d.raise n w).latch = d.latch ∧ (d.raise n w).rdata = d.rdata ∧
    (d.raise n w).mfrozen = d.mfrozen ∧ (d.raise n w).ctx = d.ctx ∧ (d.raise n w).sys = d.sys ∧ (d.raise n w).hng = d.hng ∧
    (d.raise n w).mot = d.mot ∧ (d.raise n w).led = d.led ∧ (d.raise n w).pldup = d.pldup ∧ (d.raise n w).widthErr = d.widthErr ∧
    (d.raise n w).port = d.port ∧ (d.raise n w).acq = d.acq ∧ (d.raise n w).pix = d.pix ∧ (d.raise n w).ls = d.ls ∧
    (d.raise n w).dma = d.dma ∧ (d.raise n w).kl = d.kl ∧ (d.raise n w).hk = d.hk ∧ (d.raise n w).wdt = d.wdt ∧
    (d.raise n w).cas = d.cas ∧ (d.raise n w).pwr = d.pwr ∧ (d.raise n w).spi = d.spi ∧ (d.raise n w).tap = d.tap ∧ (d.raise n w).promo = d.promo ∧ (d.raise n w).fifo = d.fifo ∧
    (d.raise n w).spiReq = d.spiReq ∧ (d.raise n w).dbgReq = d.dbgReq ∧ (d.raise n w).bsr = d.bsr ∧
    (d.raise n w).preload = d.preload ∧ (d.raise n w).late = d.late := by
  unfold Dev.raise
  (try dsimp only)
  repeat' split
  all_goals simp


/-- The check of one word at a read changes the marks and the fabric alone. -/
@[simp] theorem eccRead1_fields (P : Part) (d : Dev) (w : Nat) :
    (d.eccRead1 P w).phase = d.phase ∧ (d.eccRead1 P w).stb = d.stb ∧ (d.eccRead1 P w).cycle = d.cycle ∧
    (d.eccRead1 P w).free = d.free ∧ (d.eccRead1 P w).out = d.out ∧ (d.eccRead1 P w).pins = d.pins ∧ (d.eccRead1 P w).mem = d.mem ∧
    (d.eccRead1 P w).reqs = d.reqs ∧ (d.eccRead1 P w).regs = d.regs ∧ (d.eccRead1 P w).latch = d.latch ∧
    (d.eccRead1 P w).rdata = d.rdata ∧ (d.eccRead1 P w).mfrozen = d.mfrozen ∧ (d.eccRead1 P w).ctx = d.ctx ∧
    (d.eccRead1 P w).sys = d.sys ∧ (d.eccRead1 P w).hng = d.hng ∧ (d.eccRead1 P w).mot = d.mot ∧ (d.eccRead1 P w).led = d.led ∧
    (d.eccRead1 P w).pldup = d.pldup ∧ (d.eccRead1 P w).widthErr = d.widthErr ∧ (d.eccRead1 P w).port = d.port ∧
    (d.eccRead1 P w).acq = d.acq ∧ (d.eccRead1 P w).pix = d.pix ∧ (d.eccRead1 P w).ls = d.ls ∧ (d.eccRead1 P w).dma = d.dma ∧
    (d.eccRead1 P w).kl = d.kl ∧ (d.eccRead1 P w).hk = d.hk ∧ (d.eccRead1 P w).wdt = d.wdt ∧ (d.eccRead1 P w).cas = d.cas ∧
    (d.eccRead1 P w).pwr = d.pwr ∧ (d.eccRead1 P w).spi = d.spi ∧ (d.eccRead1 P w).tap = d.tap ∧ (d.eccRead1 P w).promo = d.promo ∧ (d.eccRead1 P w).fifo = d.fifo ∧
    (d.eccRead1 P w).spiReq = d.spiReq ∧ (d.eccRead1 P w).dbgReq = d.dbgReq ∧ (d.eccRead1 P w).bsr = d.bsr ∧
    (d.eccRead1 P w).preload = d.preload ∧ (d.eccRead1 P w).late = d.late := by
  unfold Dev.eccRead1
  (try dsimp only)
  repeat' split
  all_goals simp


/-- The ECC check of a read changes the marks and the fabric alone. -/
@[simp] theorem eccRead_fields (P : Part) (d : Dev) (a n : Nat) :
    (d.eccRead P a n).phase = d.phase ∧ (d.eccRead P a n).stb = d.stb ∧ (d.eccRead P a n).cycle = d.cycle ∧
    (d.eccRead P a n).free = d.free ∧ (d.eccRead P a n).out = d.out ∧ (d.eccRead P a n).pins = d.pins ∧ (d.eccRead P a n).mem = d.mem ∧
    (d.eccRead P a n).reqs = d.reqs ∧ (d.eccRead P a n).regs = d.regs ∧ (d.eccRead P a n).latch = d.latch ∧
    (d.eccRead P a n).rdata = d.rdata ∧ (d.eccRead P a n).mfrozen = d.mfrozen ∧ (d.eccRead P a n).ctx = d.ctx ∧
    (d.eccRead P a n).sys = d.sys ∧ (d.eccRead P a n).hng = d.hng ∧ (d.eccRead P a n).mot = d.mot ∧ (d.eccRead P a n).led = d.led ∧
    (d.eccRead P a n).pldup = d.pldup ∧ (d.eccRead P a n).widthErr = d.widthErr ∧ (d.eccRead P a n).port = d.port ∧
    (d.eccRead P a n).acq = d.acq ∧ (d.eccRead P a n).pix = d.pix ∧ (d.eccRead P a n).ls = d.ls ∧ (d.eccRead P a n).dma = d.dma ∧
    (d.eccRead P a n).kl = d.kl ∧ (d.eccRead P a n).hk = d.hk ∧ (d.eccRead P a n).wdt = d.wdt ∧ (d.eccRead P a n).cas = d.cas ∧
    (d.eccRead P a n).pwr = d.pwr ∧ (d.eccRead P a n).spi = d.spi ∧ (d.eccRead P a n).tap = d.tap ∧ (d.eccRead P a n).promo = d.promo ∧ (d.eccRead P a n).fifo = d.fifo ∧
    (d.eccRead P a n).spiReq = d.spiReq ∧ (d.eccRead P a n).dbgReq = d.dbgReq ∧ (d.eccRead P a n).bsr = d.bsr ∧
    (d.eccRead P a n).preload = d.preload ∧ (d.eccRead P a n).late = d.late := by
  unfold Dev.eccRead
  refine ⟨(foldl_keeps (fun d => d.phase) _ (fun _ _ => by simp) _ _).trans (by simp),
    (foldl_keeps (fun d => d.stb) _ (fun _ _ => by simp) _ _).trans (by simp),
    (foldl_keeps (fun d => d.cycle) _ (fun _ _ => by simp) _ _).trans (by simp),
    (foldl_keeps (fun d => d.free) _ (fun _ _ => by simp) _ _).trans (by simp),
    (foldl_keeps (fun d => d.out) _ (fun _ _ => by simp) _ _).trans (by simp),
    (foldl_keeps (fun d => d.pins) _ (fun _ _ => by simp) _ _).trans (by simp),
    (foldl_keeps (fun d => d.mem) _ (fun _ _ => by simp) _ _).trans (by simp),
    (foldl_keeps (fun d => d.reqs) _ (fun _ _ => by simp) _ _).trans (by simp),
    (foldl_keeps (fun d => d.regs) _ (fun _ _ => by simp) _ _).trans (by simp),
    (foldl_keeps (fun d => d.latch) _ (fun _ _ => by simp) _ _).trans (by simp),
    (foldl_keeps (fun d => d.rdata) _ (fun _ _ => by simp) _ _).trans (by simp),
    (foldl_keeps (fun d => d.mfrozen) _ (fun _ _ => by simp) _ _).trans (by simp),
    (foldl_keeps (fun d => d.ctx) _ (fun _ _ => by simp) _ _).trans (by simp),
    (foldl_keeps (fun d => d.sys) _ (fun _ _ => by simp) _ _).trans (by simp),
    (foldl_keeps (fun d => d.hng) _ (fun _ _ => by simp) _ _).trans (by simp),
    (foldl_keeps (fun d => d.mot) _ (fun _ _ => by simp) _ _).trans (by simp),
    (foldl_keeps (fun d => d.led) _ (fun _ _ => by simp) _ _).trans (by simp),
    (foldl_keeps (fun d => d.pldup) _ (fun _ _ => by simp) _ _).trans (by simp),
    (foldl_keeps (fun d => d.widthErr) _ (fun _ _ => by simp) _ _).trans (by simp),
    (foldl_keeps (fun d => d.port) _ (fun _ _ => by simp) _ _).trans (by simp),
    (foldl_keeps (fun d => d.acq) _ (fun _ _ => by simp) _ _).trans (by simp),
    (foldl_keeps (fun d => d.pix) _ (fun _ _ => by simp) _ _).trans (by simp),
    (foldl_keeps (fun d => d.ls) _ (fun _ _ => by simp) _ _).trans (by simp),
    (foldl_keeps (fun d => d.dma) _ (fun _ _ => by simp) _ _).trans (by simp),
    (foldl_keeps (fun d => d.kl) _ (fun _ _ => by simp) _ _).trans (by simp),
    (foldl_keeps (fun d => d.hk) _ (fun _ _ => by simp) _ _).trans (by simp),
    (foldl_keeps (fun d => d.wdt) _ (fun _ _ => by simp) _ _).trans (by simp),
    (foldl_keeps (fun d => d.cas) _ (fun _ _ => by simp) _ _).trans (by simp),
    (foldl_keeps (fun d => d.pwr) _ (fun _ _ => by simp) _ _).trans (by simp),
    (foldl_keeps (fun d => d.spi) _ (fun _ _ => by simp) _ _).trans (by simp),
    (foldl_keeps (fun d => d.tap) _ (fun _ _ => by simp) _ _).trans (by simp),
    (foldl_keeps (fun d => d.promo) _ (fun _ _ => by simp) _ _).trans (by simp),
    (foldl_keeps (fun d => d.fifo) _ (fun _ _ => by simp) _ _).trans (by simp),
    (foldl_keeps (fun d => d.spiReq) _ (fun _ _ => by simp) _ _).trans (by simp),
    (foldl_keeps (fun d => d.dbgReq) _ (fun _ _ => by simp) _ _).trans (by simp),
    (foldl_keeps (fun d => d.bsr) _ (fun _ _ => by simp) _ _).trans (by simp),
    (foldl_keeps (fun d => d.preload) _ (fun _ _ => by simp) _ _).trans (by simp),
    (foldl_keeps (fun d => d.late) _ (fun _ _ => by simp) _ _).trans (by simp)⟩

/-- The ECC rule of a written word changes the marks and the fabric alone. -/
@[simp] theorem eccWrite1_fields (P : Part) (a n : Nat) (d : Dev) (w : Nat) :
    (d.eccWrite1 P a n w).phase = d.phase ∧ (d.eccWrite1 P a n w).stb = d.stb ∧ (d.eccWrite1 P a n w).cycle = d.cycle ∧
    (d.eccWrite1 P a n w).free = d.free ∧ (d.eccWrite1 P a n w).out = d.out ∧ (d.eccWrite1 P a n w).pins = d.pins ∧
    (d.eccWrite1 P a n w).mem = d.mem ∧ (d.eccWrite1 P a n w).reqs = d.reqs ∧ (d.eccWrite1 P a n w).regs = d.regs ∧
    (d.eccWrite1 P a n w).latch = d.latch ∧ (d.eccWrite1 P a n w).rdata = d.rdata ∧ (d.eccWrite1 P a n w).mfrozen = d.mfrozen ∧
    (d.eccWrite1 P a n w).ctx = d.ctx ∧ (d.eccWrite1 P a n w).sys = d.sys ∧ (d.eccWrite1 P a n w).hng = d.hng ∧
    (d.eccWrite1 P a n w).mot = d.mot ∧ (d.eccWrite1 P a n w).led = d.led ∧ (d.eccWrite1 P a n w).pldup = d.pldup ∧
    (d.eccWrite1 P a n w).widthErr = d.widthErr ∧ (d.eccWrite1 P a n w).port = d.port ∧ (d.eccWrite1 P a n w).acq = d.acq ∧
    (d.eccWrite1 P a n w).pix = d.pix ∧ (d.eccWrite1 P a n w).ls = d.ls ∧ (d.eccWrite1 P a n w).dma = d.dma ∧
    (d.eccWrite1 P a n w).kl = d.kl ∧ (d.eccWrite1 P a n w).hk = d.hk ∧ (d.eccWrite1 P a n w).wdt = d.wdt ∧
    (d.eccWrite1 P a n w).cas = d.cas ∧ (d.eccWrite1 P a n w).pwr = d.pwr ∧ (d.eccWrite1 P a n w).spi = d.spi ∧
    (d.eccWrite1 P a n w).tap = d.tap ∧ (d.eccWrite1 P a n w).promo = d.promo ∧ (d.eccWrite1 P a n w).fifo = d.fifo ∧
    (d.eccWrite1 P a n w).spiReq = d.spiReq ∧ (d.eccWrite1 P a n w).dbgReq = d.dbgReq ∧ (d.eccWrite1 P a n w).bsr = d.bsr ∧
    (d.eccWrite1 P a n w).preload = d.preload ∧ (d.eccWrite1 P a n w).late = d.late := by
  unfold Dev.eccWrite1
  split
  · simp
  · split <;> (try split) <;> simp

/-- A store changes memory, the marks, the fabric alone, where it writes every byte. -/
@[simp] theorem storeAll_fields (P : Part) (d : Dev) (a : Nat) (bs : List Byte) :
    (d.storeAll P a bs).phase = d.phase ∧ (d.storeAll P a bs).stb = d.stb ∧ (d.storeAll P a bs).cycle = d.cycle ∧
    (d.storeAll P a bs).free = d.free ∧ (d.storeAll P a bs).out = d.out ∧ (d.storeAll P a bs).pins = d.pins ∧ (d.storeAll P a bs).reqs = d.reqs ∧
    (d.storeAll P a bs).regs = d.regs ∧ (d.storeAll P a bs).latch = d.latch ∧ (d.storeAll P a bs).rdata = d.rdata ∧
    (d.storeAll P a bs).mfrozen = d.mfrozen ∧ (d.storeAll P a bs).ctx = d.ctx ∧ (d.storeAll P a bs).hng = d.hng ∧ (d.storeAll P a bs).mot = d.mot ∧
    (d.storeAll P a bs).led = d.led ∧ (d.storeAll P a bs).pldup = d.pldup ∧ (d.storeAll P a bs).widthErr = d.widthErr ∧
    (d.storeAll P a bs).port = d.port ∧ (d.storeAll P a bs).acq = d.acq ∧ (d.storeAll P a bs).pix = d.pix ∧ (d.storeAll P a bs).ls = d.ls ∧
    (d.storeAll P a bs).dma = d.dma ∧ (d.storeAll P a bs).kl = d.kl ∧ (d.storeAll P a bs).hk = d.hk ∧ (d.storeAll P a bs).wdt = d.wdt ∧
    (d.storeAll P a bs).cas = d.cas ∧ (d.storeAll P a bs).pwr = d.pwr ∧ (d.storeAll P a bs).spi = d.spi ∧ (d.storeAll P a bs).tap = d.tap ∧ (d.storeAll P a bs).promo = d.promo ∧ (d.storeAll P a bs).fifo = d.fifo ∧
    (d.storeAll P a bs).spiReq = d.spiReq ∧ (d.storeAll P a bs).dbgReq = d.dbgReq ∧ (d.storeAll P a bs).bsr = d.bsr ∧
    (d.storeAll P a bs).preload = d.preload ∧ (d.storeAll P a bs).late = d.late := by
  unfold Dev.storeAll
  simp only [poke_fields]
  refine ⟨(foldl_keeps (fun d => d.phase) _ (fun _ _ => by simp) _ _).trans (by simp),
    (foldl_keeps (fun d => d.stb) _ (fun _ _ => by simp) _ _).trans (by simp),
    (foldl_keeps (fun d => d.cycle) _ (fun _ _ => by simp) _ _).trans (by simp),
    (foldl_keeps (fun d => d.free) _ (fun _ _ => by simp) _ _).trans (by simp),
    (foldl_keeps (fun d => d.out) _ (fun _ _ => by simp) _ _).trans (by simp),
    (foldl_keeps (fun d => d.pins) _ (fun _ _ => by simp) _ _).trans (by simp),
    (foldl_keeps (fun d => d.reqs) _ (fun _ _ => by simp) _ _).trans (by simp),
    (foldl_keeps (fun d => d.regs) _ (fun _ _ => by simp) _ _).trans (by simp),
    (foldl_keeps (fun d => d.latch) _ (fun _ _ => by simp) _ _).trans (by simp),
    (foldl_keeps (fun d => d.rdata) _ (fun _ _ => by simp) _ _).trans (by simp),
    (foldl_keeps (fun d => d.mfrozen) _ (fun _ _ => by simp) _ _).trans (by simp),
    (foldl_keeps (fun d => d.ctx) _ (fun _ _ => by simp) _ _).trans (by simp),
    (foldl_keeps (fun d => d.hng) _ (fun _ _ => by simp) _ _).trans (by simp),
    (foldl_keeps (fun d => d.mot) _ (fun _ _ => by simp) _ _).trans (by simp),
    (foldl_keeps (fun d => d.led) _ (fun _ _ => by simp) _ _).trans (by simp),
    (foldl_keeps (fun d => d.pldup) _ (fun _ _ => by simp) _ _).trans (by simp),
    (foldl_keeps (fun d => d.widthErr) _ (fun _ _ => by simp) _ _).trans (by simp),
    (foldl_keeps (fun d => d.port) _ (fun _ _ => by simp) _ _).trans (by simp),
    (foldl_keeps (fun d => d.acq) _ (fun _ _ => by simp) _ _).trans (by simp),
    (foldl_keeps (fun d => d.pix) _ (fun _ _ => by simp) _ _).trans (by simp),
    (foldl_keeps (fun d => d.ls) _ (fun _ _ => by simp) _ _).trans (by simp),
    (foldl_keeps (fun d => d.dma) _ (fun _ _ => by simp) _ _).trans (by simp),
    (foldl_keeps (fun d => d.kl) _ (fun _ _ => by simp) _ _).trans (by simp),
    (foldl_keeps (fun d => d.hk) _ (fun _ _ => by simp) _ _).trans (by simp),
    (foldl_keeps (fun d => d.wdt) _ (fun _ _ => by simp) _ _).trans (by simp),
    (foldl_keeps (fun d => d.cas) _ (fun _ _ => by simp) _ _).trans (by simp),
    (foldl_keeps (fun d => d.pwr) _ (fun _ _ => by simp) _ _).trans (by simp),
    (foldl_keeps (fun d => d.spi) _ (fun _ _ => by simp) _ _).trans (by simp),
    (foldl_keeps (fun d => d.tap) _ (fun _ _ => by simp) _ _).trans (by simp),
    (foldl_keeps (fun d => d.promo) _ (fun _ _ => by simp) _ _).trans (by simp),
    (foldl_keeps (fun d => d.fifo) _ (fun _ _ => by simp) _ _).trans (by simp),
    (foldl_keeps (fun d => d.spiReq) _ (fun _ _ => by simp) _ _).trans (by simp),
    (foldl_keeps (fun d => d.dbgReq) _ (fun _ _ => by simp) _ _).trans (by simp),
    (foldl_keeps (fun d => d.bsr) _ (fun _ _ => by simp) _ _).trans (by simp),
    (foldl_keeps (fun d => d.preload) _ (fun _ _ => by simp) _ _).trans (by simp),
    (foldl_keeps (fun d => d.late) _ (fun _ _ => by simp) _ _).trans (by simp)⟩

/-- A store changes memory, the marks, the fabric and ABSENT alone. -/
@[simp] theorem store_fields (P : Part) (d : Dev) (a : Nat) (bs : List Byte) :
    (d.store P a bs).phase = d.phase ∧ (d.store P a bs).stb = d.stb ∧ (d.store P a bs).cycle = d.cycle ∧
    (d.store P a bs).free = d.free ∧ (d.store P a bs).out = d.out ∧ (d.store P a bs).pins = d.pins ∧ (d.store P a bs).reqs = d.reqs ∧
    (d.store P a bs).regs = d.regs ∧ (d.store P a bs).latch = d.latch ∧ (d.store P a bs).rdata = d.rdata ∧
    (d.store P a bs).mfrozen = d.mfrozen ∧ (d.store P a bs).ctx = d.ctx ∧ (d.store P a bs).hng = d.hng ∧ (d.store P a bs).mot = d.mot ∧
    (d.store P a bs).led = d.led ∧ (d.store P a bs).pldup = d.pldup ∧ (d.store P a bs).widthErr = d.widthErr ∧
    (d.store P a bs).port = d.port ∧ (d.store P a bs).acq = d.acq ∧ (d.store P a bs).pix = d.pix ∧ (d.store P a bs).ls = d.ls ∧
    (d.store P a bs).dma = d.dma ∧ (d.store P a bs).kl = d.kl ∧ (d.store P a bs).hk = d.hk ∧ (d.store P a bs).wdt = d.wdt ∧
    (d.store P a bs).cas = d.cas ∧ (d.store P a bs).pwr = d.pwr ∧ (d.store P a bs).spi = d.spi ∧ (d.store P a bs).tap = d.tap ∧ (d.store P a bs).promo = d.promo ∧ (d.store P a bs).fifo = d.fifo ∧
    (d.store P a bs).spiReq = d.spiReq ∧ (d.store P a bs).dbgReq = d.dbgReq ∧ (d.store P a bs).bsr = d.bsr ∧
    (d.store P a bs).preload = d.preload ∧ (d.store P a bs).late = d.late := by
  unfold Dev.store
  split
  · simp
  · split <;> simp

/-- A beat that an engine puts out waits at its port and changes nothing else. -/
@[simp] theorem putLate_fields (P : Part) (d : Dev) (m : Master) (a : Nat) (bs : List Byte) :
    d.putLate P m a bs = { d with late := d.late ++ [⟨m, portOf (regionOf P a), a, bs, d.cycle⟩] } := rfl

/-- A packet placed changes the trace and what waits at the ports alone. -/
@[simp] theorem trcPlace_fields (P : Part) (d : Dev) (k : Vector Word 4) :
    (d.trcPlace P k).phase = d.phase ∧ (d.trcPlace P k).stb = d.stb ∧ (d.trcPlace P k).cycle = d.cycle ∧
    (d.trcPlace P k).free = d.free ∧ (d.trcPlace P k).out = d.out ∧ (d.trcPlace P k).pins = d.pins ∧ (d.trcPlace P k).reqs = d.reqs ∧
    (d.trcPlace P k).regs = d.regs ∧ (d.trcPlace P k).latch = d.latch ∧ (d.trcPlace P k).rdata = d.rdata ∧
    (d.trcPlace P k).mfrozen = d.mfrozen ∧ (d.trcPlace P k).ctx = d.ctx ∧ (d.trcPlace P k).hng = d.hng ∧ (d.trcPlace P k).mot = d.mot ∧
    (d.trcPlace P k).led = d.led ∧ (d.trcPlace P k).pldup = d.pldup ∧ (d.trcPlace P k).widthErr = d.widthErr ∧
    (d.trcPlace P k).port = d.port ∧ (d.trcPlace P k).acq = d.acq ∧ (d.trcPlace P k).pix = d.pix ∧ (d.trcPlace P k).ls = d.ls ∧
    (d.trcPlace P k).dma = d.dma ∧ (d.trcPlace P k).kl = d.kl ∧ (d.trcPlace P k).hk = d.hk ∧ (d.trcPlace P k).wdt = d.wdt ∧
    (d.trcPlace P k).cas = d.cas ∧ (d.trcPlace P k).spi = d.spi ∧ (d.trcPlace P k).tap = d.tap ∧ (d.trcPlace P k).promo = d.promo ∧ (d.trcPlace P k).fifo = d.fifo ∧
    (d.trcPlace P k).spiReq = d.spiReq ∧ (d.trcPlace P k).dbgReq = d.dbgReq ∧ (d.trcPlace P k).bsr = d.bsr ∧
    (d.trcPlace P k).preload = d.preload ∧ (d.trcPlace P k).mem = d.mem ∧ (d.trcPlace P k).ecc = d.ecc ∧ (d.trcPlace P k).ev = d.ev ∧ (d.trcPlace P k).sys = d.sys := by
  unfold Dev.trcPlace
  (try dsimp only)
  repeat' split
  all_goals simp


/-- A lost packet changes the trace counts alone. -/
@[simp] theorem trcLose_fields (d : Dev) :
    (d.trcLose).phase = d.phase ∧ (d.trcLose).stb = d.stb ∧ (d.trcLose).cycle = d.cycle ∧ (d.trcLose).free = d.free ∧
    (d.trcLose).out = d.out ∧ (d.trcLose).pins = d.pins ∧ (d.trcLose).mem = d.mem ∧ (d.trcLose).ecc = d.ecc ∧
    (d.trcLose).reqs = d.reqs ∧ (d.trcLose).regs = d.regs ∧ (d.trcLose).latch = d.latch ∧ (d.trcLose).rdata = d.rdata ∧
    (d.trcLose).mfrozen = d.mfrozen ∧ (d.trcLose).ctx = d.ctx ∧ (d.trcLose).ev = d.ev ∧ (d.trcLose).sys = d.sys ∧
    (d.trcLose).hng = d.hng ∧ (d.trcLose).mot = d.mot ∧ (d.trcLose).led = d.led ∧ (d.trcLose).pldup = d.pldup ∧
    (d.trcLose).widthErr = d.widthErr ∧ (d.trcLose).port = d.port ∧ (d.trcLose).acq = d.acq ∧ (d.trcLose).pix = d.pix ∧
    (d.trcLose).ls = d.ls ∧ (d.trcLose).dma = d.dma ∧ (d.trcLose).kl = d.kl ∧ (d.trcLose).hk = d.hk ∧ (d.trcLose).wdt = d.wdt ∧
    (d.trcLose).cas = d.cas ∧ (d.trcLose).spi = d.spi ∧ (d.trcLose).tap = d.tap ∧ (d.trcLose).promo = d.promo ∧ (d.trcLose).fifo = d.fifo ∧
    (d.trcLose).spiReq = d.spiReq ∧ (d.trcLose).dbgReq = d.dbgReq ∧ (d.trcLose).bsr = d.bsr ∧
    (d.trcLose).preload = d.preload := by
  unfold Dev.trcLose
  (try dsimp only)
  repeat' split
  all_goals simp


/-- A packet tried changes what a placed or a lost one does. -/
@[simp] theorem trcTry_fields (P : Part) (d : Dev) (k : Vector Word 4) :
    (d.trcTry P k).phase = d.phase ∧ (d.trcTry P k).stb = d.stb ∧ (d.trcTry P k).cycle = d.cycle ∧ (d.trcTry P k).free = d.free ∧
    (d.trcTry P k).out = d.out ∧ (d.trcTry P k).pins = d.pins ∧ (d.trcTry P k).reqs = d.reqs ∧ (d.trcTry P k).regs = d.regs ∧
    (d.trcTry P k).latch = d.latch ∧ (d.trcTry P k).rdata = d.rdata ∧ (d.trcTry P k).mfrozen = d.mfrozen ∧ (d.trcTry P k).ctx = d.ctx ∧
    (d.trcTry P k).hng = d.hng ∧ (d.trcTry P k).mot = d.mot ∧ (d.trcTry P k).led = d.led ∧ (d.trcTry P k).pldup = d.pldup ∧
    (d.trcTry P k).widthErr = d.widthErr ∧ (d.trcTry P k).port = d.port ∧ (d.trcTry P k).acq = d.acq ∧ (d.trcTry P k).pix = d.pix ∧
    (d.trcTry P k).ls = d.ls ∧ (d.trcTry P k).dma = d.dma ∧ (d.trcTry P k).kl = d.kl ∧ (d.trcTry P k).hk = d.hk ∧
    (d.trcTry P k).wdt = d.wdt ∧ (d.trcTry P k).cas = d.cas ∧ (d.trcTry P k).spi = d.spi ∧ (d.trcTry P k).tap = d.tap ∧ (d.trcTry P k).promo = d.promo ∧ (d.trcTry P k).fifo = d.fifo ∧
    (d.trcTry P k).spiReq = d.spiReq ∧ (d.trcTry P k).dbgReq = d.dbgReq ∧ (d.trcTry P k).bsr = d.bsr ∧
    (d.trcTry P k).preload = d.preload ∧ (d.trcTry P k).mem = d.mem ∧ (d.trcTry P k).ecc = d.ecc ∧ (d.trcTry P k).ev = d.ev ∧ (d.trcTry P k).sys = d.sys := by
  unfold Dev.trcTry
  (try dsimp only)
  repeat' split
  all_goals simp


/-- A SYNC group changes what packets change. -/
@[simp] theorem trcSync_fields (P : Part) (d : Dev) :
    (d.trcSync P).phase = d.phase ∧ (d.trcSync P).stb = d.stb ∧ (d.trcSync P).cycle = d.cycle ∧ (d.trcSync P).free = d.free ∧
    (d.trcSync P).out = d.out ∧ (d.trcSync P).pins = d.pins ∧ (d.trcSync P).reqs = d.reqs ∧ (d.trcSync P).regs = d.regs ∧
    (d.trcSync P).latch = d.latch ∧ (d.trcSync P).rdata = d.rdata ∧ (d.trcSync P).mfrozen = d.mfrozen ∧ (d.trcSync P).ctx = d.ctx ∧
    (d.trcSync P).hng = d.hng ∧ (d.trcSync P).mot = d.mot ∧ (d.trcSync P).led = d.led ∧ (d.trcSync P).pldup = d.pldup ∧
    (d.trcSync P).widthErr = d.widthErr ∧ (d.trcSync P).port = d.port ∧ (d.trcSync P).acq = d.acq ∧ (d.trcSync P).pix = d.pix ∧
    (d.trcSync P).ls = d.ls ∧ (d.trcSync P).dma = d.dma ∧ (d.trcSync P).kl = d.kl ∧ (d.trcSync P).hk = d.hk ∧
    (d.trcSync P).wdt = d.wdt ∧ (d.trcSync P).cas = d.cas ∧ (d.trcSync P).spi = d.spi ∧ (d.trcSync P).tap = d.tap ∧ (d.trcSync P).promo = d.promo ∧ (d.trcSync P).fifo = d.fifo ∧
    (d.trcSync P).spiReq = d.spiReq ∧ (d.trcSync P).dbgReq = d.dbgReq ∧ (d.trcSync P).bsr = d.bsr ∧
    (d.trcSync P).preload = d.preload ∧ (d.trcSync P).mem = d.mem ∧ (d.trcSync P).ecc = d.ecc ∧ (d.trcSync P).ev = d.ev ∧ (d.trcSync P).sys = d.sys := by
  unfold Dev.trcSync
  dsimp only
  refine ⟨(foldl_keeps (fun d => d.phase) _ (fun _ _ => by simp) _ _).trans (by simp),
    (foldl_keeps (fun d => d.stb) _ (fun _ _ => by simp) _ _).trans (by simp),
    (foldl_keeps (fun d => d.cycle) _ (fun _ _ => by simp) _ _).trans (by simp),
    (foldl_keeps (fun d => d.free) _ (fun _ _ => by simp) _ _).trans (by simp),
    (foldl_keeps (fun d => d.out) _ (fun _ _ => by simp) _ _).trans (by simp),
    (foldl_keeps (fun d => d.pins) _ (fun _ _ => by simp) _ _).trans (by simp),
    (foldl_keeps (fun d => d.reqs) _ (fun _ _ => by simp) _ _).trans (by simp),
    (foldl_keeps (fun d => d.regs) _ (fun _ _ => by simp) _ _).trans (by simp),
    (foldl_keeps (fun d => d.latch) _ (fun _ _ => by simp) _ _).trans (by simp),
    (foldl_keeps (fun d => d.rdata) _ (fun _ _ => by simp) _ _).trans (by simp),
    (foldl_keeps (fun d => d.mfrozen) _ (fun _ _ => by simp) _ _).trans (by simp),
    (foldl_keeps (fun d => d.ctx) _ (fun _ _ => by simp) _ _).trans (by simp),
    (foldl_keeps (fun d => d.hng) _ (fun _ _ => by simp) _ _).trans (by simp),
    (foldl_keeps (fun d => d.mot) _ (fun _ _ => by simp) _ _).trans (by simp),
    (foldl_keeps (fun d => d.led) _ (fun _ _ => by simp) _ _).trans (by simp),
    (foldl_keeps (fun d => d.pldup) _ (fun _ _ => by simp) _ _).trans (by simp),
    (foldl_keeps (fun d => d.widthErr) _ (fun _ _ => by simp) _ _).trans (by simp),
    (foldl_keeps (fun d => d.port) _ (fun _ _ => by simp) _ _).trans (by simp),
    (foldl_keeps (fun d => d.acq) _ (fun _ _ => by simp) _ _).trans (by simp),
    (foldl_keeps (fun d => d.pix) _ (fun _ _ => by simp) _ _).trans (by simp),
    (foldl_keeps (fun d => d.ls) _ (fun _ _ => by simp) _ _).trans (by simp),
    (foldl_keeps (fun d => d.dma) _ (fun _ _ => by simp) _ _).trans (by simp),
    (foldl_keeps (fun d => d.kl) _ (fun _ _ => by simp) _ _).trans (by simp),
    (foldl_keeps (fun d => d.hk) _ (fun _ _ => by simp) _ _).trans (by simp),
    (foldl_keeps (fun d => d.wdt) _ (fun _ _ => by simp) _ _).trans (by simp),
    (foldl_keeps (fun d => d.cas) _ (fun _ _ => by simp) _ _).trans (by simp),
    (foldl_keeps (fun d => d.spi) _ (fun _ _ => by simp) _ _).trans (by simp),
    (foldl_keeps (fun d => d.tap) _ (fun _ _ => by simp) _ _).trans (by simp),
    (foldl_keeps (fun d => d.promo) _ (fun _ _ => by simp) _ _).trans (by simp),
    (foldl_keeps (fun d => d.fifo) _ (fun _ _ => by simp) _ _).trans (by simp),
    (foldl_keeps (fun d => d.spiReq) _ (fun _ _ => by simp) _ _).trans (by simp),
    (foldl_keeps (fun d => d.dbgReq) _ (fun _ _ => by simp) _ _).trans (by simp),
    (foldl_keeps (fun d => d.bsr) _ (fun _ _ => by simp) _ _).trans (by simp),
    (foldl_keeps (fun d => d.preload) _ (fun _ _ => by simp) _ _).trans (by simp),
    (foldl_keeps (fun d => d.mem) _ (fun _ _ => by simp) _ _).trans (by simp),
    (foldl_keeps (fun d => d.ecc) _ (fun _ _ => by simp) _ _).trans (by simp),
    (foldl_keeps (fun d => d.ev) _ (fun _ _ => by simp) _ _).trans (by simp),
    (foldl_keeps (fun d => d.sys) _ (fun _ _ => by simp) _ _).trans (by simp)⟩

/-- Trace changes its own counts and what waits at the ports alone. -/
@[simp] theorem trcSyncOn_fields (P : Part) (d : Dev) :
    (d.trcSyncOn P).phase = d.phase ∧ (d.trcSyncOn P).stb = d.stb ∧ (d.trcSyncOn P).cycle = d.cycle ∧ (d.trcSyncOn P).free = d.free ∧
    (d.trcSyncOn P).out = d.out ∧ (d.trcSyncOn P).pins = d.pins ∧ (d.trcSyncOn P).reqs = d.reqs ∧ (d.trcSyncOn P).regs = d.regs ∧
    (d.trcSyncOn P).latch = d.latch ∧ (d.trcSyncOn P).rdata = d.rdata ∧ (d.trcSyncOn P).mfrozen = d.mfrozen ∧
    (d.trcSyncOn P).ctx = d.ctx ∧ (d.trcSyncOn P).hng = d.hng ∧ (d.trcSyncOn P).mot = d.mot ∧ (d.trcSyncOn P).led = d.led ∧
    (d.trcSyncOn P).pldup = d.pldup ∧ (d.trcSyncOn P).widthErr = d.widthErr ∧ (d.trcSyncOn P).port = d.port ∧
    (d.trcSyncOn P).acq = d.acq ∧ (d.trcSyncOn P).pix = d.pix ∧ (d.trcSyncOn P).ls = d.ls ∧ (d.trcSyncOn P).dma = d.dma ∧
    (d.trcSyncOn P).kl = d.kl ∧ (d.trcSyncOn P).hk = d.hk ∧ (d.trcSyncOn P).wdt = d.wdt ∧ (d.trcSyncOn P).cas = d.cas ∧
    (d.trcSyncOn P).spi = d.spi ∧ (d.trcSyncOn P).tap = d.tap ∧ (d.trcSyncOn P).promo = d.promo ∧ (d.trcSyncOn P).fifo = d.fifo ∧
    (d.trcSyncOn P).spiReq = d.spiReq ∧ (d.trcSyncOn P).dbgReq = d.dbgReq ∧ (d.trcSyncOn P).bsr = d.bsr ∧
    (d.trcSyncOn P).preload = d.preload ∧ (d.trcSyncOn P).mem = d.mem ∧ (d.trcSyncOn P).ecc = d.ecc ∧ (d.trcSyncOn P).ev = d.ev ∧ (d.trcSyncOn P).sys = d.sys := by
  unfold Dev.trcSyncOn
  (try dsimp only)
  repeat' split
  all_goals simp


/-- The packets owed change what packets change. -/
@[simp] theorem trcGap_fields (P : Part) (d : Dev) :
    (d.trcGap P).phase = d.phase ∧ (d.trcGap P).stb = d.stb ∧ (d.trcGap P).cycle = d.cycle ∧ (d.trcGap P).free = d.free ∧
    (d.trcGap P).out = d.out ∧ (d.trcGap P).pins = d.pins ∧ (d.trcGap P).reqs = d.reqs ∧ (d.trcGap P).regs = d.regs ∧
    (d.trcGap P).latch = d.latch ∧ (d.trcGap P).rdata = d.rdata ∧ (d.trcGap P).mfrozen = d.mfrozen ∧
    (d.trcGap P).ctx = d.ctx ∧ (d.trcGap P).hng = d.hng ∧ (d.trcGap P).mot = d.mot ∧ (d.trcGap P).led = d.led ∧
    (d.trcGap P).pldup = d.pldup ∧ (d.trcGap P).widthErr = d.widthErr ∧ (d.trcGap P).port = d.port ∧
    (d.trcGap P).acq = d.acq ∧ (d.trcGap P).pix = d.pix ∧ (d.trcGap P).ls = d.ls ∧ (d.trcGap P).dma = d.dma ∧
    (d.trcGap P).kl = d.kl ∧ (d.trcGap P).hk = d.hk ∧ (d.trcGap P).wdt = d.wdt ∧ (d.trcGap P).cas = d.cas ∧
    (d.trcGap P).spi = d.spi ∧ (d.trcGap P).tap = d.tap ∧ (d.trcGap P).promo = d.promo ∧ (d.trcGap P).fifo = d.fifo ∧
    (d.trcGap P).spiReq = d.spiReq ∧ (d.trcGap P).dbgReq = d.dbgReq ∧ (d.trcGap P).bsr = d.bsr ∧
    (d.trcGap P).preload = d.preload ∧ (d.trcGap P).mem = d.mem ∧ (d.trcGap P).ecc = d.ecc ∧ (d.trcGap P).ev = d.ev ∧ (d.trcGap P).sys = d.sys := by
  unfold Dev.trcGap
  (try dsimp only)
  repeat' split
  all_goals simp


/-- Trace changes its own counts and what waits at the ports alone. -/
@[simp] theorem trcWrite_fields (P : Part) (d : Dev) (k : Vector Word 4) :
    (d.trcWrite P k).phase = d.phase ∧ (d.trcWrite P k).stb = d.stb ∧ (d.trcWrite P k).cycle = d.cycle ∧
    (d.trcWrite P k).free = d.free ∧ (d.trcWrite P k).out = d.out ∧ (d.trcWrite P k).pins = d.pins ∧ (d.trcWrite P k).reqs = d.reqs ∧
    (d.trcWrite P k).regs = d.regs ∧ (d.trcWrite P k).latch = d.latch ∧ (d.trcWrite P k).rdata = d.rdata ∧
    (d.trcWrite P k).mfrozen = d.mfrozen ∧ (d.trcWrite P k).ctx = d.ctx ∧ (d.trcWrite P k).hng = d.hng ∧ (d.trcWrite P k).mot = d.mot ∧
    (d.trcWrite P k).led = d.led ∧ (d.trcWrite P k).pldup = d.pldup ∧ (d.trcWrite P k).widthErr = d.widthErr ∧
    (d.trcWrite P k).port = d.port ∧ (d.trcWrite P k).acq = d.acq ∧ (d.trcWrite P k).pix = d.pix ∧ (d.trcWrite P k).ls = d.ls ∧
    (d.trcWrite P k).dma = d.dma ∧ (d.trcWrite P k).kl = d.kl ∧ (d.trcWrite P k).hk = d.hk ∧ (d.trcWrite P k).wdt = d.wdt ∧
    (d.trcWrite P k).cas = d.cas ∧ (d.trcWrite P k).spi = d.spi ∧ (d.trcWrite P k).tap = d.tap ∧ (d.trcWrite P k).promo = d.promo ∧ (d.trcWrite P k).fifo = d.fifo ∧
    (d.trcWrite P k).spiReq = d.spiReq ∧ (d.trcWrite P k).dbgReq = d.dbgReq ∧ (d.trcWrite P k).bsr = d.bsr ∧
    (d.trcWrite P k).preload = d.preload ∧ (d.trcWrite P k).mem = d.mem ∧ (d.trcWrite P k).ecc = d.ecc ∧ (d.trcWrite P k).ev = d.ev ∧ (d.trcWrite P k).sys = d.sys := by
  unfold Dev.trcWrite
  (try dsimp only)
  repeat' split
  all_goals simp


/-- Trace changes its own counts and what waits at the ports alone. -/
@[simp] theorem trace_fields (P : Part) (d : Dev) (c : CtxId) (t : Nat) (w2 w3 : Word) :
    (d.trace P c t w2 w3).phase = d.phase ∧ (d.trace P c t w2 w3).stb = d.stb ∧ (d.trace P c t w2 w3).cycle = d.cycle ∧
    (d.trace P c t w2 w3).free = d.free ∧ (d.trace P c t w2 w3).out = d.out ∧ (d.trace P c t w2 w3).pins = d.pins ∧
    (d.trace P c t w2 w3).reqs = d.reqs ∧ (d.trace P c t w2 w3).regs = d.regs ∧ (d.trace P c t w2 w3).latch = d.latch ∧
    (d.trace P c t w2 w3).rdata = d.rdata ∧ (d.trace P c t w2 w3).mfrozen = d.mfrozen ∧ (d.trace P c t w2 w3).ctx = d.ctx ∧
    (d.trace P c t w2 w3).hng = d.hng ∧ (d.trace P c t w2 w3).mot = d.mot ∧ (d.trace P c t w2 w3).led = d.led ∧
    (d.trace P c t w2 w3).pldup = d.pldup ∧ (d.trace P c t w2 w3).widthErr = d.widthErr ∧ (d.trace P c t w2 w3).port = d.port ∧
    (d.trace P c t w2 w3).acq = d.acq ∧ (d.trace P c t w2 w3).pix = d.pix ∧ (d.trace P c t w2 w3).ls = d.ls ∧
    (d.trace P c t w2 w3).dma = d.dma ∧ (d.trace P c t w2 w3).kl = d.kl ∧ (d.trace P c t w2 w3).hk = d.hk ∧
    (d.trace P c t w2 w3).wdt = d.wdt ∧ (d.trace P c t w2 w3).cas = d.cas ∧ (d.trace P c t w2 w3).spi = d.spi ∧
    (d.trace P c t w2 w3).tap = d.tap ∧ (d.trace P c t w2 w3).promo = d.promo ∧ (d.trace P c t w2 w3).fifo = d.fifo ∧
    (d.trace P c t w2 w3).spiReq = d.spiReq ∧ (d.trace P c t w2 w3).dbgReq = d.dbgReq ∧ (d.trace P c t w2 w3).bsr = d.bsr ∧
    (d.trace P c t w2 w3).preload = d.preload ∧ (d.trace P c t w2 w3).mem = d.mem ∧ (d.trace P c t w2 w3).ecc = d.ecc ∧ (d.trace P c t w2 w3).ev = d.ev ∧ (d.trace P c t w2 w3).sys = d.sys := by
  unfold Dev.trace
  (try dsimp only)
  repeat' split
  all_goals simp


/-- Trace changes its own counts and what waits at the ports alone. -/
@[simp] theorem traceGlobal_fields (P : Part) (d : Dev) (t : Nat) (w2 w3 : Word) :
    (d.traceGlobal P t w2 w3).phase = d.phase ∧ (d.traceGlobal P t w2 w3).stb = d.stb ∧ (d.traceGlobal P t w2 w3).cycle = d.cycle ∧
    (d.traceGlobal P t w2 w3).free = d.free ∧ (d.traceGlobal P t w2 w3).out = d.out ∧ (d.traceGlobal P t w2 w3).pins = d.pins ∧
    (d.traceGlobal P t w2 w3).reqs = d.reqs ∧ (d.traceGlobal P t w2 w3).regs = d.regs ∧ (d.traceGlobal P t w2 w3).latch = d.latch ∧
    (d.traceGlobal P t w2 w3).rdata = d.rdata ∧ (d.traceGlobal P t w2 w3).mfrozen = d.mfrozen ∧ (d.traceGlobal P t w2 w3).ctx = d.ctx ∧
    (d.traceGlobal P t w2 w3).hng = d.hng ∧ (d.traceGlobal P t w2 w3).mot = d.mot ∧ (d.traceGlobal P t w2 w3).led = d.led ∧
    (d.traceGlobal P t w2 w3).pldup = d.pldup ∧ (d.traceGlobal P t w2 w3).widthErr = d.widthErr ∧
    (d.traceGlobal P t w2 w3).port = d.port ∧ (d.traceGlobal P t w2 w3).acq = d.acq ∧ (d.traceGlobal P t w2 w3).pix = d.pix ∧
    (d.traceGlobal P t w2 w3).ls = d.ls ∧ (d.traceGlobal P t w2 w3).dma = d.dma ∧ (d.traceGlobal P t w2 w3).kl = d.kl ∧
    (d.traceGlobal P t w2 w3).hk = d.hk ∧ (d.traceGlobal P t w2 w3).wdt = d.wdt ∧ (d.traceGlobal P t w2 w3).cas = d.cas ∧
    (d.traceGlobal P t w2 w3).spi = d.spi ∧ (d.traceGlobal P t w2 w3).tap = d.tap ∧ (d.traceGlobal P t w2 w3).promo = d.promo ∧ (d.traceGlobal P t w2 w3).fifo = d.fifo ∧
    (d.traceGlobal P t w2 w3).spiReq = d.spiReq ∧ (d.traceGlobal P t w2 w3).dbgReq = d.dbgReq ∧ (d.traceGlobal P t w2 w3).bsr = d.bsr ∧
    (d.traceGlobal P t w2 w3).preload = d.preload ∧ (d.traceGlobal P t w2 w3).mem = d.mem ∧ (d.traceGlobal P t w2 w3).ecc = d.ecc ∧ (d.traceGlobal P t w2 w3).ev = d.ev ∧ (d.traceGlobal P t w2 w3).sys = d.sys := by
  unfold Dev.traceGlobal
  (try dsimp only)
  repeat' split
  all_goals simp


/-- Trace changes its own counts and what waits at the ports alone. -/
@[simp] theorem ungate_fields (P : Part) (d : Dev) (q : Fin 2) :
    (d.ungate P q).phase = d.phase ∧ (d.ungate P q).stb = d.stb ∧ (d.ungate P q).cycle = d.cycle ∧ (d.ungate P q).free = d.free ∧
    (d.ungate P q).out = d.out ∧ (d.ungate P q).pins = d.pins ∧ (d.ungate P q).reqs = d.reqs ∧ (d.ungate P q).regs = d.regs ∧
    (d.ungate P q).latch = d.latch ∧ (d.ungate P q).rdata = d.rdata ∧ (d.ungate P q).mfrozen = d.mfrozen ∧ (d.ungate P q).ctx = d.ctx ∧
    (d.ungate P q).hng = d.hng ∧ (d.ungate P q).mot = d.mot ∧ (d.ungate P q).led = d.led ∧ (d.ungate P q).pldup = d.pldup ∧
    (d.ungate P q).widthErr = d.widthErr ∧ (d.ungate P q).port = d.port ∧ (d.ungate P q).acq = d.acq ∧ (d.ungate P q).pix = d.pix ∧
    (d.ungate P q).ls = d.ls ∧ (d.ungate P q).dma = d.dma ∧ (d.ungate P q).kl = d.kl ∧ (d.ungate P q).hk = d.hk ∧
    (d.ungate P q).wdt = d.wdt ∧ (d.ungate P q).cas = d.cas ∧ (d.ungate P q).spi = d.spi ∧ (d.ungate P q).tap = d.tap ∧ (d.ungate P q).promo = d.promo ∧ (d.ungate P q).fifo = d.fifo ∧
    (d.ungate P q).spiReq = d.spiReq ∧ (d.ungate P q).dbgReq = d.dbgReq ∧ (d.ungate P q).bsr = d.bsr ∧
    (d.ungate P q).preload = d.preload ∧ (d.ungate P q).mem = d.mem ∧ (d.ungate P q).ecc = d.ecc ∧ (d.ungate P q).ev = d.ev ∧ (d.ungate P q).sys = d.sys := by
  unfold Dev.ungate
  repeat' split
  all_goals simp


/-- A change of a run state changes its context and the trace alone. -/
@[simp] theorem setRun_fields (P : Part) (d : Dev) (c : CtxId) (f : Ctx → Ctx) :
    (d.setRun P c f).phase = d.phase ∧ (d.setRun P c f).stb = d.stb ∧ (d.setRun P c f).cycle = d.cycle ∧
    (d.setRun P c f).free = d.free ∧ (d.setRun P c f).out = d.out ∧ (d.setRun P c f).pins = d.pins ∧ (d.setRun P c f).reqs = d.reqs ∧
    (d.setRun P c f).regs = d.regs ∧ (d.setRun P c f).latch = d.latch ∧ (d.setRun P c f).rdata = d.rdata ∧
    (d.setRun P c f).mfrozen = d.mfrozen ∧ (d.setRun P c f).hng = d.hng ∧ (d.setRun P c f).mot = d.mot ∧ (d.setRun P c f).led = d.led ∧
    (d.setRun P c f).pldup = d.pldup ∧ (d.setRun P c f).widthErr = d.widthErr ∧ (d.setRun P c f).port = d.port ∧
    (d.setRun P c f).acq = d.acq ∧ (d.setRun P c f).pix = d.pix ∧ (d.setRun P c f).ls = d.ls ∧ (d.setRun P c f).dma = d.dma ∧
    (d.setRun P c f).kl = d.kl ∧ (d.setRun P c f).hk = d.hk ∧ (d.setRun P c f).wdt = d.wdt ∧ (d.setRun P c f).cas = d.cas ∧
    (d.setRun P c f).spi = d.spi ∧ (d.setRun P c f).tap = d.tap ∧ (d.setRun P c f).promo = d.promo ∧ (d.setRun P c f).fifo = d.fifo ∧
    (d.setRun P c f).spiReq = d.spiReq ∧ (d.setRun P c f).dbgReq = d.dbgReq ∧ (d.setRun P c f).bsr = d.bsr ∧
    (d.setRun P c f).preload = d.preload ∧ (d.setRun P c f).mem = d.mem ∧ (d.setRun P c f).ecc = d.ecc ∧ (d.setRun P c f).ev = d.ev ∧ (d.setRun P c f).sys = d.sys := by
  unfold Dev.setRun
  (try dsimp only)
  repeat' split
  all_goals simp


/-- Records written in the ring change memory, marks, the fabric and ABSENT alone. -/
@[simp] theorem writeRecords_fields (P : Part) (rs : List (Nat × List Word)) (d : Dev) (i : BitVec 6) (q : Half) :
    (Dev.writeRecords P rs i q d).phase = d.phase ∧ (Dev.writeRecords P rs i q d).stb = d.stb ∧
    (Dev.writeRecords P rs i q d).cycle = d.cycle ∧ (Dev.writeRecords P rs i q d).free = d.free ∧
    (Dev.writeRecords P rs i q d).out = d.out ∧ (Dev.writeRecords P rs i q d).pins = d.pins ∧
    (Dev.writeRecords P rs i q d).reqs = d.reqs ∧ (Dev.writeRecords P rs i q d).regs = d.regs ∧
    (Dev.writeRecords P rs i q d).latch = d.latch ∧ (Dev.writeRecords P rs i q d).rdata = d.rdata ∧
    (Dev.writeRecords P rs i q d).mfrozen = d.mfrozen ∧ (Dev.writeRecords P rs i q d).ctx = d.ctx ∧
    (Dev.writeRecords P rs i q d).hng = d.hng ∧ (Dev.writeRecords P rs i q d).mot = d.mot ∧
    (Dev.writeRecords P rs i q d).led = d.led ∧ (Dev.writeRecords P rs i q d).pldup = d.pldup ∧
    (Dev.writeRecords P rs i q d).widthErr = d.widthErr ∧ (Dev.writeRecords P rs i q d).port = d.port ∧
    (Dev.writeRecords P rs i q d).acq = d.acq ∧ (Dev.writeRecords P rs i q d).pix = d.pix ∧
    (Dev.writeRecords P rs i q d).ls = d.ls ∧ (Dev.writeRecords P rs i q d).dma = d.dma ∧
    (Dev.writeRecords P rs i q d).kl = d.kl ∧ (Dev.writeRecords P rs i q d).hk = d.hk ∧
    (Dev.writeRecords P rs i q d).wdt = d.wdt ∧ (Dev.writeRecords P rs i q d).cas = d.cas ∧
    (Dev.writeRecords P rs i q d).pwr = d.pwr ∧ (Dev.writeRecords P rs i q d).spi = d.spi ∧
    (Dev.writeRecords P rs i q d).tap = d.tap ∧ (Dev.writeRecords P rs i q d).promo = d.promo ∧ (Dev.writeRecords P rs i q d).fifo = d.fifo ∧
    (Dev.writeRecords P rs i q d).spiReq = d.spiReq ∧ (Dev.writeRecords P rs i q d).dbgReq = d.dbgReq ∧ (Dev.writeRecords P rs i q d).bsr = d.bsr ∧
    (Dev.writeRecords P rs i q d).preload = d.preload := by
  induction rs generalizing d i q with
  | nil => simp [Dev.writeRecords]
  | cons r rs ih => simp only [Dev.writeRecords, ih, store_fields, and_self]

/-- A fault record changes the ring, its indices and the fabric alone. -/
@[simp] theorem record_fields (P : Part) (d : Dev) (m k : Nat) (fr : Bool) (pc : Word) (x : Access) (b : Bool) (i st : Word) :
    (d.record P m k fr pc x b i st).phase = d.phase ∧ (d.record P m k fr pc x b i st).stb = d.stb ∧
    (d.record P m k fr pc x b i st).cycle = d.cycle ∧ (d.record P m k fr pc x b i st).free = d.free ∧
    (d.record P m k fr pc x b i st).out = d.out ∧ (d.record P m k fr pc x b i st).pins = d.pins ∧
    (d.record P m k fr pc x b i st).reqs = d.reqs ∧ (d.record P m k fr pc x b i st).regs = d.regs ∧
    (d.record P m k fr pc x b i st).latch = d.latch ∧ (d.record P m k fr pc x b i st).rdata = d.rdata ∧
    (d.record P m k fr pc x b i st).mfrozen = d.mfrozen ∧ (d.record P m k fr pc x b i st).ctx = d.ctx ∧
    (d.record P m k fr pc x b i st).hng = d.hng ∧ (d.record P m k fr pc x b i st).mot = d.mot ∧
    (d.record P m k fr pc x b i st).led = d.led ∧ (d.record P m k fr pc x b i st).pldup = d.pldup ∧
    (d.record P m k fr pc x b i st).widthErr = d.widthErr ∧ (d.record P m k fr pc x b i st).port = d.port ∧
    (d.record P m k fr pc x b i st).acq = d.acq ∧ (d.record P m k fr pc x b i st).pix = d.pix ∧
    (d.record P m k fr pc x b i st).ls = d.ls ∧ (d.record P m k fr pc x b i st).dma = d.dma ∧
    (d.record P m k fr pc x b i st).kl = d.kl ∧ (d.record P m k fr pc x b i st).hk = d.hk ∧
    (d.record P m k fr pc x b i st).wdt = d.wdt ∧ (d.record P m k fr pc x b i st).cas = d.cas ∧
    (d.record P m k fr pc x b i st).pwr = d.pwr ∧ (d.record P m k fr pc x b i st).spi = d.spi ∧
    (d.record P m k fr pc x b i st).tap = d.tap ∧ (d.record P m k fr pc x b i st).promo = d.promo ∧ (d.record P m k fr pc x b i st).fifo = d.fifo ∧
    (d.record P m k fr pc x b i st).spiReq = d.spiReq ∧ (d.record P m k fr pc x b i st).dbgReq = d.dbgReq ∧ (d.record P m k fr pc x b i st).bsr = d.bsr ∧
    (d.record P m k fr pc x b i st).preload = d.preload := by
  unfold Dev.record
  (try dsimp only)
  all_goals simp


/-- A context frozen by a violation: its context, the record and the trace change alone. -/
@[simp] theorem freezeCtx_fields (P : Part) (d : Dev) (c : CtxId) (k : Nat) (x : Access) (i : Word) :
    (d.freezeCtx P c k x i).phase = d.phase ∧ (d.freezeCtx P c k x i).stb = d.stb ∧ (d.freezeCtx P c k x i).cycle = d.cycle ∧
    (d.freezeCtx P c k x i).free = d.free ∧ (d.freezeCtx P c k x i).out = d.out ∧ (d.freezeCtx P c k x i).pins = d.pins ∧
    (d.freezeCtx P c k x i).reqs = d.reqs ∧ (d.freezeCtx P c k x i).regs = d.regs ∧ (d.freezeCtx P c k x i).latch = d.latch ∧
    (d.freezeCtx P c k x i).rdata = d.rdata ∧ (d.freezeCtx P c k x i).mfrozen = d.mfrozen ∧ (d.freezeCtx P c k x i).hng = d.hng ∧
    (d.freezeCtx P c k x i).mot = d.mot ∧ (d.freezeCtx P c k x i).led = d.led ∧ (d.freezeCtx P c k x i).pldup = d.pldup ∧
    (d.freezeCtx P c k x i).widthErr = d.widthErr ∧ (d.freezeCtx P c k x i).port = d.port ∧ (d.freezeCtx P c k x i).acq = d.acq ∧
    (d.freezeCtx P c k x i).pix = d.pix ∧ (d.freezeCtx P c k x i).ls = d.ls ∧ (d.freezeCtx P c k x i).dma = d.dma ∧
    (d.freezeCtx P c k x i).kl = d.kl ∧ (d.freezeCtx P c k x i).hk = d.hk ∧ (d.freezeCtx P c k x i).wdt = d.wdt ∧
    (d.freezeCtx P c k x i).cas = d.cas ∧ (d.freezeCtx P c k x i).spi = d.spi ∧ (d.freezeCtx P c k x i).tap = d.tap ∧ (d.freezeCtx P c k x i).promo = d.promo ∧ (d.freezeCtx P c k x i).fifo = d.fifo ∧
    (d.freezeCtx P c k x i).spiReq = d.spiReq ∧ (d.freezeCtx P c k x i).dbgReq = d.dbgReq ∧ (d.freezeCtx P c k x i).bsr = d.bsr ∧
    (d.freezeCtx P c k x i).preload = d.preload := by
  unfold Dev.freezeCtx
  (try dsimp only)
  all_goals simp


/-- The ECC check of a fetch changes the marks and the fabric alone. -/
@[simp] theorem fetchEcc_fields (P : Part) (d : Dev) (c : CtxId) :
    (d.fetchEcc P c).phase = d.phase ∧ (d.fetchEcc P c).stb = d.stb ∧ (d.fetchEcc P c).cycle = d.cycle ∧
    (d.fetchEcc P c).free = d.free ∧ (d.fetchEcc P c).out = d.out ∧ (d.fetchEcc P c).pins = d.pins ∧ (d.fetchEcc P c).mem = d.mem ∧
    (d.fetchEcc P c).reqs = d.reqs ∧ (d.fetchEcc P c).regs = d.regs ∧ (d.fetchEcc P c).latch = d.latch ∧
    (d.fetchEcc P c).rdata = d.rdata ∧ (d.fetchEcc P c).mfrozen = d.mfrozen ∧ (d.fetchEcc P c).ctx = d.ctx ∧
    (d.fetchEcc P c).sys = d.sys ∧ (d.fetchEcc P c).hng = d.hng ∧ (d.fetchEcc P c).mot = d.mot ∧ (d.fetchEcc P c).led = d.led ∧
    (d.fetchEcc P c).pldup = d.pldup ∧ (d.fetchEcc P c).widthErr = d.widthErr ∧ (d.fetchEcc P c).port = d.port ∧
    (d.fetchEcc P c).acq = d.acq ∧ (d.fetchEcc P c).pix = d.pix ∧ (d.fetchEcc P c).ls = d.ls ∧ (d.fetchEcc P c).dma = d.dma ∧
    (d.fetchEcc P c).kl = d.kl ∧ (d.fetchEcc P c).hk = d.hk ∧ (d.fetchEcc P c).wdt = d.wdt ∧ (d.fetchEcc P c).cas = d.cas ∧
    (d.fetchEcc P c).pwr = d.pwr ∧ (d.fetchEcc P c).spi = d.spi ∧ (d.fetchEcc P c).tap = d.tap ∧ (d.fetchEcc P c).promo = d.promo ∧ (d.fetchEcc P c).fifo = d.fifo ∧
    (d.fetchEcc P c).spiReq = d.spiReq ∧ (d.fetchEcc P c).dbgReq = d.dbgReq ∧ (d.fetchEcc P c).bsr = d.bsr ∧
    (d.fetchEcc P c).preload = d.preload ∧ (d.fetchEcc P c).late = d.late := by
  unfold Dev.fetchEcc Dev.fetchBeat Dev.beatRead
  repeat' split
  all_goals simp


/-- An issue changes its context alone. -/
@[simp] theorem issued_fields (d : Dev) (c : CtxId) :
    (d.issued c).phase = d.phase ∧ (d.issued c).stb = d.stb ∧ (d.issued c).cycle = d.cycle ∧ (d.issued c).free = d.free ∧
    (d.issued c).out = d.out ∧ (d.issued c).pins = d.pins ∧ (d.issued c).mem = d.mem ∧ (d.issued c).ecc = d.ecc ∧
    (d.issued c).reqs = d.reqs ∧ (d.issued c).regs = d.regs ∧ (d.issued c).latch = d.latch ∧ (d.issued c).rdata = d.rdata ∧
    (d.issued c).mfrozen = d.mfrozen ∧ (d.issued c).ev = d.ev ∧ (d.issued c).sys = d.sys ∧ (d.issued c).hng = d.hng ∧
    (d.issued c).mot = d.mot ∧ (d.issued c).led = d.led ∧ (d.issued c).pldup = d.pldup ∧ (d.issued c).widthErr = d.widthErr ∧
    (d.issued c).port = d.port ∧ (d.issued c).acq = d.acq ∧ (d.issued c).pix = d.pix ∧ (d.issued c).ls = d.ls ∧
    (d.issued c).dma = d.dma ∧ (d.issued c).kl = d.kl ∧ (d.issued c).hk = d.hk ∧ (d.issued c).wdt = d.wdt ∧ (d.issued c).cas = d.cas ∧
    (d.issued c).pwr = d.pwr ∧ (d.issued c).spi = d.spi ∧ (d.issued c).tap = d.tap ∧ (d.issued c).fifo = d.fifo ∧
    (d.issued c).spiReq = d.spiReq ∧ (d.issued c).dbgReq = d.dbgReq ∧ (d.issued c).bsr = d.bsr ∧
    (d.issued c).preload = d.preload ∧ (d.issued c).late = d.late := by
  refine ⟨?_, ?_, ?_, ?_, ?_, ?_, ?_, ?_, ?_, ?_, ?_, ?_, ?_, ?_, ?_, ?_, ?_, ?_, ?_, ?_, ?_, ?_, ?_, ?_, ?_, ?_, ?_, ?_, ?_, ?_, ?_, ?_, ?_, ?_, ?_, ?_, ?_, ?_⟩ <;> rfl

/-- A change of a run state changes its context as told. -/
@[simp] theorem setRun_ctx (P : Part) (d : Dev) (c : CtxId) (f : Ctx → Ctx) : (d.setRun P c f).ctx = upd d.ctx c f := by
  unfold Dev.setRun
  dsimp only
  repeat' split
  all_goals simp

/-- A context frozen by a violation (03 R76, R77). -/
@[simp] theorem freezeCtx_ctx (P : Part) (d : Dev) (c : CtxId) (k : Nat) (x : Access) (i : Word) :
    (d.freezeCtx P c k x i).ctx = upd d.ctx c fun y => { y with frozen := true, lastCause := BitVec.ofNat 8 k, urgent := 0 } := by
  unfold Dev.freezeCtx
  simp

/-- Bytes written change memory by memPuts. -/
@[simp] theorem poke_mem (d : Dev) (a : Nat) (bs : List Byte) : (d.poke a bs).mem = memPuts d.mem a bs := rfl

/-- The bytes of SH as they stood before this cycle change nothing that memory reads as (07 R163). -/
@[simp] theorem memGet_note (m : Mem) (ecc : Tab EccMark) (c a n x : Nat) : memGet (m.note ecc c a n) x = memGet m x := by
  unfold Mem.note
  dsimp only
  split <;> rfl

/-- Bytes kept of the cycle's start leave the canonical form. -/
@[simp] theorem memWf_note (m : Mem) (ecc : Tab EccMark) (c a n : Nat) : memWf (m.note ecc c a n) = memWf m := by
  unfold Mem.note
  dsimp only
  split <;> rfl

/-- The bytes that reach memory. -/
@[simp] theorem storeAll_mem (P : Part) (d : Dev) (a : Nat) (bs : List Byte) :
    (d.storeAll P a bs).mem = memPuts (d.mem.note d.ecc d.cycle a bs.length) a bs := by
  unfold Dev.storeAll
  dsimp only
  rw [poke_mem]
  dsimp only
  rw [foldl_keeps (fun d => d.mem) _ (fun _ _ => by simp), foldl_keeps (fun d => d.cycle) _ (fun _ _ => by simp)]

/-- A store writes its bytes before the absent part of LS (01 R16, R21). -/
theorem store_mem (P : Part) (d : Dev) (a : Nat) (bs : List Byte) :
    (d.store P a bs).mem = if regionOf P a = .lsAbsent then d.mem else
      memPuts (d.mem.note d.ecc d.cycle a (bs.take (presentLen P a bs.length)).length) a (bs.take (presentLen P a bs.length)) := by
  unfold Dev.store
  split
  · simp
  · split
    · simp
    · rename_i h
      rw [storeAll_mem, List.take_of_length_le (Nat.le_of_not_lt h)]

/-- A fault record's bytes (03 R79): the ring slot alone changes, where no higher master has a record in the same cycle. -/
theorem record_byte (P : Part) (d : Dev) (m k : Nat) (fr : Bool) (pc : Word) (x : Access) (b : Bool) (i st : Word) (a : Nat)
    (hn : d.recordsNow.filter (fun r => decide (m < r.1)) = [])
    (h : a < 0x3000000 + 32 * d.sys.frW.toNat ∨ 0x3000000 + 32 * d.sys.frW.toNat + 32 ≤ a) :
    (d.record P m k fr pc x b i st).byte a = d.byte a := by
  unfold Dev.record Dev.byte
  simp only [raise_fields, updSys_fields, hn, Dev.writeRecords, store_mem, List.length_nil, BitVec.ofNat_eq_ofNat, BitVec.sub_zero]
  split
  · rfl
  · refine (memGet_memPuts_out _ _ _ _ ?_).trans (memGet_note _ _ _ _ _ _)
    have t : ∀ (n : Nat) (l : List Byte), l.length = 32 → (l.take n).length ≤ 32 := fun n l e => by rw [List.length_take]; omega
    refine h.imp id fun h => Nat.le_trans (Nat.add_le_add_left (t _ _ ?_) _) h
    simp [wordBytes]

end Sys2Proof.Laws
end

