-- ==== Sys2Proof/Laws/Issue.lean ====
section
/-!
SUPPORT. What an issuing instruction finds and what its issue comes to: the laws by which the meaning of an instruction reduces to its body.
-/
namespace Sys2Proof.Laws

open Sys2Proof.Machine

-- One thread: the package is compiled as one text, and each waiting thread costs a whole stack.
set_option Elab.async false

/-- A register written changes the registers alone (03 "Per-context state"). -/
@[simp] theorem wr_fields (x : Ctx) (r : Reg) (w : Word) :
    (x.wr r w).pc = x.pc ∧ (x.wr r w).z = x.z ∧ (x.wr r w).n = x.n ∧ (x.wr r w).c = x.c ∧ (x.wr r w).v = x.v ∧ (x.wr r w).abs = x.abs ∧
    (x.wr r w).priv = x.priv ∧ (x.wr r w).frozen = x.frozen ∧ (x.wr r w).win = x.win ∧ (x.wr r w).emask = x.emask ∧
    (x.wr r w).queue = x.queue ∧ (x.wr r w).wrec = x.wrec ∧ (x.wr r w).wake = x.wake ∧ (x.wr r w).sbuf = x.sbuf ∧
    (x.wr r w).load = x.load ∧ (x.wr r w).run = x.run ∧ (x.wr r w).urgent = x.urgent ∧ (x.wr r w).firstDue = x.firstDue ∧
    (x.wr r w).wokeAt = x.wokeAt ∧ (x.wr r w).lastIssue = x.lastIssue ∧ (x.wr r w).issuableSince = x.issuableSince ∧
    (x.wr r w).lastCause = x.lastCause ∧ (x.wr r w).entry = x.entry ∧ (x.wr r w).mirror = x.mirror ∧ (x.wr r w).due = x.due ∧
    (x.wr r w).resetting = x.resetting := by
  unfold Ctx.wr
  split <;> simp

/-- The registers after a write of one: g0 discards it. -/
theorem wr_g (x : Ctx) (r : Reg) (w : Word) : (x.wr r w).g = if r = 0 then x.g else x.g.set r w := by
  unfold Ctx.wr
  split <;> rfl

/-- A register reads back what was written, g0 apart. -/
theorem wr_rd (x : Ctx) (r k : Reg) (w : Word) : (x.wr r w).rd k = if k = 0 then 0 else if k = r then w else x.rd k := by
  unfold Ctx.rd Ctx.wr
  by_cases hk : k = 0
  · simp [hk]
  · simp only [hk, if_false]
    by_cases hr : r = 0
    · subst hr; simp [hk]
    · simp only [hr, if_false]
      by_cases e : k = r
      · subst e; simp
      · have : (r : Nat) ≠ k := fun h => e (Fin.ext h).symm
        simp [e, this]

/-- Nothing waits for the boundary: it changes nothing but the empty list of what waited. -/
theorem boundary_idle (P : Part) (d : Dev) (c : CtxId) (h : (d.ctx[c]).due = {}) : d.boundary P c = d.updCtx c fun x => { x with due := {} } := by
  unfold Dev.boundary
  rw [h]
  rfl

/-- A step of CK_CORE while that clock runs. -/
theorem core_completes (i : Instr) (s : State) (f : Part → Dev → Dev) (h : exec i s = coreStep f s) (hc : s.dev.coreOn = true) :
    Completes i s (f s.part s.dev) := by
  unfold Completes
  rw [h]
  unfold coreStep act Dev.when
  dsimp only
  rw [hc]
  rfl

/-- A step of a domain that runs from the boot on. -/
theorem up_completes (i : Instr) (s : State) (f : Part → Dev → Dev) (h : exec i s = upStep f s) (hc : s.dev.up = true) :
    Completes i s (f s.part s.dev) := by
  unfold Completes
  rw [h]
  unfold upStep act Dev.when
  dsimp only
  rw [hc]
  rfl

/-- A step of CK_AON or of the clock monitor outside reset. -/
theorem aon_completes (i : Instr) (s : State) (f : Part → Dev → Dev) (h : exec i s = aonStep f s) (hc : s.dev.phase ≠ .inReset) :
    Completes i s (f s.part s.dev) := by
  unfold Completes
  rw [h]
  unfold aonStep act Dev.when
  have : (s.dev.phase != .inReset) = true := by simpa using hc
  dsimp only
  rw [this]
  rfl

/-- A context that may issue holds no issued instruction. -/
theorem mayIssue_held {P : Part} {d : Dev} {c : CtxId} (h : d.mayIssue P c = true) : (d.ctx[c]).held = none := by
  unfold Dev.mayIssue Dev.issuable at h
  simp only [Bool.and_eq_true, Bool.not_eq_true', Option.isNone_iff_eq_none] at h
  tauto

/-- An instruction that issues and has to wait for the access it makes comes to its body when the access can go ahead. -/
theorem issueFor_of (s : State) (c : CtxId) (w : Word) (a : Option (Bool × Word)) (r : Bool) (b : Dev → Dev) (h : s.issues c) (hr : r = true) :
    s.dev.issueFor s.part c w a r b = b (s.issued c) := by
  have hh : (s.dev.ctx[c]).held = none := mayIssue_held h.1
  obtain ⟨h1, h2⟩ := h
  unfold Dev.issueFor State.issued
  rw [hh, h1, h2, hr]
  rfl

/-- An instruction that issues comes to its body on the device after the fetch. -/
theorem issue_of (s : State) (c : CtxId) (b : Dev → Dev) (h : s.issues c) : s.dev.issue s.part c b = b (s.issued c) :=
  issueFor_of s c 0 none true b h rfl

/-- An instruction that issues and whose drain has ended comes to its body. -/
theorem issueWhen_of (s : State) (c : CtxId) (w : Word) (r : Bool) (b : Dev → Dev) (h : s.issues c) (hr : r = true) :
    s.dev.issueWhen s.part c w r b = b (s.issued c) := issueFor_of s c w none r b h hr

/-- While an instruction of a context is held, the command of another changes nothing (03 R87, 04 R101, R400). -/
theorem issueFor_held (P : Part) (d : Dev) (c : CtxId) (w v : Word) (a : Option (Bool × Word)) (r : Bool) (b : Dev → Dev)
    (h : (d.ctx[c]).held = some w) (hv : w ≠ v) : d.issueFor P c v a r b = d := by
  unfold Dev.issueFor
  rw [h]
  simp [hv]

/-- A context's registers and flags after the fetch are as before. -/
@[simp] theorem issued_ctx (s : State) (c : CtxId) :
    (s.issued c).ctx = upd s.dev.ctx c fun x =>
      { x with lastIssue := s.dev.cycle, issuableSince := s.dev.cycle, urgent := x.urgent - 1, firstDue := false, fetched := false } := by
  unfold State.issued Dev.issued
  simp

/-- A register reads the same after the fetch. -/
theorem issued_rd (s : State) (c : CtxId) (r : Reg) : ((s.issued c).ctx[c]).rd r = (s.dev.ctx[c]).rd r := by
  simp [Ctx.rd]

/-- Fields of the device that an issue leaves. -/
@[simp] theorem issued_fields' (s : State) (c : CtxId) :
    (s.issued c).phase = s.dev.phase ∧ (s.issued c).stb = s.dev.stb ∧ (s.issued c).cycle = s.dev.cycle ∧ (s.issued c).free = s.dev.free ∧
    (s.issued c).out = s.dev.out ∧ (s.issued c).pins = s.dev.pins ∧ (s.issued c).mem = s.dev.mem ∧ (s.issued c).reqs = s.dev.reqs ∧
    (s.issued c).regs = s.dev.regs ∧ (s.issued c).latch = s.dev.latch ∧ (s.issued c).rdata = s.dev.rdata ∧
    (s.issued c).mfrozen = s.dev.mfrozen ∧ (s.issued c).sys = s.dev.sys ∧ (s.issued c).hng = s.dev.hng ∧ (s.issued c).mot = s.dev.mot ∧
    (s.issued c).led = s.dev.led ∧ (s.issued c).pldup = s.dev.pldup ∧ (s.issued c).widthErr = s.dev.widthErr ∧
    (s.issued c).port = s.dev.port ∧ (s.issued c).acq = s.dev.acq ∧ (s.issued c).pix = s.dev.pix ∧ (s.issued c).ls = s.dev.ls ∧
    (s.issued c).dma = s.dev.dma ∧ (s.issued c).kl = s.dev.kl ∧ (s.issued c).hk = s.dev.hk ∧ (s.issued c).wdt = s.dev.wdt ∧
    (s.issued c).cas = s.dev.cas ∧ (s.issued c).pwr = s.dev.pwr ∧ (s.issued c).spi = s.dev.spi ∧ (s.issued c).tap = s.dev.tap ∧
    (s.issued c).fifo = s.dev.fifo ∧
    (s.issued c).spiReq = s.dev.spiReq ∧ (s.issued c).dbgReq = s.dev.dbgReq ∧ (s.issued c).bsr = s.dev.bsr ∧
    (s.issued c).preload = s.dev.preload ∧ (s.issued c).late = s.dev.late := by
  unfold State.issued Dev.issued
  simp

/-- The access checks find after the fetch what they found before it. -/
theorem issued_accessCause (s : State) (c : CtxId) (a n : Nat) (w : Bool) :
    (s.issued c).accessCause s.part c a n w = s.dev.accessCause s.part c a n w := by
  simp [Dev.accessCause, Ctx.may, Ctx.grants, Dev.ownsSvc]

/-- So do the checks of an atomic access. -/
theorem issued_atomicCause (s : State) (c : CtxId) (a : Nat) : (s.issued c).atomicCause s.part c a = s.dev.atomicCause s.part c a := by
  simp [Dev.atomicCause, Ctx.may, Ctx.grants]

/-- An MMIO address is in the MMIO region. -/
theorem mmio_region (P : Part) (o : Nat) (h : o < 0x100000) : regionOf P (0x8000000 + o) = .mmio := by
  have : P.lsBytes ≤ 0x300000 := by
    unfold Part.lsBytes Part.caps
    cases P.variant <;> decide
  unfold regionOf
  repeat' split
  all_goals first | rfl | omega

/-- A master that reaches the port makes its access (01 R17). -/
theorem busFree_of (s : State) (m : Master) (hc : s.dev.coreOn = true) (h : s.portFree m) : s.dev.busFree s.part m = true := by
  obtain ⟨h1, h2, h3, h4⟩ := h
  unfold Dev.busFree
  rw [hc, h1, h2, h3]
  by_cases e : m = .mgmt
  · simp [h4 e]
  · simp [e]

/-- An accepted write takes up its crossing and comes to the register's own rule (01 R25). -/
theorem write_completes (i : Instr) (s : State) (m : Master) (o : Nat) (v : Word) (h : exec i s = regWrite m o v s) (hw : s.mayWrite m o) :
    Completes i s (s.dev.accept s.part m (s.storeAt m).1 (s.storeAt m).2 o v) := by
  obtain ⟨hc, ho, h4, hq, hm⟩ := hw
  have hr := mmio_region s.part o ho
  have hn : (nword (0x8000000 + o)).toNat = 0x8000000 + o := by
    unfold nword
    rw [BitVec.toNat_ofNat]
    omega
  unfold Completes
  rw [h]
  unfold regWrite act Dev.busWrite
  dsimp only
  cases m with
  | ctx c =>
    obtain ⟨h1, h2, h6, h5⟩ := hm
    have hs : s.dev.storeReady s.part c (0x8000000 + o) 4 = true := by
      unfold Dev.storeReady Dev.askedAt
      rw [h2, hr, mayIssue_held h1]
      simp [h6, hq]
    simp only [hc, h1, hs, h5]
    rfl
  | mgmt =>
    obtain ⟨h0, h1, h2⟩ := hm
    have hb := busFree_of s _ hc h0
    have h5 : decodeBad s.part (0x8000000 + o) 4 true = false := by
      unfold decodeBad
      rw [hr]
      simp
      omega
    have h6 : ¬ ((0x8000000 + o) % 4 ≠ 0 ∨ decodeBad s.part (0x8000000 + o) 4 true = true) := by rw [h5]; simp; omega
    have h7 : ¬ (0x8000000 + o - 0x8000000 = svcOff ∧ s.dev.wdt.aRun = true) := by
      rintro ⟨e, f⟩
      rw [h2 (by omega)] at f
      exact absurd f (by simp)
    simp only [hb, Bool.not_true, Bool.false_eq_true, if_false, hq, if_true, Dev.mgmtWrite, hn, h1, if_neg h6, hr, if_neg h7]
    simp [State.storeAt]
  | debug =>
    obtain ⟨h1, h2, h3⟩ := hm
    have hb := busFree_of s _ hc h1
    have h7 : ¬ (o = svcOff ∧ s.dev.wdt.aRun = true) := fun ⟨e, f⟩ => by rw [h3 e] at f; exact absurd f (by simp)
    simp [hb, h2, h4, hq, State.storeAt, Dev.debugWrite, if_neg h7]
  | mirrorIn =>
    obtain ⟨h1, h2⟩ := hm
    have hb := busFree_of s _ hc h1
    simp [hb, h2, h4, State.storeAt]
  | dma n => exact hm.elim
  | linkIn => exact hm.elim
  | cascIn => exact hm.elim
  | corr => exact hm.elim
  | writer => exact hm.elim

/-- An accepted read keeps the register's value and what the read latches or changes. -/
theorem read_completes (i : Instr) (s : State) (m : Master) (o : Nat) (h : exec i s = regRead m o s) (hw : s.mayRead m o) :
    Completes i s { (s.dev.mmioRead s.part m o).2 with rdata := (s.dev.mmioRead s.part m o).1 } := by
  obtain ⟨hc, ho, h4, hm⟩ := hw
  have hr := mmio_region s.part o ho
  have hn : (nword (0x8000000 + o)).toNat = 0x8000000 + o := by
    unfold nword
    rw [BitVec.toNat_ofNat]
    omega
  unfold Completes
  rw [h]
  unfold regRead act Dev.busReadKept Dev.busRead
  dsimp only
  cases m with
  | ctx c =>
    obtain ⟨h1, h2, h6, h5⟩ := hm
    have hs : s.dev.loadReady s.part c (0x8000000 + o) 4 = true := by
      unfold Dev.loadReady Dev.askedAt
      dsimp only
      rw [h2, hr, mayIssue_held h1]
      simp [h6]
    simp only [hc, h1, hs, h5]
    rfl
  | mgmt =>
    have hb := busFree_of s _ hc hm
    have h5 : decodeBad s.part (0x8000000 + o) 4 false = false := by
      unfold decodeBad
      rw [hr]
      simp
      omega
    have h6 : ¬ ((0x8000000 + o) % 4 ≠ 0 ∨ decodeBad s.part (0x8000000 + o) 4 false = true) := by rw [h5]; simp; omega
    simp only [hb, Bool.not_true, Bool.false_eq_true, if_false]
    unfold Dev.mgmtRead
    dsimp only
    rw [hn, if_neg h6, if_pos hr, Nat.add_sub_cancel_left]
    rfl
  | debug =>
    obtain ⟨h1, h2⟩ := hm
    have hb := busFree_of s _ hc h1
    simp [hb, h2]
  | mirrorIn =>
    obtain ⟨h1, h2⟩ := hm
    have hb := busFree_of s _ hc h1
    simp [hb, h2]
  | dma n => exact hm.elim
  | linkIn => exact hm.elim
  | cascIn => exact hm.elim
  | corr => exact hm.elim
  | writer => exact hm.elim

end Sys2Proof.Laws
end

