-- ==== Sys2Proof/Tests/Slice0.lean ====
section
/-!
SUPPORT. Tests: the checks of well-formedness, worked examples of the spec, and states that meet the hypotheses of the statements.
-/
open Sys2Proof Sys2Proof.Machine
namespace Sys2Proof.Tests

-- One thread: the package is compiled as one text, and each waiting thread costs a whole stack.
set_option Elab.async false

/-- A register file whose g0 is 0. -/
def file (f : Nat → Word) : Vector Word 16 := Vector.ofFn fun i => if i.val = 0 then 0 else f i.val

/-- A READY context in S privilege at PD address 0x1000, with gn = 0x2000 + 4 n. -/
def live : Ctx := { run := .ready, priv := true, pc := 0x1000, g := file fun i => BitVec.ofNat 32 (0x2000 + 4 * i) }

/-- The part in RUN with context 3 live, changed. -/
def rig (f : Dev → Dev := id) (P : Part := Part.reset) : State :=
  ⟨[], P, f { phase := .run, ctx := upd (Vector.replicate 64 {}) 3 fun _ => live }⟩

/-- The part in RUN with context 3 changed. -/
def rigC (f : Ctx → Ctx) : State := rig fun d => d.updCtx 3 f

/-- A context with registers set. -/
def regs (l : List (Nat × Word)) (x : Ctx) : Ctx :=
  { x with g := file fun i => match l.find? (fun e => e.1 == i) with
      | some e => e.2
      | none => x.g.toList.getD i 0 }

/-- Registers of the table set. -/
def sets (l : List (Nat × Word)) (d : Dev) : Dev := l.foldl (fun d e => d.setReg e.1 e.2) d

/-- Words of memory set. -/
def pokes (a : Nat) (ws : List Word) (d : Dev) : Dev := { d with mem := memPuts d.mem a (ws.flatMap wordBytes) }

/-- A part of another variant. -/
def partOf (v : Variant) : Part := { Part.reset with variant := v }

/-- A part with one fuse-view word. -/
def fused (k : Nat) (w : Word) : Part := { Part.reset with fuses := Vector.ofFn fun i => if i.val = k then w else 0 }

/-- The Hinge in a state, with a reason. -/
def hinge (st : HState) (r : Reason := .none) (f : Dev → Dev := id) : State := rig fun d => f { d with hng := { d.hng with st := st, reason := r } }

/-- The first FREE slot of a state, 0 with none. -/
def free (s : State) : Fin 256 := s.dev.freeSlot.getD 0

/-- All links with one record. -/
def links (l : Link) (d : Dev) : Dev := { d with kl := { d.kl with links := Vector.replicate 3 l } }

/-- One link with a record, all lanes with another. -/
def linkS (k : LinkId) (l : Link) (la : Lane := {}) (f : Dev → Dev := id) : State :=
  rig fun d => f { d with kl := { d.kl with links := d.kl.links.set k l, lanes := Vector.replicate 4 la, pll := true } }

/-- Books of a link. -/
def bks : Vector VcBook 65 := Vector.replicate 65 { avail := 5, partner := 50, held := 1, own := 60, cumIn := 3, cumOut := 9, cumRep := 7 }

/-- A staged frame. -/
def stg (k : LinkId) (p : List Byte := [1, 2, 3]) : Staged := ⟨k, 3, 1, 0, p, false, 0, none, false, none, none⟩

/-- DMA channel 3 with a record, registers set. -/
def dmaS (c : Chan) (r : List (Nat × Word)) (f : Dev → Dev := id) : State :=
  rig fun d => f (sets r { d with dma := d.dma.set 3 c, ls := { d.ls with geom := ⟨8, 2, 0x800, 0⟩ } })

/-- Words of a descriptor. -/
def v7 (l : List Word) : Vector Word 7 := Vector.ofFn fun i => l.getD i.val 0

/-- An acquisition in progress. -/
def acqS (per pers : Nat) (ps : List PortId) (f : Dev → Dev := id) : State := rig fun d => f { d with
  acq := { ports := ps, done := false, period := per, periods := pers, started := 0, line := 9, slot := some 2 }
  ls := { d.ls with geom := ⟨8, 2, 0x800, 0⟩ }
  port := Vector.replicate 4 { ckLock := true, fifo := [1, 0x4002], lineCnt := 5, sol := 1 }
  cycle := 20000 }

/-- A line store of 8 slots with one slot set. -/
def slotS (k : Fin 256) (x : Slot) (f : Dev → Dev := id) : State :=
  rig fun d => f { d with ls := { d.ls with geom := ⟨8, 2, 0x800, 0⟩, slots := d.ls.slots.set k x } }

/-- The position of the next line reached with 8 FREE slots, the Hinge in a state. -/
def fireS (st : HState) (f : Hinge → Hinge := id) (g : Dev → Dev := id) : State := rig fun d => g { d with
  hng := f { d.hng with st := st, next := 5000, pLast := 5000, lineNo := 7, lLast := 6 }
  mot := d.mot.set 0 { pStart := 5000 * 65536, pMove := 65536, p := 5001 * 65536 }
  ls := { d.ls with geom := ⟨8, 2, 0x800, 0⟩ }, acq := { d.acq with started := 0, done := true } }

/-- A pacing stream. -/
def paced (n : Word) : Stream := { opened := true, pace := true, avail := n }

/-- Two lines of one bright pixel at a pinned and an overlap slot, the correlator running in GUARD. -/
def corrS (mem : List Host.Cell) (f : Hinge → Hinge := id) : State := rig fun d => { sets [(0x31000, 1), (0x50000, 0x80000000), (0x40040, 100)] d with
  hng := f { st := .guard, corr := .running, kp := 1, lLast := 10, grd := 3 }
  ls := { geom := ⟨4, 4, 12288, 0⟩
          slots := (Vector.replicate 256 {} |>.set 0 { st := .pinned, kind := .numbered, line := 7, width := 6144 }).set 1 { st := .full, kind := .overlap, line := 7, width := 6144 } }
  mem := { cells := mem } }

/-- The correlation window moved to the left of all usable pixels. -/
def noWindow (s : State) : State := { s with dev := s.dev.setReg 0x40040 0 }

/-- The memory of those two lines. -/
def twoLines : List Host.Cell := [(0x20004B0, 0xF0), (0x20004B1, 0x3F), (0x20044B0, 0xF0), (0x20044B1, 0x3F)]

/-- An HK conversion of entry 5. -/
def cv : Conv := ⟨5, 0, none, false, false, 0, .settle, false, [], 0⟩

/-- A measurement of an input voltage in nanovolts. -/
def meas (v : Int) (i : Int := 0) : HkMeas := ⟨v, 2500000000, i, i, 0, 0, false, 5, 0⟩

/-- The housekeeping front end changed. -/
def hkS (f : Hk → Hk) (g : Dev → Dev := id) : State := rig fun d => g { d with hk := f d.hk }

/-- The watchdogs changed. -/
def wdtS (f : Wdt → Wdt) (g : Dev → Dev := id) : State := rig fun d => g { d with wdt := f d.wdt }

/-- A chain or pair device with its links ACTIVE. -/
def casS (c : Cas) (f : Dev → Dev := id) : State := rig fun d => f (links { st := .active } { d with cas := c, pins := { chnI := true }, ls := { d.ls with geom := ⟨8, 2, 0x800, 0⟩ } })

/-- A secured line. -/
def lineOut9 : LineOut := ⟨9, 1000, 1001, 7, 0, 0⟩

/-- A checkpoint of 12 words, with its word 1. -/
def cpB (w1 : Word) : List Byte := [5, w1, 77, 0, 1000, 0, 0, 0, 9, 0, 0, 0].flatMap wordBytes

/-- Power changed. -/
def pwrS (p : Pwr → Pwr) (f : Dev → Dev := id) : State := rig fun d => f { d with pwr := p d.pwr }

/-- The conversion of entry 5 changed. -/
def cv1 : Conv := { cv with urgent := some 0 }

/-- The conversion of entry 5 changed. -/
def cv2 : Conv := { cv with stage := .integrate, cfg := 0x2000 }

/-- The conversion of entry 5 changed. -/
def cv3 : Conv := { cv with stage := .integrate }

/-- The conversion of entry 5 changed. -/
def cv4 : Conv := { cv with stage := .comp, cfg := 0x101000, icode := 3, meas := [meas 100000000 50000] }

/-- The conversion of entry 5 changed. -/
def cv5 : Conv := { cv with stage := .comp, meas := [meas 2499999701] }

/-- The conversion of entry 5 changed. -/
def cv6 : Conv := { cv with stage := .comp, meas := [meas 2500000000] }

/-- The conversion of entry 5 changed. -/
def cv7 : Conv := { cv with stage := .comp, meas := [meas (-2500000000)] }

/-- The conversion of entry 5 changed. -/
def cv8 : Conv := { cv with stage := .comp, urgent := some 1, refFault := true }

/-- The part in STANDBY. -/
def inStandby : Dev := { (rig : State).dev with phase := .standby }

/-- The part with a full fault ring. -/
def fullRing : Dev := { (rig : State).dev with sys := { frPend := 64, frW := 63, frR := 63 } }

/-- A received frame. -/
def frame1 : RxFrame := ⟨64,0,0,0,0,[],3,0,false⟩

/-- A received frame. -/
def frame2 : RxFrame := ⟨64,0x00100240,0,0,0,[0x00080005, 0x77, 3, 9].flatMap wordBytes,5,crc32 ([0x00100240,0,0,0,0x00080005, 0x77, 3, 9].flatMap wordBytes ++ [0,0,0,0]),false⟩

/-- The part in a cycle in which SYS_FR_RIDX has been written. -/
def ringMoved : Dev := { (rig : State).dev with sys := { frW := 5, frR := 5, ridxAt := some 0, ridxWas := (0, 5) } }

/-- A context in WAITING. -/
def asleep (x : Ctx) : Ctx := { x with run := .waiting }

/-- DMA channel 3 with a record and no context that asks for memory. -/
def dmaA (c : Chan) (r : List (Nat × Word)) (f : Dev → Dev := id) : State := dmaS c r fun d => f (d.updCtx 3 asleep)

/-- A SUP image in NVM, of 16 bytes of program with load address and entries 0x1000, its key and its signature. -/
def supDev : Dev := { (rig : State).dev with
  phase := .verify
  mem := memPuts {} 0x4000000 (([0x4B4A5531, 1, 16, 7, 0, 0xFFFFFFFF, 0xFFFF0000, 0x1000, 0x1000, 0x1000, 0, 0, 0, 0, 0, 0] ++
    [0x18918581, 0xF2CD25D9, 0xFBFD96CF, 0x5695DF1B, 0x7E6FB4C9, 0x9915E099, 0x523A8AC5, 0xC1684450] ++
    [0xE6170AFE, 0x527121BA, 0x1910FDC8, 0x3BDEAFB3, 0x568C34A6, 0x2402AB77, 0xF0999390, 0xA45AD37A] ++
    [0xDD719D55, 0x67AC1080, 0x749924B7, 0xF2B84F72, 0x45EF2AF0, 0x46CB8465, 0xFD4250D1, 0x814DC479] ++
    [0x8A4366BE, 0xA8F80D9F, 0x802E0B5A, 0xB48B30ED, 0xA1462F02, 0xE18CC596, 0xA54EB33F, 0xF401F83] ++ [0, 0, 0, 0]).flatMap wordBytes) }

/-- A part whose key-hash fuses hold the digest of that image's key. -/
def supPart : Part := { Part.reset with fuses := Vector.ofFn fun i =>
  ([0xEB76B81A, 0xF3D95595, 0x4EBCA3AC, 0x6E83D73B, 0xDF6680ED, 0xB03D1788, 0x821FFD8D, 0xDFA39F17] : List Word).getD i.val 0 }

/-! ### Checks of well-formedness, each with a term it refuses -/

theorem test_wf_accepts : wellFormed (.add 3 1 2 3 4) = true := by decide
theorem test_wf_legal_opcode : illFormed (.illegalOp 3 0x38CBFFF8) = some .legalOpcode := by decide
theorem test_wf_register_twice : illFormed (.ts 3 4 4) = some .registerTwice := by decide
theorem test_wf_frame_blocks : illFormed (.frameReceive 0 ⟨64, 0, 0, 0, 0, [1, 2, 3, 4, 5, 6, 7, 8, 9], 1, 0, false⟩) = some .frameBlocks := by decide
theorem test_wf_message_length : illFormed (.mwrite 0 0 (List.replicate 1015 0)) = some .messageLength := by decide +kernel
theorem test_wf_cap_words : illFormed (.capSequenceReceive 0 (List.replicate 40 0) 0 0) = some .capWords := by decide
theorem test_wf_slot_data : illFormed (.slotwrite 1 0 0 (List.replicate 4049 0)) = some .slotData := by decide +kernel
theorem test_wf_checkpoint_length : illFormed (.checkpointReceive (List.replicate 8193 0)) = some .checkpointLength := by decide +kernel
theorem test_wf_slept_width : illFormed (.stbReload (2 ^ 32)) = some .sleptWidth := by decide
theorem test_wf_not_mmio : illFormed (.mmioWrite .mgmt 0x8100000 0) = some .notMmio := by decide
theorem test_wf_known_command : illFormed (.spiUnknownCommand 2 [] 0) = some .knownCommand := by decide

/-! ### Worked examples of the spec -/

/-- The device after a command. -/
def after (i : Instr) (s : State) : Dev :=
  match exec i s with
  | .next t => t.dev
  | _ => s.dev

/-- 00 R2: SYS_CAPS of the three variants. -/
theorem test_caps : (Part.reset.caps, (partOf .yk4840).caps, (partOf .yk4820).caps) = (0x8106A87C, 0x8106941A, 0x40835001) := by decide

/-- 04, worked example: ADDI g3, g2, -8; WAIT g4, g5; BNE.F three words back; and the word with gb = 1. -/
theorem test_words : fmtI 0x0E 3 2 0x3FFF8 = 0x38CBFFF8 ∧ fmtA 0x28 0 4 5 0 = 0xA0114000 ∧ fmtA 0x21 1 0 0 0x3FFD = 0x84403FFD ∧
    legalWord 0x38CBFFF8 = true ∧ legalWord 0xA0114000 = true ∧ legalWord 0x84403FFD = true ∧ legalWord 0x84407FFD = false := by decide

/-- 04 R98: a sum past the most positive number sets N and V, and a borrow sets C. -/
theorem test_flags :
    let s := rigC (regs [(5, 0x7FFFFFFF)])
    let x := (after (.add 3 1 5 0 1) s).ctx[(3 : CtxId)]
    let y := (after (.sub 3 1 0 0 1) s).ctx[(3 : CtxId)]
    (x.g[1], x.z, x.n, x.c, x.v) = (0x80000000, false, true, false, true) ∧ (y.g[1], y.z, y.n, y.c, y.v) = (0xFFFFFFFF, false, true, true, false) := by decide

/-- 04 R98: the last bit shifted out is C, and a shift by 0 leaves C at 0. -/
theorem test_shift_carry :
    let s := rigC (regs [(5, 0x80000001)])
    ((after (.shl 3 1 5 0 1) s).ctx[(3 : CtxId)]).c = true ∧ ((after (.shr 3 1 5 0 1) s).ctx[(3 : CtxId)]).c = true ∧
      ((after (.sra 3 1 5 0 1) s).ctx[(3 : CtxId)]).g[1] = 0xC0000000 ∧ ((after (.shl 3 1 5 0 0) s).ctx[(3 : CtxId)]).c = false := by decide

/-- Context 9 of the worked example of 03, about to execute STW g4, 0(g3). -/
def stray : State := rig fun d => { d with
  stb := 0x4000010
  sys := { d.sys with frW := 5, frR := 5, frSeq := 0x17 }
  ctx := upd (Vector.replicate 64 {}) 9 fun _ => {
    run := .ready
    pc := 0x1A30
    g := file fun i => if i = 3 then 0x24000 else 7
    win := #v[⟨4, 0x1FC0⟩, ⟨0x20003, 0x23FC0⟩, {}, {}] } }

/-- 03, worked example: the fault record of the store, its freeze and event 51; 16, worked example: the word of the store. -/
theorem test_fault_record :
    let t := after (.stw 9 4 3 0) stray
    (List.range 8).map (fun i => t.word (0x30000A0 + 4 * i)) = [0x00010309, 0x1A30, 0x24000, 6, 0x4D0C0000, 0x04000010, 0, 0xFFE80017] ∧
      (t.ctx[(9 : CtxId)]).frozen = true ∧ (t.ctx[(9 : CtxId)]).pc = 0x1A30 ∧ t.sys.frW = 6 ∧ t.sys.frSeq = 0x18 ∧ t.sys.frPend = 1 ∧
      (t.ev.src[(51 : Fin 64)]).pend.map (fun p => p.detail) = [0x00170309] := by decide +kernel

/-- 16, worked example: the record read over VC 64. -/
theorem test_mread :
    (after (.mread 0 0x1234 [0x800, 0x30000A0]) ⟨[], Part.reset, after (.stw 9 4 3 0) stray⟩).kl.staged.map (fun f => wordsOfBytes f.payload) =
      [[0x00280003, 0x1234, 0x00080000, 0, 0x00010309, 0x1A30, 0x24000, 6, 0x4D0C0000, 0x04000010, 0, 0xFFE80017]] := by decide +kernel

/-- 05, worked example: the record that reaches context 7 after three were lost carries MISSED and LOST = 3. -/
theorem test_lost_flags :
    let s := rig fun d => { d.setReg 0x21000 0x80 with ev := { d.ev with
      lost := [(7, 3)], src := d.ev.src.set 0 { seq := 0x124, pend := [⟨0x123, 0, 0, 0, [], 0⟩] } } }
    ((after .eventRecordIssue s).ctx[(7 : CtxId)]).queue.map (fun r => (r.seq, r.flags)) = [(0x123, 0x301)] := by decide +kernel

/-- 01, worked example: STB after a standby of 32,800 edges. -/
theorem test_stb_reload : (after (.stbReload 32800) (pwrS (fun p => { p with sEntry := 439052000 }) fun d => { d with phase := .reloading })).stb = 839442625 := by
  decide +kernel

/-- 02, worked example: at C = 40 with RRATE 4,000 the target speed is 387 pu/us. -/
theorem test_target_speed :
    let s := hinge .run .none fun d => sets [(0x5002C, 512), (0x50024, 0x400010), (0x50028, 8)] { d with hng :=
      { d.hng with st := .run, streams := d.hng.streams.set 3 { paced 40 with rrate := 4000 } } }
    s.dev.paceSpeed = 387 := by decide +kernel

/-- 02, worked example: a fire that takes C to 0 stops at the end of its cycle and latches L_last and P_last and commits the last line. -/
theorem test_credit_stop :
    let s := fireS .run (fun h => { h with next := 92471296, lineNo := 1411, streams := h.streams.set 3 { paced 1 with granted := 1412, delivered := 1409 } })
      fun d => { d.setReg 0x50000 1 with mot := d.mot.set 0 { pStart := 92471296 * 65536, pMove := 65536, p := 92471297 * 65536 } }
    let t := ((after .lineFire s).tick s.part).hng
    (t.st, t.reason, t.lLast, t.pLast, t.streams[3].avail) = (.freezing, .credit, 1411, 92471296, 0) := by decide +kernel

/-- 06, worked example: GCODE moves from 512 to 517. -/
theorem test_led_loop :
    ((after (.ledPulseEnd 0) (rig fun d => { sets [(0x30100, 0x27104), (0x30108, 16000)] d with
      cycle := 16000
      led := d.led.set 0 { gcode := 512, on := true, sampled := some 603 } })).led[(0 : Fin 4)]).gcode = 517 := by decide +kernel

/-- 07, worked example: the filter's update. -/
theorem test_filter :
    let d := ((rigC id).dev.setReg 0x40000 0xA).updPix fun x => { x with filt := 120320, reload := false, tvalid := true }
    ((d.tempUpdate 482).pix.filt, (d.tempUpdate 482).pix.temp) = (121088, 473) := by decide +kernel

/-- 07, worked example: the pixel of code 9,850 at 47.3 degrees. -/
theorem test_pixel :
    let d := pokes 0x1122EE0 [0x447B08C0] (pokes 0x10A2EE0 [0x43330708] (rigC id).dev)
    let d := { d.setReg 0x40110 0x3 with acq := { d.acq with shT := 473, shI := 1, shW := 124 } }
    d.coef 1 3000 = (2013, 17361) ∧ darkGain 9850 2013 17361 = 41216 := by decide +kernel

/-- 08, worked example: D_acc and the effective maximum speed. -/
theorem test_dacc :
    let d := sets [(0x60000, 0x11), (0x6000C, 1024), (0x60010, 16384), (0x60014, 4096)] (rigC id).dev
    d.daccOf 0 512 = 786432 ∧ d.vmaxEff 0 = 1024 * 65536 ∧ d.ustep 0 = 4096 * 65536 := by decide +kernel

/-- 09, worked example: the slot geometry of 10,200 pixels in four planes. -/
theorem test_geometry : geomOf 3145728 10200 4 false 256 = ⟨38, 20, 20416, 0⟩ := by decide +kernel

/-- 10, worked example: units and padding of a full and of the last frame. -/
theorem test_frame_units : (frameUnits 4064, framePad 4064, frameUnits 2378, framePad 2378) = (16, 4, 10, 2) := by decide

/-- 11, worked example: the code of phase A. -/
theorem test_hk_code : convCode 0x1051A143 [meas 119543642] = 6417950 := by decide +kernel

/-- 12, worked example: slot 3 is missed. -/
theorem test_missed_slot :
    let s := wdtS (fun w => { w with bRun := true, bSeen := 4 }) (sets [(0xB0128, 0xC5), (0xB012C, 0xC9)])
    (after .wdtbPeriodEnd s).wdt.bMissed = 8 := by decide +kernel

/-- FIPS 180-4, the digest of the three bytes "abc" (14 R333 names SHA-256). -/
theorem test_sha256 :
    sha256 [0x61, 0x62, 0x63] = [0xBA7816BF, 0x8F01CFEA, 0x414140DE, 0x5DAE2223, 0xB00361A3, 0x96177A9C, 0xB410FF61, 0xF20015AD] := by
  decide +kernel

/-! ### Hypotheses of the statements, each met by a small state -/

theorem test_FrontCommandRuns_met :
  (let s : State := { rig with pending := [.add 3 1 2 3 4, .halt 3] }
   s.pending = [Instr.add 3 1 2 3 4, Instr.halt 3]) ∧
  (let s : State := rig
   s.pending = [] ∧ s.dev.spiReq = [] ∧ s.dev.dbgReq = [] ∧ (∀ (k : Fin 9), s.dev.crossRoom k = true) ∧ (∀ (n : DmaId), s.dev.dma[n].burst = 0) ∧
   s.dev.late = [] ∧ s.dev.pwr.suspDue = false ∧ s.dev.coreOn = true) ∧
  (let s : State := State.reset
   s.pending = [] ∧ s.dev.coreOn = false) := by
  refine ⟨?_, ?_, ?_⟩ <;> decide +kernel

theorem test_AluResultsAndFrame_met :
  let s : State := rigC (regs [(5, 0x80000001), (6, 0xFFFFFFF9)])
  s.issues 3 := by
  dsimp only [State.issues]; decide +kernel

theorem test_LoadsIssueAndReturn_met :
  (let s : State := rigC (regs [(5, 0xFFFFC)])
   s.issues 3 ∧ Dev.accessCause s.part s.dev 3 (BitVec.toNat (s.dev.ctx[3].rd 5 + BitVec.signExtend 32 0#18)) 4 false = none ∧
   regionOf s.part (BitVec.toNat (s.dev.ctx[3].rd 5 + BitVec.signExtend 32 0#18)) ≠ Region.mmio ∧
   s.dev.ctx[3].hit (BitVec.toNat (s.dev.ctx[3].rd 5 + BitVec.signExtend 32 0#18)) 4 = none ∧
   Dev.accessCause s.part s.dev 3 (BitVec.toNat (s.dev.ctx[3].rd 5 + BitVec.signExtend 32 0#18)) 2 false = none ∧
   s.dev.ctx[3].hit (BitVec.toNat (s.dev.ctx[3].rd 5 + BitVec.signExtend 32 0#18)) 2 = none ∧
   Dev.accessCause s.part s.dev 3 (BitVec.toNat (s.dev.ctx[3].rd 5 + BitVec.signExtend 32 0#18)) 1 false = none ∧
   s.dev.ctx[3].hit (BitVec.toNat (s.dev.ctx[3].rd 5 + BitVec.signExtend 32 0#18)) 1 = none) ∧
  (let s : State := rigC fun x => { x with sbuf := [⟨0x2014, 4, 0xAABBCCDD⟩, ⟨0x2020, 2, 0x1234⟩, ⟨0x2030, 1, 0x55⟩], sbAt := 1 }
   s.issues 3 ∧ Dev.accessCause s.part s.dev 3 (BitVec.toNat (s.dev.ctx[3].rd 5 + BitVec.signExtend 32 0#18)) 4 false = none ∧
   regionOf s.part (BitVec.toNat (s.dev.ctx[3].rd 5 + BitVec.signExtend 32 0#18)) ≠ Region.mmio ∧
   s.dev.ctx[3].hit (BitVec.toNat (s.dev.ctx[3].rd 5 + BitVec.signExtend 32 0#18)) 4 = some { addr := 8212, size := 4, data := 2864434397 : SbEntry } ∧
   { addr := 8212, size := 4, data := 2864434397 : SbEntry }.addr = s.dev.ctx[3].rd 5 + BitVec.signExtend 32 0#18 ∧
   { addr := 8212, size := 4, data := 2864434397 : SbEntry }.size = 4) ∧
  (let s : State := rigC fun x => { x with sbuf := [⟨0x2020, 2, 0x1234⟩], sbAt := 1 }
   s.issues 3 ∧ Dev.accessCause s.part s.dev 3 (BitVec.toNat (s.dev.ctx[3].rd 8 + BitVec.signExtend 32 0#18)) 2 false = none ∧
   regionOf s.part (BitVec.toNat (s.dev.ctx[3].rd 8 + BitVec.signExtend 32 0#18)) ≠ Region.mmio ∧
   s.dev.ctx[3].hit (BitVec.toNat (s.dev.ctx[3].rd 8 + BitVec.signExtend 32 0#18)) 2 = some { addr := 8224, size := 2, data := 4660 : SbEntry } ∧
   { addr := 8224, size := 2, data := 4660 : SbEntry }.addr = s.dev.ctx[3].rd 8 + BitVec.signExtend 32 0#18 ∧
   { addr := 8224, size := 2, data := 4660 : SbEntry }.size = 2) ∧
  (let s : State := rigC fun x => { x with sbuf := [⟨0x2030, 1, 0x55⟩], sbAt := 1 }
   s.issues 3 ∧ Dev.accessCause s.part s.dev 3 (BitVec.toNat (s.dev.ctx[3].rd 12 + BitVec.signExtend 32 0#18)) 1 false = none ∧
   regionOf s.part (BitVec.toNat (s.dev.ctx[3].rd 12 + BitVec.signExtend 32 0#18)) ≠ Region.mmio ∧
   s.dev.ctx[3].hit (BitVec.toNat (s.dev.ctx[3].rd 12 + BitVec.signExtend 32 0#18)) 1 = some { addr := 8240, size := 1, data := 85 : SbEntry } ∧
   { addr := 8240, size := 1, data := 85 : SbEntry }.addr = s.dev.ctx[3].rd 12 + BitVec.signExtend 32 0#18 ∧
   { addr := 8240, size := 1, data := 85 : SbEntry }.size = 1) ∧
  (let s : State := rigC (regs [(5, 0x80FFFFC)])
   s.issues 3 ∧ Dev.accessCause s.part s.dev 3 (BitVec.toNat (s.dev.ctx[3].rd 5 + BitVec.signExtend 32 0#18)) 4 false = none ∧
   regionOf s.part (BitVec.toNat (s.dev.ctx[3].rd 5 + BitVec.signExtend 32 0#18)) = Region.mmio ∧ s.dev.ctx[3].sbuf = [] ∧
   Dev.grantable s.part s.dev Port.mmio s.dev.cycle (Master.ctx 3) = true) ∧
  (let s : State := rig fun d => { (d.updCtx 3 fun x => { x with load := some ⟨0x407FFFC, 4, 4, 0, none⟩ }) with reqs := [⟨.nvm, .ctx 3, 0⟩] }
   s.dev.coreOn = true ∧ (Port.nvm = Port.nvm → s.dev.pwr.nvmOp = none) ∧ (∀ (n : DmaId), s.dev.dma[n].burst = 0) ∧
   oldestReq (Dev.waiting s.part s.dev Port.nvm) = some (Master.ctx 3, ReqKind.load) ∧
   s.dev.ctx[3].load = some { addr := 67633148, size := 4, gd := 4, insn := 0, data := none : Load } ∧
   Dev.eccBad s.part s.dev (BitVec.toNat { addr := 67633148, size := 4, gd := 4, insn := 0, data := none : Load }.addr) { addr := 67633148, size := 4, gd := 4, insn := 0, data := none : Load }.size = false ∧
   regionOf s.part (BitVec.toNat { addr := 67633148, size := 4, gd := 4, insn := 0, data := none : Load }.addr) ≠ Region.lsAbsent) ∧
  (let s : State := rigC fun x => { x with load := some ⟨0x2000, 4, 0, 0, some 7⟩ }
   s.dev.coreOn = true ∧ s.dev.ctx[3].load = some { addr := 8192, size := 4, gd := 0, insn := 0, data := some 7 : Load } ∧
   { addr := 8192, size := 4, gd := 0, insn := 0, data := some 7 : Load }.data = some 7#32 ∧ s.dev.ctx[3].due = { : Boundary }) := by
  refine ⟨?_, ?_, ?_, ?_, ?_, ?_, ?_⟩ <;> ((try dsimp only [State.issues]); decide +kernel)

theorem test_StoresIssueAndDrain_met :
  (let s : State := rigC (regs [(5, 0xFFFFC)])
   s.issues 3 ∧ Dev.accessCause s.part s.dev 3 (BitVec.toNat (s.dev.ctx[3].rd 5 + BitVec.signExtend 32 0#18)) 4 true = none ∧
   regionOf s.part (BitVec.toNat (s.dev.ctx[3].rd 5 + BitVec.signExtend 32 0#18)) ≠ Region.mmio ∧
   Dev.accessCause s.part s.dev 3 (BitVec.toNat (s.dev.ctx[3].rd 5 + BitVec.signExtend 32 0#18)) 2 true = none ∧
   Dev.accessCause s.part s.dev 3 (BitVec.toNat (s.dev.ctx[3].rd 5 + BitVec.signExtend 32 0#18)) 1 true = none) ∧
  (let s : State := rigC (regs [(5, 0x8000000)])
   s.issues 3 ∧ Dev.accessCause s.part s.dev 3 (BitVec.toNat (s.dev.ctx[3].rd 5 + BitVec.signExtend 32 36#18)) 4 true = none ∧
   regionOf s.part (BitVec.toNat (s.dev.ctx[3].rd 5 + BitVec.signExtend 32 36#18)) = Region.mmio ∧ s.dev.ctx[3].sbuf = [] ∧
   Dev.writeRoom s.part s.dev (BitVec.toNat (s.dev.ctx[3].rd 5 + BitVec.signExtend 32 36#18) - 134217728) = true ∧
   Dev.grantable s.part s.dev Port.mmio s.dev.cycle (Master.ctx 3) = true) ∧
  (let s : State := rigC fun x => { x with sbuf := [⟨0x22FFFFC, 4, 0xAABBCCDD⟩, ⟨0x2020, 2, 0x1234⟩] }
   s.dev.coreOn = true ∧
   s.dev.ctx[3].sbuf = [{ addr := 36700156, size := 4, data := 2864434397 : SbEntry }, { addr := 8224, size := 2, data := 4660 : SbEntry }] ∧
   s.dev.ctx[3].resetting = false ∧ { addr := 36700156, size := 4, data := 2864434397 : SbEntry }.size ≤ 4 ∧
   regionOf s.part (BitVec.toNat { addr := 36700156, size := 4, data := 2864434397 : SbEntry }.addr) ≠ Region.lsAbsent ∧
   regionOf s.part (BitVec.toNat { addr := 36700156, size := 4, data := 2864434397 : SbEntry }.addr + { addr := 36700156, size := 4, data := 2864434397 : SbEntry }.size - 1) ≠ Region.lsAbsent ∧
   oldestReq (Dev.waiting s.part s.dev (portOf (regionOf s.part (BitVec.toNat { addr := 36700156, size := 4, data := 2864434397 : SbEntry }.addr)))) = some (Master.ctx 3, ReqKind.store) ∧
   s.dev.pwr.gated[sequencerOf 3] = false) := by
  refine ⟨?_, ?_, ?_⟩ <;> ((try dsimp only [State.issues]); decide +kernel)

theorem test_AtomicAccesses_met :
  let s : State := rigC (regs [(5, 0x22FFFFC)])
  s.issues 3 ∧ s.dev.ctx[3].sbuf = [] ∧ Dev.atomicCause s.part s.dev 3 (BitVec.toNat (s.dev.ctx[3].rd 5 + BitVec.signExtend 32 0#14)) = none ∧
  Dev.eccBad s.part s.dev (BitVec.toNat (s.dev.ctx[3].rd 5 + BitVec.signExtend 32 0#14)) 4 = false ∧
  regionOf s.part (BitVec.toNat (s.dev.ctx[3].rd 5 + BitVec.signExtend 32 0#14)) ≠ Region.lsAbsent ∧
  Dev.grantable s.part s.dev (portOf (regionOf s.part (BitVec.toNat (s.dev.ctx[3].rd 5 + BitVec.signExtend 32 0#14)))) s.dev.cycle (Master.ctx 3) = true := by
  dsimp only [State.issues]; decide +kernel

theorem test_ViolationsFreezeWithRecord_met :
  (let s : State := rig
   s.issues 3 ∧ Dev.accessCause s.part s.dev 3 (BitVec.toNat (s.dev.ctx[3].rd 5 + BitVec.signExtend 32 1#18)) 4 false = some 2 ∧
   Dev.accessCause s.part s.dev 3 (BitVec.toNat (s.dev.ctx[3].rd 5 + BitVec.signExtend 32 1#18)) 2 false = some 2 ∧
   Dev.accessCause s.part s.dev 3 (BitVec.toNat (s.dev.ctx[3].rd 5 + BitVec.signExtend 32 1#18)) 4 true = some 2 ∧
   Dev.accessCause s.part s.dev 3 (BitVec.toNat (s.dev.ctx[3].rd 5 + BitVec.signExtend 32 1#18)) 2 true = some 2 ∧
   Dev.atomicCause s.part s.dev 3 (BitVec.toNat (s.dev.ctx[3].rd 5 + BitVec.signExtend 32 2#14)) = some 2 ∧ 2 < 256 ∧
   (∀ r ∈ rig.dev.recordsNow, r.1 ≤ ↑3) ∧ rig.dev.traced 3 = false ∧ rig.dev.sys.ridxAt ≠ some rig.dev.cycle) ∧
  (let s : State := rigC fun x => { x with priv := false, win := Vector.replicate 4 ⟨4, 0x1FFF⟩ }
   s.issues 3 ∧ Dev.accessCause s.part s.dev 3 (BitVec.toNat (s.dev.ctx[3].rd 5 + BitVec.signExtend 32 0#18)) 1 false = some 3 ∧
   Dev.accessCause s.part s.dev 3 (BitVec.toNat (s.dev.ctx[3].rd 5 + BitVec.signExtend 32 0#18)) 1 true = some 3) ∧
  (2 < 256 ∧ (∀ r ∈ ringMoved.recordsNow, r.1 ≤ ↑3) ∧ ringMoved.traced 3 = false ∧ ringMoved.sys.ridxAt = some ringMoved.cycle) := by
  refine ⟨?_, ?_, ?_⟩ <;> ((try dsimp only [State.issues]); decide +kernel)

theorem test_BranchesAndJumps_met :
  (let s : State := rigC (regs [(5, 0x80000002)])
   s.issues 3 ∧ ((s.dev.ctx[3].rd 5 == s.dev.ctx[3].rd 6) = false ∨ s.dev.traced 3 = false) ∧
   ((s.dev.ctx[3].rd 5 != s.dev.ctx[3].rd 6) = false ∨ s.dev.traced 3 = false) ∧
   (BitVec.slt (s.dev.ctx[3].rd 5) (s.dev.ctx[3].rd 6) = false ∨ s.dev.traced 3 = false) ∧
   (BitVec.sle (s.dev.ctx[3].rd 6) (s.dev.ctx[3].rd 5) = false ∨ s.dev.traced 3 = false) ∧
   (BitVec.ult (s.dev.ctx[3].rd 5) (s.dev.ctx[3].rd 6) = false ∨ s.dev.traced 3 = false) ∧ (s.dev.ctx[3].z = false ∨ s.dev.traced 3 = false) ∧
   ((!s.dev.ctx[3].z) = false ∨ s.dev.traced 3 = false) ∧ ((s.dev.ctx[3].n != s.dev.ctx[3].v) = false ∨ s.dev.traced 3 = false) ∧
   ((s.dev.ctx[3].n == s.dev.ctx[3].v) = false ∨ s.dev.traced 3 = false) ∧ (s.dev.ctx[3].c = false ∨ s.dev.traced 3 = false) ∧
   (s.dev.ctx[3].abs = false ∨ s.dev.traced 3 = false) ∧ ((!s.dev.ctx[3].abs) = false ∨ s.dev.traced 3 = false) ∧ s.dev.traced 3 = false ∧
   BitVec.toNat (s.dev.ctx[3].rd 5 + BitVec.signExtend 32 8192#14) % 4 ≠ 0) ∧
  (let s : State := rigC (regs [(5, 0xFFFFFFFC)])
   s.issues 3 ∧ BitVec.toNat (s.dev.ctx[3].rd 5 + BitVec.signExtend 32 0#14) % 4 = 0 ∧ s.dev.traced 3 = false) := by
  refine ⟨?_, ?_⟩ <;> ((try dsimp only [State.issues]); decide +kernel)

theorem test_PlainAndWaitingInstructions_met :
  (let s : State := rig
   s.issues 3 ∧ (4 ≠ 0 ∨ 4 = 0) ∧ s.dev.ctx[3].sbuf = [] ∧ s.dev.ctx[3].rd 0 ++ s.dev.ctx[3].rd 0 = 0#64 ∧ s.dev.traced 3 = false) ∧
  (let s : State := rigC fun x => regs [(5, 1), (6, 0x80000000)] { x with queue := [⟨62,1,2,3,4⟩, ⟨63,2,3,4,5⟩] }
   s.issues 3 ∧ s.dev.ctx[3].rd 6 ++ s.dev.ctx[3].rd 5 ≠ 0#64 ∧
   s.dev.ctx[3].queue = [{ src := 62, seq := 1, detail := 2, ts := 3, flags := 4 : EvRec }] ++ [{ src := 63, seq := 2, detail := 3, ts := 4, flags := 5 : EvRec }] ∧
   (∀ q ∈ [{ src := 62, seq := 1, detail := 2, ts := 3, flags := 4 : EvRec }], (s.dev.ctx[3].rd 6 ++ s.dev.ctx[3].rd 5).getLsbD ↑q.src = false) ∧
   (s.dev.ctx[3].rd 6 ++ s.dev.ctx[3].rd 5).getLsbD ↑{ src := 63, seq := 2, detail := 3, ts := 4, flags := 5 : EvRec }.src = true ∧
   s.dev.traced 3 = false) ∧
  (let s : State := rigC fun x => regs [(5, 1), (6, 0x80000000)] { x with queue := [⟨62,1,2,3,4⟩] }
   s.issues 3 ∧ s.dev.ctx[3].rd 6 ++ s.dev.ctx[3].rd 5 ≠ 0#64 ∧
   (∀ q ∈ s.dev.ctx[3].queue, (s.dev.ctx[3].rd 6 ++ s.dev.ctx[3].rd 5).getLsbD ↑q.src = false) ∧ s.dev.traced 3 = false) := by
  refine ⟨?_, ?_, ?_⟩ <;> ((try dsimp only [State.issues]); decide +kernel)

theorem test_IllegalAndPrivileged_met :
  let s : State := rigC fun x => regs [(4, 0)] { x with priv := false, win := Vector.replicate 4 ⟨4, 0x1FFF⟩ }
  s.issues 3 ∧ legalWord 0#32 = false ∧ 1 = 1 ∧ 13 ≠ 0 ∧ s.dev.ctx[3].priv = false ∧ s.dev.hng.streams[s.dev.ctx[3].stream 4].owner.toNat ≠ ↑3 := by
  dsimp only [State.issues]; decide +kernel

theorem test_LineAndSeamInstructions_met :
  (let s : State := rig
   s.issues 3 ∧ s.dev.hng.st = HState.off ∧ Dev.slaved s.part s.dev = false ∧ s.dev.cas.pair ≠ PairState.standby ∧
   s.dev.cas.pair ≠ PairState.takeover ∧ (s.dev.hng.st ≠ HState.run ∨ bit s.dev.hngCtl 0 = false) ∧
   (¬((s.dev.hng.st = HState.freezing ∨ s.dev.hng.st = HState.frozenWait) ∧ (s.dev.hng.reason = Reason.stall ∨ s.dev.hng.reason = Reason.soft))) ∧
   Dev.tellsMembers s.part s.dev = false) ∧
  (let s : State := hinge .run .none fun d => d.setReg 0x50000 1
   s.issues 3 ∧
   (s.dev.hng.st ≠ HState.off ∨ Dev.slaved s.part s.dev = true ∨ s.dev.cas.pair = PairState.standby ∨ s.dev.cas.pair = PairState.takeover) ∧
   s.dev.hng.st ≠ HState.off ∧ s.dev.hng.st = HState.run ∧ bit s.dev.hngCtl 0 = true) ∧
  (let s : State := hinge .freezing .soft
   s.issues 3 ∧ (s.dev.hng.st = HState.freezing ∨ s.dev.hng.st = HState.frozenWait) ∧
   (s.dev.hng.reason = Reason.stall ∨ s.dev.hng.reason = Reason.soft)) ∧
  (let s : State := casS { strap := 1, len := 2 } (fun d => d.updCtx 3 fun _ => live)
   s.issues 3 ∧ Dev.tellsMembers s.part s.dev = true ∧ 12 ≤ s.dev.payCap 2) := by
  refine ⟨?_, ?_, ?_, ?_⟩ <;> ((try dsimp only [State.issues]); decide +kernel)

theorem test_MoveInstructions_met :
  (let s : State := rig fun d => (d.setReg 0x60000 1).updMot 0 fun x => { x with next := some (.vel 5) }
   s.issues 3 ∧ (0 = 1 ∨ s.dev.hng.st = HState.off) ∧ 0 = 0 ∧ s.dev.held 0 = false ∧ s.dev.mot[0].takeUp = none ∧
   (s.dev.mot[0].next ≠ none ∨ s.dev.mot[0].cmd ≠ MoveCmd.none ∧ ¬(0 = 0 ∧ s.dev.hng.takeM0 = true))) ∧
  (let s : State := hinge .run .none fun d => d.setReg 0x60100 1
   s.issues 3 ∧ (1 = 1 ∨ s.dev.hng.st = HState.off) ∧ s.dev.held 1 = false ∧ s.dev.mot[1].takeUp = none ∧
   (¬(s.dev.mot[1].next ≠ none ∨ s.dev.mot[1].cmd ≠ MoveCmd.none ∧ ¬(1 = 0 ∧ s.dev.hng.takeM0 = true)))) ∧
  (let s : State := hinge .run
   s.issues 3 ∧ 0 = 0 ∧ s.dev.hng.st ≠ HState.off) ∧
  (let s : State := rig fun d => d.updMot 0 fun x => { x with next := some (.vel 5) }
   s.issues 3 ∧ (0 = 1 ∨ s.dev.hng.st = HState.off) ∧ s.dev.held 0 = true ∧ s.dev.mot[0].next ≠ none) ∧
  (let s : State := rig
   s.issues 3 ∧ (1 = 1 ∨ s.dev.hng.st = HState.off) ∧ s.dev.held 1 = true ∧ s.dev.mot[1].next = none) ∧
  (let s : State := rig fun d => (d.setReg 0x60100 1).updMot 1 fun x => { x with takeUp := some 5, cmd := .pos 65536 }
   s.issues 3 ∧ (1 = 1 ∨ s.dev.hng.st = HState.off) ∧ s.dev.held 1 = false ∧ s.dev.mot[1].takeUp ≠ none) := by
  refine ⟨?_, ?_, ?_, ?_, ?_, ?_⟩ <;> ((try dsimp only [State.issues]); decide +kernel)

theorem test_CreditInstructions_met :
  (let s : State := rigC (regs [(4, 0xFF), (5, 0xFFFFFFFF)])
   s.issues 3 ∧ (s.dev.ctx[3].priv = true ∨ s.dev.hng.streams[s.dev.ctx[3].stream 4].owner.toNat = ↑3) ∧
   s.dev.hng.streams[s.dev.ctx[3].stream 4].opened = false) ∧
  (let s : State := rig fun d => (d.updCtx 3 fun x => regs [(4, 0)] { x with priv := false, win := Vector.replicate 4 ⟨4, 0x1FFF⟩ }).updHng fun h => { h with streams := h.streams.set 0 { paced 0xFFFFFF with owner := 3 } }
   s.issues 3 ∧ (s.dev.ctx[3].priv = true ∨ s.dev.hng.streams[s.dev.ctx[3].stream 4].owner.toNat = ↑3) ∧
   s.dev.hng.streams[s.dev.ctx[3].stream 4].opened = true) := by
  refine ⟨?_, ?_⟩ <;> ((try dsimp only [State.issues]); decide +kernel)

theorem test_UnitInstructions_met :
  (let s : State := rig
   s.issues 3 ∧ portPresent s.part 3 = true ∧ dmaPresent s.part 15 = true ∧ s.dev.dma[15].st = ChanState.idle ∧
   s.dev.frozen (Master.dma 15) = false ∧ s.dev.ctx[3].rd 4 ≠ 0 ∧
   (s.dev.dma[15].st = ChanState.fetch ∧ s.dev.frozen (Master.dma 15) = false ∨ s.dev.dma[15].st = ChanState.lineWait ∨ s.dev.dma[15].st = ChanState.idle ∧ s.dev.dma[15].atTail = false) ∧
   s.part.hkin ≠ 0 ∧ s.dev.crossRoom 4 = true ∧ s.dev.hk.seq = HkSeq.idle ∧ s.dev.hk.slot[1] = none ∧
   (s.dev.hk.conv ≠ none ∨ ∀ (v : Fin 2), s.dev.hk.slot[v] = none) ∧ s.dev.crossRoom 6 = true ∧
   (bit (s.dev.slotReg 7) 6 = true → s.dev.slotCtx 7 = 3) ∧ (s.dev.wdt.bRun = false ∨ s.dev.slotIn 7 = false)) ∧
  (let s : State := rig fun d => { (d.updDma 0 fun x => { x with st := .fetch }) with hk := { d.hk with seq := .run, conv := some cv, slot := Vector.replicate 2 (some 2) }, wdt := { d.wdt with bRun := true }, regs := tabSet 0 d.regs 0xB0120 0xC3 }
   s.issues 3 ∧ dmaPresent s.part 0 = true ∧ (s.dev.dma[0].st ≠ ChanState.idle ∨ s.dev.frozen (Master.dma 0) = true) ∧ s.part.hkin ≠ 0 ∧
   s.dev.crossRoom 4 = true ∧ s.dev.hk.seq ≠ HkSeq.idle ∧ s.dev.hk.slot[0] ≠ none ∧ s.dev.hk.seq = HkSeq.run ∧ s.dev.hk.conv ≠ none ∧
   s.dev.crossRoom 6 = true ∧ (bit (s.dev.slotReg 0) 6 = true → s.dev.slotCtx 0 = 3) ∧ s.dev.wdt.bRun = true ∧ s.dev.slotIn 0 = true) ∧
  (let s : State := rig fun d => { (d.updDma 0 fun x => { x with st := .tailWait }) with wdt := { d.wdt with bRun := true, keys := List.replicate 7 1 }, regs := tabSet 0 d.regs 0xB0120 0xC4 }
   s.issues 3 ∧ dmaPresent s.part 0 = true ∧ s.dev.dma[0].st = ChanState.tailWait ∧ s.dev.crossRoom 6 = true ∧ bit (s.dev.slotReg 0) 6 = true ∧
   s.dev.slotCtx 0 ≠ 3) ∧
  (let s : State := rig fun d => { (d.updDma 0 fun x => { x with st := .run }) with hk := { d.hk with seq := .run, conv := some cv, slot := Vector.replicate 2 (some 2) }, wdt := { d.wdt with bRun := true }, regs := tabSet 0 d.regs 0xB0120 0xC3 }
   s.issues 3 ∧ dmaPresent s.part 0 = true ∧
   (s.dev.dma[0].st = ChanState.run ∨ s.dev.dma[0].st = ChanState.fetch ∧ s.dev.frozen (Master.dma 0) = true)) ∧
  (let s : State := dmaS {} [(0x880C0, 1)]
   s.issues 3 ∧ dmaPresent s.part 3 = true ∧ s.dev.dma[3].st = ChanState.idle ∧ s.dev.frozen (Master.dma 3) = false ∧ s.dev.ctx[3].rd 0 = 0 ∧
   s.dev.paced 3 = true) ∧
  (let s : State := dmaS { atTail := true } []
   s.issues 3 ∧ dmaPresent s.part 3 = true ∧ s.dev.dma[3].st = ChanState.idle ∧ s.dev.dma[3].atTail = true) ∧
  (let s : State := hkS fun h => { h with seq := .wait }
   s.issues 3 ∧ s.part.hkin ≠ 0 ∧ s.dev.crossRoom 4 = true ∧ s.dev.hk.seq = HkSeq.wait ∧
   (s.dev.hk.conv ≠ none ∨ ∀ (v : Fin 2), s.dev.hk.slot[v] = none)) := by
  refine ⟨?_, ?_, ?_, ?_, ?_, ?_, ?_⟩ <;> ((try dsimp only [State.issues]); decide +kernel)

theorem test_SupervisorInstructions_met :
  (let s : State := rigC (regs [(4, 0xFFFFFFBF)])
   s.issues 3 ∧ s.dev.ctx[3].priv = true ∧ ctxPresent s.part (s.dev.ctx[3].target 4) = true ∧ s.dev.ctx[s.dev.ctx[3].target 4].run = Run.stopped ∧
   s.dev.sys.outcome ≠ 3 ∧ s.dev.traced (s.dev.ctx[3].target 4) = false ∧ s.dev.pwr.gated[sequencerOf (s.dev.ctx[3].target 4)] = false ∧
   s.dev.ctx[s.dev.ctx[3].target 4].held = none ∧ s.dev.ctx[s.dev.ctx[3].target 4].load = none ∧
   s.dev.ctx[s.dev.ctx[3].target 4].due = { : Boundary } ∧ s.dev.ctx[s.dev.ctx[3].target 4].sbuf = []) ∧
  (let s : State := rig fun d => (d.updCtx 3 (regs [(4, 0x40)])).updCtx 0 fun x => { x with run := .waiting, frozen := true }
   s.issues 3 ∧ s.dev.ctx[3].priv = true ∧ ctxPresent s.part (s.dev.ctx[3].target 4) = true ∧ s.dev.ctx[s.dev.ctx[3].target 4].run ≠ Run.stopped ∧
   s.dev.ctx[s.dev.ctx[3].target 4].resetting = false ∧ s.dev.ctx[s.dev.ctx[3].target 4].held = none ∧ s.dev.ctx[s.dev.ctx[3].target 4].load = none ∧
   s.dev.ctx[s.dev.ctx[3].target 4].due = { : Boundary } ∧ s.dev.traced (s.dev.ctx[3].target 4) = false ∧
   s.dev.pwr.gated[sequencerOf (s.dev.ctx[3].target 4)] = false) ∧
  (let s : State := rig fun d => (d.updCtx 3 (regs [(4, 0)])).updCtx 0 fun x => { x with run := .waiting, frozen := true }
   s.issues 3 ∧ s.dev.ctx[3].priv = true ∧ ctxPresent s.part (s.dev.ctx[3].target 4) = true ∧ s.dev.ctx[3].target 4 ≠ 3 ∧
   BitVec.toNat (s.dev.ctx[3].rd 4) % 256 = ↑(s.dev.ctx[3].target 4) ∧ s.dev.ctx[s.dev.ctx[3].target 4].frozen = true) := by
  refine ⟨?_, ?_, ?_⟩ <;> ((try dsimp only [State.issues]); decide +kernel)

theorem test_ThawAndAbsentUnits_met :
  (let s : State := rig fun d => (d.updCtx 3 (regs [(4, 0xFFFFFF3F)])).updCtx 63 fun x => { x with run := .waiting, frozen := true }
   s.issues 3 ∧ s.dev.ctx[3].priv = true ∧ s.dev.ctx[3].target 4 ≠ 3 ∧ ctxPresent s.part (s.dev.ctx[3].target 4) = true ∧
   BitVec.toNat (s.dev.ctx[3].rd 4) % 256 = ↑(s.dev.ctx[3].target 4) ∧ s.dev.ctx[s.dev.ctx[3].target 4].frozen = true ∧
   s.dev.traced (s.dev.ctx[3].target 4) = false ∧ s.dev.pwr.gated[sequencerOf (s.dev.ctx[3].target 4)] = false) ∧
  (let s : State := rig (fun d => d.updCtx 3 (regs [(4, 0)]))
   s.issues 3 ∧ s.dev.ctx[3].priv = true ∧ ctxPresent s.part (s.dev.ctx[3].target 4) = true ∧
   BitVec.toNat (s.dev.ctx[3].rd 4) % 256 = ↑(s.dev.ctx[3].target 4) ∧ s.dev.ctx[s.dev.ctx[3].target 4].frozen = false) ∧
  (let s : State := rig (fun d => d.updCtx 3 (regs [(4, 32)])) (partOf .yk4820)
   s.issues 3 ∧ s.dev.ctx[3].priv = true ∧ masterAbsent s.part (BitVec.toNat (s.dev.ctx[3].rd 4) % 256) = true ∧
   ctxPresent s.part (s.dev.ctx[3].target 4) = false ∧ portPresent s.part 1 = false ∧ dmaPresent s.part 8 = false ∧ s.part.hkin = 0) ∧
  (let s : State := rig (fun d => d.updCtx 3 (regs [(4, 67)]))
   s.issues 3 ∧ s.dev.ctx[3].priv = true ∧ dmaPresent s.part 3 = true ∧ BitVec.toNat (s.dev.ctx[3].rd 4) % 256 = 64 + ↑3 ∧
   s.dev.frozen (Master.dma 3) = false) ∧
  (let s : State := rig (fun d => { d.updCtx 3 (regs [(4, 79)]) with mfrozen := 0x8000, dma := d.dma.set 15 { st := .run, list := [2] } })
   s.issues 3 ∧ s.dev.ctx[3].priv = true ∧ dmaPresent s.part 15 = true ∧ BitVec.toNat (s.dev.ctx[3].rd 4) % 256 = 64 + ↑15 ∧
   s.dev.frozen (Master.dma 15) = true) ∧
  (let s : State := rig (fun d => { d.updCtx 3 (regs [(4, 84)]) with mfrozen := 0x100000 })
   s.issues 3 ∧ s.dev.ctx[3].priv = true ∧ BitVec.toNat (s.dev.ctx[3].rd 4) % 256 = 80 + ↑4 ∧ s.dev.mfrozen.getLsbD (16 + ↑4) = true) ∧
  (let s : State := rig (fun d => d.updCtx 3 (regs [(4, 80)]))
   s.issues 3 ∧ s.dev.ctx[3].priv = true ∧ BitVec.toNat (s.dev.ctx[3].rd 4) % 256 = 80 + ↑0 ∧ s.dev.mfrozen.getLsbD (16 + ↑0) = false) ∧
  (let s : State := rig (fun d => d.updCtx 3 (regs [(4, 85)]))
   s.issues 3 ∧ s.dev.ctx[3].priv = true ∧ 84 < BitVec.toNat (s.dev.ctx[3].rd 4) % 256) := by
  refine ⟨?_, ?_, ?_, ?_, ?_, ?_, ?_, ?_⟩ <;> ((try dsimp only [State.issues]); decide +kernel)

theorem test_LatchingAndActingReads_met :
  (let s : State := rig
   s.mayRead (Master.ctx 3) 64 ∧ s.mayRead (Master.ctx 3) 327696 ∧ s.mayRead (Master.ctx 3) 327704 ∧ s.mayRead (Master.ctx 3) (motOff 1 24) ∧
   s.mayRead (Master.ctx 3) (motOff 1 32) ∧ s.mayRead (Master.ctx 3) (motOff 1 84) ∧ s.mayRead (Master.ctx 3) 458768 ∧
   s.mayRead (Master.ctx 3) (192 + 4 * ↑0) ∧ s.dev.sys.sem[0] = 0 ∧ s.part.hkin ≠ 0 ∧ s.mayRead (Master.ctx 3) (655616 + 4 * ↑0) ∧
   s.mayRead (Master.ctx 3) (655680 + 4 * ↑0)) ∧
  (let s : State := rig fun d => { d with sys := { d.sys with sem := d.sys.sem.set 15 4 } }
   s.mayRead (Master.ctx 3) (192 + 4 * ↑15) ∧ s.dev.sys.sem[15] ≠ 0) := by
  refine ⟨?_, ?_⟩ <;> ((dsimp only [State.mayRead, State.portFree]); and_intros <;> decide +kernel)

theorem test_PlainRegisterWrites_met :
  let s : State := rig
  327692 ∈ [0x5000C, 0x50024, 0x50028, 0x5002C, 0x50034, 0x6000C, 0x60010, 0x60014, 0x60030, 0x60038, 0x6003C, 0x60040, 0x60044, 0x60054, 0x60058, 0x6010C, 0x60110, 0x60114, 0x60130, 0x60138, 0x6013C, 0x60140, 0x60144, 0x60154, 0x60158, 0x70000, 0x70020, 0x40010, 0x40014, 0x40020, 0x81004, 0x81008, 0x8100C, 0x81010, 0x20044, 0x20054, 0x20064, 0x20074, 0xE0000, 0xE0004, 0xE0008, 0xE000C, 0xE0010, 0xD0000, 0xD0018, 0x30104, 0x30108, 0x30124, 0x30128, 0x30144, 0x30148, 0x30164, 0x30168, 0x31004, 0x31008, 0x3100C, 0x31010, 0x31014, 0x31018, 0x32004, 0x32008, 0x3200C, 0x32010, 0x32014, 0x32018, 0x33004, 0x33008, 0x3300C, 0x33010, 0x33014, 0x33018, 0x34004, 0x34008, 0x3400C, 0x34010, 0x34014, 0x34018, 0xA0000, 0xA0018, 0xA0204, 0xA0208, 0xA02F4, 0xA02F8, 0xA0400, 0xA04FC] ∧
  s.mayWrite Master.mgmt 327692 ∧ regAbsent s.part 327692 = false ∧ 0 ≠ 327692 := by
  dsimp only [State.mayWrite, State.portFree]; decide +kernel

theorem test_AbsentAndRefusedRegisters_met :
  (let s : State := rig id (partOf .yk4820)
   regAbsent s.part 655616 = true ∧ s.mayWrite Master.mgmt 655616 ∧ 655616 = 655616 + 4 * ↑0 ∧ s.mayRead Master.mgmt 655616 ∧ s.dev.coreOn = true ∧
   655616 < 1048576) ∧
  (let s : State := rigC fun x => { x with priv := false }
   s.dev.coreOn = true ∧ 12 < 1048576 ∧ Master.linkIn ∈ [Master.linkIn, Master.cascIn, Master.corr] ∧ masterPresent s.part Master.linkIn = true ∧
   s.dev.frozen Master.linkIn = false ∧ (∀ r ∈ s.dev.recordsNow, r.1 ≤ mnum Master.linkIn) ∧
   (Master.linkIn = Master.cascIn → egressStream (134217728 + 12) = none) ∧ Dev.mayIssue s.part s.dev 3 = true ∧
   Dev.accessCause s.part s.dev 3 (134217728 + 12) 4 true = some 5) ∧
  (let s : State := rig fun d => { d with mfrozen := 0x80000 }
   s.dev.coreOn = true ∧ 1048572 < 1048576 ∧ s.dev.frozen Master.debug = true) ∧
  (let s : State := rig
   s.dev.coreOn = true ∧ 622592 < 1048576 ∧ s.dev.frozen Master.cascIn = false ∧ (egressStream (134217728 + 622592)).isSome = true) ∧
  (let s : State := rig id (partOf .yk4820)
   s.dev.coreOn = true ∧ 12 < 1048576 ∧ Master.cascIn ∈ [Master.cascIn, Master.corr] ∧ masterPresent s.part Master.cascIn = false) := by
  refine ⟨?_, ?_, ?_, ?_, ?_⟩ <;> ((try dsimp only [State.mayRead, State.mayWrite, State.portFree]); decide +kernel)

theorem test_InterconnectSteps_met :
  (let s : State := rig fun d => { d with ecc := [(0x2000, .single true)] }
   s.dev.coreOn = true ∧ s.dev.mark (eccBase s.part (8195#32).toNat) = some (EccMark.single true) ∧
   regionOf s.part (eccBase s.part (8195#32).toNat) ≠ Region.nvm ∧
   (s.dev.ctx[3].frozen = false ∨ s.dev.mark (eccBase s.part (8195#32).toNat) ≠ some EccMark.double) ∧ s.dev.phase = Phase.run ∧
   (∀ (k : CtxId), sequencerOf k = 1 → s.dev.issuable k = false ∧ s.dev.ctx[k].load = none ∧ s.dev.ctx[k].held = none) ∧ s.dev.pwr.gated[1] = false ∧
   (1 = 0 ∨ 32 < s.part.contexts) ∧ bit (s.dev.reg 983040) 0 = false) ∧
  (let s : State := rig fun d => { (d.updCtx 3 fun x => { x with frozen := true }) with ecc := [(0x2000, .double)] }
   s.dev.coreOn = true ∧
   (s.dev.mark (eccBase s.part (8192#32).toNat) ≠ some (EccMark.single true) ∨ regionOf s.part (eccBase s.part (8192#32).toNat) = Region.nvm) ∧
   s.dev.ctx[3].frozen = true ∧ s.dev.mark (eccBase s.part (8192#32).toNat) = some EccMark.double ∧ s.dev.ctx[3].due = { : Boundary } ∧
   (∀ (l : Load), s.dev.ctx[3].load = some l → l.data ≠ none ∨ eccBase s.part (8192#32).toNat ∉ eccWords s.part (BitVec.toNat l.addr) l.size)) ∧
  (let s : State := rig fun d => { (d.updCtx 3 fun x => { x with frozen := true, load := some ⟨0x2000, 4, 4, 0, none⟩ }) with ecc := [(0x2000, .double)] }
   s.dev.coreOn = true ∧ s.dev.ctx[3].frozen = true ∧ s.dev.mark (eccBase s.part (8192#32).toNat) = some EccMark.double ∧
   s.dev.ctx[3].due = { : Boundary } ∧ s.dev.ctx[3].load = some { addr := 8192, size := 4, gd := 4, insn := 0, data := none : Load } ∧
   { addr := 8192, size := 4, gd := 4, insn := 0, data := none : Load }.data = none ∧
   eccBase s.part (8192#32).toNat ∈ eccWords s.part (BitVec.toNat { addr := 8192, size := 4, gd := 4, insn := 0, data := none : Load }.addr) { addr := 8192, size := 4, gd := 4, insn := 0, data := none : Load }.size) ∧
  (let s : State := dmaS { flight := [0x2000] } [] (fun d => { d with ecc := [(0x2000, .double)], mfrozen := 8 })
   s.dev.coreOn = true ∧ s.dev.frozen (Master.dma 3) = true ∧ s.dev.mark (eccBase s.part (8192#32).toNat) = some EccMark.double ∧
   eccBase s.part (8192#32).toNat ∈ s.dev.dma[3].flight) ∧
  (let s : State := dmaS {} [] (fun d => { d with ecc := [(0x2000, .double)], mfrozen := 8 })
   s.dev.coreOn = true ∧ s.dev.frozen (Master.dma 3) = true ∧ s.dev.mark (eccBase s.part (8192#32).toNat) = some EccMark.double ∧
   eccBase s.part (8192#32).toNat ∉ s.dev.dma[3].flight) ∧
  (let s : State := rig fun d => { d with ecc := [(0x2000, .double)], mfrozen := 0x80000, dbgReq := [⟨false, 0x2000, 0, 0⟩] }
   s.dev.coreOn = true ∧ s.dev.frozen Master.debug = true ∧ s.dev.mark (eccBase s.part (8192#32).toNat) = some EccMark.double ∧
   s.dev.dbgReq = [{ write := false, addr := 8192, data := 0, age := 0 : DbgReq }] ∧
   { write := false, addr := 8192, data := 0, age := 0 : DbgReq }.write = false ∧
   eccBase s.part (BitVec.toNat { write := false, addr := 8192, data := 0, age := 0 : DbgReq }.addr) = eccBase s.part (8192#32).toNat) ∧
  (let s : State := rig (sets [(0xF0000, 1)])
   s.dev.coreOn = true ∧ s.dev.phase = Phase.run ∧
   (∀ (k : CtxId), sequencerOf k = 1 → s.dev.issuable k = false ∧ s.dev.ctx[k].load = none ∧ s.dev.ctx[k].held = none) ∧ s.dev.pwr.gated[1] = false ∧
   (1 = 0 ∨ 32 < s.part.contexts) ∧ bit (s.dev.reg 983040) 0 = true ∧ s.dev.trcRoom = true ∧ s.dev.pwr.tOwed = 0) ∧
  (let s : State := pwrS (fun p => { p with tWptr := 4095 }) (sets [(0xF0000, 5)])
   s.dev.coreOn = true ∧ s.dev.phase = Phase.run ∧
   (∀ (k : CtxId), sequencerOf k = 1 → s.dev.issuable k = false ∧ s.dev.ctx[k].load = none ∧ s.dev.ctx[k].held = none) ∧ s.dev.pwr.gated[1] = false ∧
   (1 = 0 ∨ 32 < s.part.contexts) ∧ bit (s.dev.reg 983040) 0 = true ∧ s.dev.trcRoom = false) ∧
  (let s : State := rig
   s.dev.coreOn = true ∧ (¬∀ (k : CtxId), sequencerOf k = 0 → s.dev.issuable k = false ∧ s.dev.ctx[k].load = none ∧ s.dev.ctx[k].held = none)) := by
  refine ⟨?_, ?_, ?_, ?_, ?_, ?_, ?_, ?_, ?_⟩ <;> decide +kernel

theorem test_EventsAssertedOrHeld_met :
  (rig.dev.phase ≠ Phase.standby ∧ rig.dev.phase ≠ Phase.waking ∧ rig.dev.phase ≠ Phase.reloading ∧ rig.dev.ev.cfgAt ≠ some rig.dev.cycle ∧
   rig.dev.ev.src[63].pend.length < 4 ∧ (∀ q ∈ rig.dev.ev.src[63].pend, (fun q => q.age = rig.dev.cycle → q.unit ≤ 0) q)) ∧
  (4 ≤ ((((rig.dev.raise 0 1).raise 0 2).raise 0 3).raise 0 4).ev.src[0].pend.length ∧
   ((((rig.dev.raise 0 1).raise 0 2).raise 0 3).raise 0 4).ev.src[0].pend.length = 4 ∧
   (∀ q ∈ ((((rig.dev.raise 0 1).raise 0 2).raise 0 3).raise 0 4).ev.src[0].pend, (fun q => q.age = ((((rig.dev.raise 0 1).raise 0 2).raise 0 3).raise 0 4).cycle → q.unit ≤ 0) q)) ∧
  ((inStandby.phase = Phase.standby ∨ inStandby.phase = Phase.waking ∨ inStandby.phase = Phase.reloading)) ∧
  ((rig.dev.assertBy 5 51 327681).ev.src[51].pend.length < 4 ∧
   (rig.dev.assertBy 5 51 327681).ev.src[51].pend = [] ++ [(rig.dev.assertBy 5 51 327681).ev.src[51].pend.headD { seq := 0, detail := 0, ts := 0, age := 0 : Pend }] ∧
   (∀ r ∈ ([] : List Pend), (fun q => q.age = (rig.dev.assertBy 5 51 327681).cycle → q.unit ≤ 3) r) ∧
   (¬(fun q => q.age = (rig.dev.assertBy 5 51 327681).cycle → q.unit ≤ 3) ((rig.dev.assertBy 5 51 327681).ev.src[51].pend.headD { seq := 0, detail := 0, ts := 0, age := 0 : Pend }))) ∧
  (((((rig.dev.assertBy 0 60 1).assertBy 0 60 2).assertBy 0 60 3).assertBy 5 60 4).ev.src[60].pend.length = 4 ∧
   ((((rig.dev.assertBy 0 60 1).assertBy 0 60 2).assertBy 0 60 3).assertBy 5 60 4).ev.src[60].pend = List.take 3 ((((rig.dev.assertBy 0 60 1).assertBy 0 60 2).assertBy 0 60 3).assertBy 5 60 4).ev.src[60].pend ++ [((((rig.dev.assertBy 0 60 1).assertBy 0 60 2).assertBy 0 60 3).assertBy 5 60 4).ev.src[60].pend.getLastD { seq := 0, detail := 0, ts := 0, age := 0 : Pend }] ∧
   (∀ r ∈ List.take 3 ((((rig.dev.assertBy 0 60 1).assertBy 0 60 2).assertBy 0 60 3).assertBy 5 60 4).ev.src[60].pend, (fun q => q.age = ((((rig.dev.assertBy 0 60 1).assertBy 0 60 2).assertBy 0 60 3).assertBy 5 60 4).cycle → q.unit ≤ 3) r) ∧
   (¬(fun q => q.age = ((((rig.dev.assertBy 0 60 1).assertBy 0 60 2).assertBy 0 60 3).assertBy 5 60 4).cycle → q.unit ≤ 3) (((((rig.dev.assertBy 0 60 1).assertBy 0 60 2).assertBy 0 60 3).assertBy 5 60 4).ev.src[60].pend.getLastD { seq := 0, detail := 0, ts := 0, age := 0 : Pend }))) := by
  refine ⟨?_, ?_, ?_, ?_, ?_⟩ <;> decide +kernel

theorem test_RecordDelivery_met :
  let s : State := rig fun d => (((d.updCtx 3 fun x => { x with run := .waiting, emask := 1#64 <<< 63 }).updCtx 4 fun x => { x with queue := List.replicate 8 ⟨1,1,1,1,1⟩ }).raise 63 9).setReg 0x213F0 0x38
  s.dev.coreOn = true ∧ 63 ≠ 19 ∧ s.dev.ev.src[63].pend = [{ seq := 0, detail := 9, ts := 0, age := 0 : Pend }] ∧
  (∀ (k : Fin 64), k ≠ 63 → s.dev.ev.src[k].pend = []) ∧ s.dev.routedNow 63 ↑(Fin.ofNat 64 0) = false ∧ s.dev.routedNow 63 ↑(Fin.ofNat 64 3) = true ∧
  s.dev.ctx[Fin.ofNat 64 3].run = Run.waiting ∧ s.dev.ctx[Fin.ofNat 64 3].wake = none ∧ s.dev.ctx[Fin.ofNat 64 3].emask.getLsbD ↑63 = true ∧
  s.dev.routedNow 63 ↑(Fin.ofNat 64 5) = true ∧
  (¬(s.dev.ctx[Fin.ofNat 64 5].run = Run.waiting ∧ s.dev.ctx[Fin.ofNat 64 5].wake = none ∧ s.dev.ctx[Fin.ofNat 64 5].emask.getLsbD ↑63 = true)) ∧
  s.dev.ctx[Fin.ofNat 64 5].queue.length < 8 ∧ s.dev.routedNow 63 ↑(Fin.ofNat 64 4) = true ∧
  (¬(s.dev.ctx[Fin.ofNat 64 4].run = Run.waiting ∧ s.dev.ctx[Fin.ofNat 64 4].wake = none ∧ s.dev.ctx[Fin.ofNat 64 4].emask.getLsbD ↑63 = true)) ∧
  8 ≤ s.dev.ctx[Fin.ofNat 64 4].queue.length := by
  decide +kernel

theorem test_WakeServed_met :
  let s : State := rigC fun x => { x with run := .waiting, wake := some (⟨63,1,2,3,4⟩, 0) }
  s.dev.coreOn = true ∧ s.dev.nextWake 0 = some (3, { src := 63, seq := 1, detail := 2, ts := 3, flags := 4 : EvRec }, 0) ∧
  s.dev.ctx[3].run = Run.waiting ∧ s.dev.traced 3 = false ∧ s.dev.pwr.gated[sequencerOf 3] = false := by
  decide +kernel

theorem test_FabricCommandsAndMessages_met :
  (let s : State := rig fun d => { links { st := .active, books := bks } d with ev := { d.ev with hq := [⟨63,1,2,3,4⟩] } }
   s.mayWrite Master.mgmt 131088 ∧ s.mayWrite Master.mgmt 131092 ∧ s.mayWrite Master.mgmt (131104 + 4 * ↑3) ∧ s.mayWrite Master.mgmt 131072 ∧
   bit (4294967295#32) 0 = true ∧ s.mayWrite Master.mgmt (tmrOff 3) ∧ bit (s.dev.reg (tmrOff 3)) 0 = false ∧ s.dev.phase = Phase.run ∧
   s.dev.coreOn = true ∧ s.dev.ev.hq ≠ [] ∧ s.dev.kl.links[0].st = LinkState.active ∧ s.dev.kl.links[0].measuring = false ∧ 24 ≤ s.dev.payCap 0 ∧
   frameUnits (8 + 16 * min (min 16 ((s.dev.payCap 0 - 8) / 16)) s.dev.ev.hq.length) ≤ s.dev.kl.links[0].books[64].avail) ∧
  (let s : State := rig (sets [(0x20040, 1)])
   s.mayWrite Master.mgmt 131072 ∧ bit (0#32) 0 = false ∧ s.dev.coreOn = true ∧ bit (s.dev.reg (tmrOff 0)) 0 = true ∧
   bit (s.dev.reg (tmrOff 0)) 1 = false) ∧
  (let s : State := rig (sets [(0x20070, 3)])
   s.dev.coreOn = true ∧ bit (s.dev.reg (tmrOff 3)) 0 = true ∧ bit (s.dev.reg (tmrOff 3)) 1 = true) := by
  refine ⟨?_, ?_, ?_⟩ <;> ((dsimp only [State.mayWrite, State.portFree]); and_intros <;> decide +kernel)

theorem test_LineFires_met :
  (let s : State := fireS .run
   s.dev.coreOn = true ∧ s.dev.hng.st = HState.run ∧ s.dev.freeSlot = some (free (fireS HState.run)) ∧ s.dev.atGrid s.dev.hng.next = true ∧
   Dev.mayFire s.part s.dev = true) ∧
  (let s : State := fireS .run (fun h => { h with stopDue := some 7 }) (fun d => d.setReg 0x50000 1)
   s.pending = [] ∧ s.dev.coreOn = true ∧ s.dev.hng.stopDue = some 7#32 ∧ s.dev.spiReq = [] ∧ s.dev.dbgReq = [] ∧ s.dev.hng.st = HState.run ∧
   bit s.dev.hngCtl 0 = true) := by
  refine ⟨?_, ?_⟩ <;> decide +kernel

theorem test_CapturesAndWaits_met :
  (let s : State := fireS .overlap (fun h => { h with kp := 1 })
   s.dev.coreOn = true ∧ s.dev.hng.st = HState.overlap ∧ s.dev.hng.ovl < s.dev.hng.kp ∧ s.dev.freeSlot = some (free (fireS HState.run)) ∧
   s.dev.atGrid (s.dev.hng.pLast - ↑(s.dev.hng.kp + 2 - s.dev.hng.ovl) * ↑s.dev.pitch) = true ∧ Dev.mayFire s.part s.dev = true) ∧
  (let s : State := fireS .guard (fun h => { h with grd := 2, corr := .loaded })
   s.dev.coreOn = true ∧ s.dev.hng.st = HState.guard ∧ s.dev.hng.grd < 3 ∧ s.dev.freeSlot = some (free (fireS HState.run)) ∧
   s.dev.atGrid (s.dev.hng.pLast - ↑(2 - s.dev.hng.grd) * ↑s.dev.pitch) = true ∧ Dev.mayFire s.part s.dev = true) ∧
  (let s : State := fireS .run id (fun d => { d with ls := { d.ls with wait := some ⟨1, 1, 1, 1⟩ } })
   s.dev.coreOn = true ∧ s.dev.hng.st = HState.run ∧ s.dev.freeSlot = none ∧
   s.dev.atGrid (s.dev.hng.next + ↑s.dev.hng.fullRaised * ↑s.dev.pitch) = true ∧
   s.dev.noteReach.hng.reachOf (s.dev.hng.next + ↑s.dev.hng.fullRaised * ↑s.dev.pitch) ≠ none ∧
   ((∃ k : Fin 64, s.dev.hng.streams[k].opened = true ∧ s.dev.hng.streams[k].pace = true ∧ s.dev.hng.streams[k].atStart s.dev.cycle = 0) ∨ s.dev.hng.firedAt = some s.dev.cycle ∨ s.dev.freeSlot = none)) ∧
  (let s : State := fireS .run (fun h => { h with fullRaised := 1 }) (fun d => { d with ls := { d.ls with wait := some ⟨1, 1, 1, 1⟩ } })
   s.dev.coreOn = true ∧ s.dev.hng.st = HState.run ∧ s.dev.freeSlot = none ∧
   s.dev.noteReach.hng.reachOf (s.dev.hng.next + ↑s.dev.hng.fullRaised * ↑s.dev.pitch) = none) := by
  refine ⟨?_, ?_, ?_, ?_⟩ <;> decide +kernel

theorem test_PlannerIntervalRule_met :
  (let s : State := hinge .run .none fun d => (d.setReg 0x60100 1).updMot 1 fun x => { x with next := some (.vel (-70000)) }
   s.dev.coreOn = true ∧ s.dev.held 1 = false ∧ s.dev.mot[1].takeUp = none ∧ s.dev.mot[1].blOff = 0 ∧ fld (s.dev.motReg 1 60) 0 24 = 0 ∧
   bit (s.dev.motReg 1 0) 9 = false ∧ s.dev.mot[1].next.getD s.dev.mot[1].cmd = MoveCmd.vel (-70000) ∧ s.dev.hng.st = HState.run ∧
   (s.dev.cNow = none ∨ ∃ c, s.dev.cNow = some c ∧ s.dev.crTh.2 ≤ c)) ∧
  (let s : State := hinge .run .none fun d => { (d.setReg 0x60100 1).updMot 1 fun x => { x with cmd := .pos 0, p := 256 * 65536 } with hng := { d.hng with st := .run, streams := d.hng.streams.set 63 (paced 0xFFFFFF) } }
   s.dev.coreOn = true ∧ s.dev.held 1 = false ∧ s.dev.mot[1].takeUp = none ∧ s.dev.mot[1].blOff = 0 ∧ fld (s.dev.motReg 1 60) 0 24 = 0 ∧
   bit (s.dev.motReg 1 0) 9 = false ∧ s.dev.mot[1].next.getD s.dev.mot[1].cmd = MoveCmd.pos 0 ∧
   ((0 - (s.dev.mot[1].p + (planRule (sgn (0 - s.dev.mot[1].p) * ↑(s.dev.vstop 1 (0 - s.dev.mot[1].p).natAbs)) s.dev.mot[1].v s.dev.mot[1].a (s.dev.amax 1) (s.dev.jmax 1) (s.dev.vmaxEff 1)).1)).natAbs ≤ 256 * 65536 ∧ (planRule (sgn (0 - s.dev.mot[1].p) * ↑(s.dev.vstop 1 (0 - s.dev.mot[1].p).natAbs)) s.dev.mot[1].v s.dev.mot[1].a (s.dev.amax 1) (s.dev.jmax 1) (s.dev.vmaxEff 1)).1.natAbs ≤ 16 * 65536)) ∧
  (let s : State := hinge .run .none fun d => { (d.setReg 0x60100 1).updMot 1 fun x => { x with cmd := .pos 0, p := 2 ^ 40 } with hng := { d.hng with st := .run, streams := d.hng.streams.set 63 (paced 0) } }
   s.dev.coreOn = true ∧ s.dev.held 1 = false ∧ s.dev.mot[1].takeUp = none ∧ s.dev.mot[1].blOff = 0 ∧ fld (s.dev.motReg 1 60) 0 24 = 0 ∧
   bit (s.dev.motReg 1 0) 9 = false ∧ s.dev.mot[1].next.getD s.dev.mot[1].cmd = MoveCmd.pos 0 ∧
   (¬((0 - (s.dev.mot[1].p + (planRule (sgn (0 - s.dev.mot[1].p) * ↑(s.dev.vstop 1 (0 - s.dev.mot[1].p).natAbs)) s.dev.mot[1].v s.dev.mot[1].a (s.dev.amax 1) (s.dev.jmax 1) (s.dev.vmaxEff 1)).1)).natAbs ≤ 256 * 65536 ∧ (planRule (sgn (0 - s.dev.mot[1].p) * ↑(s.dev.vstop 1 (0 - s.dev.mot[1].p).natAbs)) s.dev.mot[1].v s.dev.mot[1].a (s.dev.amax 1) (s.dev.jmax 1) (s.dev.vmaxEff 1)).1.natAbs ≤ 16 * 65536)) ∧
   s.dev.hng.st = HState.run ∧ s.dev.cNow = some 0) := by
  refine ⟨?_, ?_, ?_⟩ <;> decide +kernel

theorem test_StepsAndEncoders_met :
  (let s : State := rig fun d => (sets [(0x60000, 0x101C3)] d).updMot 0 fun x => { x with stepIdx := 1 }
   s.dev.coreOn = true ∧ sgn (s.dev.stepNow 0 - s.dev.mot[0].stepIdx) ≠ 0 ∧ bit (s.dev.motReg 0 0) 0 = true ∧ s.dev.stepFree 0 = true ∧
   (bit (s.dev.motReg 0 0) 1 = true ∨ s.dev.mot[0].stepBack = decide (sgn (s.dev.stepNow 0 - s.dev.mot[0].stepIdx) < 0) ∧ ∀ (t : ℕ), s.dev.mot[0].dirAt = some t → t + 400 ≤ s.dev.cycle) ∧
   (s.dev.atRest 0 = false ∨ fld (s.dev.motReg 0 0) 16 8 = 0 ∨ s.dev.cycle < s.dev.mot[0].restSince + fld (s.dev.motReg 0 0) 16 8 * 400000) ∧
   bit (s.dev.motReg 0 0) 7 = true ∧ s.dev.phase ≠ Phase.inReset ∧ s.dev.phase ≠ Phase.clocks) ∧
  (let s : State := rig fun d => { (sets [(0x60000, 0x10001)] d) with cycle := 400000 }
   s.dev.coreOn = true ∧ s.dev.atRest 0 = true ∧ fld (s.dev.motReg 0 0) 16 8 ≠ 0 ∧
   s.dev.mot[0].restSince + fld (s.dev.motReg 0 0) 16 8 * 400000 ≤ s.dev.cycle) ∧
  (let s : State := rig fun d => { d with pins := { d.pins with forceI := true } }
   s.dev.released = true) ∧
  (let s : State := rig
   s.dev.released = false ∧ bit (s.dev.motReg 0 0) 0 = false) ∧
  (let s : State := rig fun d => (sets [(0x60000, 1)] d).updMot 0 fun x => { x with stepIdx := 1 }
   s.dev.coreOn = true ∧ sgn (s.dev.stepNow 0 - s.dev.mot[0].stepIdx) ≠ 0 ∧ bit (s.dev.motReg 0 0) 0 = true ∧ s.dev.stepFree 0 = true ∧
   (¬(bit (s.dev.motReg 0 0) 1 = true ∨ s.dev.mot[0].stepBack = decide (sgn (s.dev.stepNow 0 - s.dev.mot[0].stepIdx) < 0) ∧ ∀ (t : ℕ), s.dev.mot[0].dirAt = some t → t + 400 ≤ s.dev.cycle))) ∧
  (let s : State := hinge .run .none fun d => ((sets [(0x60000, 0x80), (0x50000, 5)] d).updMot 0 fun x => { x with pMove := 1, encCnt := 0xFFFFFFFF })
   s.dev.coreOn = true ∧ bit (s.dev.motReg 0 0) 7 = true ∧ 0 = 0 ∧ s.dev.hng.st = HState.run ∧ bit s.dev.hngCtl 2 = true ∧ 0 < s.dev.mot[0].pMove ∧
   s.dev.mot[0].segAt ≤ s.dev.cycle ∧
   ((quadrant true false + 4 - quadrant s.dev.mot[0].encA s.dev.mot[0].encB) % 4 = 1 ∨ (quadrant true false + 4 - quadrant s.dev.mot[0].encA s.dev.mot[0].encB) % 4 = 3) ∧
   s.dev.notePast.hng.reachOf s.dev.hng.next = none) := by
  refine ⟨?_, ?_, ?_, ?_, ?_, ?_⟩ <;> decide +kernel

theorem test_AxisRegisterCommands_met :
  (let s : State := rig fun d => (sets [(0x60100, 1)] d).updMot 1 fun x => { x with v := 1 }
   s.mayWrite Master.mgmt (motOff 1 0) ∧ bit (s.dev.motReg 1 0) 0 = true ∧ s.dev.atRest 1 = false ∧ s.mayWrite Master.mgmt (motOff 1 8) ∧
   s.mayWrite Master.mgmt (motOff 1 92) ∧ s.dev.motOpOk 1 = false) ∧
  (let s : State := hinge .run .none fun d => (sets [(0x60000, 1), (0x50000, 1)] d).updMot 0 fun x => { x with cmd := .vel 3 }
   s.mayWrite (Master.ctx 3) (motOff 0 0) ∧ bit (s.dev.motReg 0 0) 0 = true ∧ s.dev.atRest 0 = false ∧ 0 = 0 ∧ s.dev.hng.st = HState.run ∧
   bit s.dev.hngCtl 0 = true) ∧
  (let s : State := rig (sets [(0x60000, 0x81)])
   s.mayWrite Master.mgmt (motOff 0 92) ∧ s.dev.motOpOk 0 = true) := by
  refine ⟨?_, ?_, ?_⟩ <;> ((try dsimp only [State.mayWrite, State.portFree]); decide +kernel)

theorem test_LineStoreCommands_met :
  (let s : State := slotS 7 { st := .fill, written := true }
   s.dev.coreOn = true ∧ ↑7 < s.dev.ls.geom.nslot ∧ s.dev.ls.slots[7].st = SlotState.fill ∧ s.dev.ls.slots[7].written = true ∧
   Dev.segsIn s.part s.dev s.dev.ls.slots[7] = true ∧ s.dev.ls.slots[7].kind = Capture.numbered ∧ s.mayWrite Master.mgmt 458788 ∧
   (¬(↑((Fin.ofNat 256 (fld 4294902023#32 0 8)) : Fin 256) < s.dev.ls.geom.nslot ∧ (s.dev.ls.slots[((Fin.ofNat 256 (fld 4294902023#32 0 8)) : Fin 256)].st = SlotState.full ∨ s.dev.ls.slots[((Fin.ofNat 256 (fld 4294902023#32 0 8)) : Fin 256)].st = SlotState.drain))) ∧
   s.mayWrite Master.mgmt 458780) ∧
  (let s : State := slotS 0 { st := .fill, written := true, kind := .guard } fun d => { d with ls := { d.ls with wait := some ⟨1,1,1,1⟩ } }
   s.dev.coreOn = true ∧ ↑0 < s.dev.ls.geom.nslot ∧ s.dev.ls.slots[0].st = SlotState.fill ∧ s.dev.ls.slots[0].written = true ∧
   Dev.segsIn s.part s.dev s.dev.ls.slots[0] = true ∧ s.dev.ls.slots[0].kind = Capture.guard ∧
   s.dev.ls.wait = some { nslot := 1, size4k := 1, pstr := 1, tstr := 1 : Geom } ∧
   (∃ j : Fin 256, j.val < s.dev.ls.geom.nslot ∧ s.dev.ls.slots[j].st ≠ SlotState.free)) ∧
  (let s : State := slotS 7 { st := .full, hold := 0x10001 } fun d => { d with ls := { d.ls with wait := some ⟨1,1,1,1⟩ } }
   s.mayWrite Master.mgmt 458788 ∧
   (↑((Fin.ofNat 256 (fld 4294902023#32 0 8)) : Fin 256) < s.dev.ls.geom.nslot ∧ (s.dev.ls.slots[((Fin.ofNat 256 (fld 4294902023#32 0 8)) : Fin 256)].st = SlotState.full ∨ s.dev.ls.slots[((Fin.ofNat 256 (fld 4294902023#32 0 8)) : Fin 256)].st = SlotState.drain))) ∧
  (let s : State := slotS 7 {} fun d => { d with ls := { d.ls with wait := some ⟨1,1,1,1⟩ } }
   s.dev.coreOn = true ∧ s.dev.ls.wait = some { nslot := 1, size4k := 1, pstr := 1, tstr := 1 : Geom } ∧
   (∀ (j : Fin 256), ↑j < s.dev.ls.geom.nslot → s.dev.ls.slots[j].st = SlotState.free)) := by
  refine ⟨?_, ?_, ?_, ?_⟩ <;> ((try dsimp only [State.mayWrite, State.portFree]); decide +kernel)

theorem test_CorrelationAndStreamConfig_met :
  (let s : State := noWindow (corrS [] (fun h => { h with grd := 2, streams := h.streams.set 63 (paced 5) }))
   s.dev.coreOn = true ∧ s.dev.hng.st = HState.guard ∧ s.dev.hng.corr = CorrStage.running ∧ s.dev.corrAsks = false ∧
   ((Dev.corrRead s.part (fun d age => Dev.grantable s.part d Port.ls age Master.corr) s.dev).corrAsks = false) ∧
   ((Dev.corrRead s.part (fun d age => Dev.grantable s.part d Port.ls age Master.corr) s.dev).corrRun.1 = some ⟨0, 0, 0, true, true⟩) ∧
   s.mayWrite Master.mgmt (328704 + 16 * ↑63) ∧ bit (0#32) 0 = false ∧ s.dev.hng.streams[63].opened = true) ∧
  (let s : State := corrS twoLines
   s.dev.coreOn = true ∧ s.dev.hng.st = HState.guard ∧ s.dev.hng.corr = CorrStage.running ∧
   ((Dev.corrRead s.part (fun d age => Dev.grantable s.part d Port.ls age Master.corr) s.dev).corrAsks = false) ∧
   ((Dev.corrRead s.part (fun d age => Dev.grantable s.part d Port.ls age Master.corr) s.dev).corrRun.1 = some ⟨0, 0, 255, false, false⟩)) ∧
  (let s : State := { corrS twoLines with dev := { (corrS twoLines).dev with dma := (corrS twoLines).dev.dma.set 0 { st := .run, burst := 2, desc := some (v7 [0, 0x2000, 0x2000000, 64, 0]) } } }
   s.dev.coreOn = true ∧ s.dev.hng.st = HState.guard ∧ s.dev.hng.corr = CorrStage.running ∧
   ((Dev.corrRead s.part (fun d age => Dev.grantable s.part d Port.ls age Master.corr) s.dev).corrAsks = true) ∧ s.dev.corrAsks = true ∧
   Dev.grantable s.part s.dev Port.ls s.dev.pix.corrAsk Master.corr = false) := by
  refine ⟨?_, ?_, ?_⟩ <;> ((try dsimp only [State.mayWrite, State.portFree]); decide +kernel)

theorem test_AcquisitionPeriods_met :
  (let s : State := acqS 0 1 [0, 3]
   s.dev.coreOn = true ∧ portPresent s.part 3 = true ∧ 3 ∈ s.dev.acq.ports ∧ s.dev.acq.done = false ∧ s.dev.port[3].ended = false ∧
   s.dev.port[3].running = false ∧ s.dev.port[3].ckLock = true ∧ s.dev.inPeriod 3 = true ∧ s.dev.cycle < s.dev.acq.started + s.dev.ltmo 3) ∧
  (let s : State := acqS 1 3 [1] fun d => (d.setReg 0x32004 4).updPort 1 fun x => { x with running := true, lendAt := some 0 }
   s.dev.coreOn = true ∧ portPresent s.part 1 = true ∧ s.dev.inPeriod 1 = true ∧ s.dev.port[1].running = true ∧ s.dev.port[1].ckLock = true ∧
   s.dev.port[1].atLend = true ∧ (¬(s.dev.acq.period + 1 = s.dev.acq.periods ∧ s.dev.acq.kind = Capture.numbered)) ∧
   (∀ (n : Fin 256), s.dev.acq.slot = some n → ∀ i < s.dev.npl, have b := s.dev.slotBase ↑n + i * s.dev.ls.geom.pstr; have e := s.dev.slotBase ↑n + s.dev.npl * s.dev.ls.geom.pstr + i * s.dev.ls.geom.tstr; (0 < b ∨ b + 2 * s.dev.capWidth ≤ 0) ∧ (0 < e ∨ e + s.dev.capWidth ≤ 0))) ∧
  (let s : State := acqS 2 3 [0, 1] fun d => (sets [(0x31004, 4), (0x32004, 4)] d).updPort 1 fun x => { x with running := true, lendAt := some 0 }
   s.dev.coreOn = true ∧ portPresent s.part 1 = true ∧ s.dev.inPeriod 1 = true ∧ s.dev.port[1].running = true ∧ s.dev.port[1].ckLock = true ∧
   s.dev.port[1].atLend = true ∧ s.dev.acq.period + 1 = s.dev.acq.periods ∧ s.dev.acq.kind = Capture.numbered ∧
   (∃ k ∈ s.dev.acq.ports, k ≠ 1 ∧ s.dev.port[k].ended = false)) ∧
  (let s : State := acqS 0 2 [1] fun d => { d.updPort 1 fun x => { x with ended := true } with cycle := 10000 }
   s.dev.coreOn = true ∧ portPresent s.part 1 = true ∧ s.dev.acq.done = false ∧ s.dev.acq.period + 1 < s.dev.acq.periods ∧
   (∀ k ∈ s.dev.acq.ports, s.dev.port[k].ended = true) ∧ s.dev.acq.started + 10000 ≤ s.dev.cycle) ∧
  (let s : State := acqS 0 2 [1] fun d => { d.updPort 1 fun x => { x with ended := true } with cycle := 9999 }
   s.dev.coreOn = true ∧ portPresent s.part 1 = true ∧ s.dev.acq.done = false ∧ s.dev.acq.period + 1 < s.dev.acq.periods ∧
   (∀ k ∈ s.dev.acq.ports, s.dev.port[k].ended = true) ∧ s.dev.cycle < s.dev.acq.started + 10000) ∧
  (let s : State := acqS 0 2 [1] fun d => { (d.setReg 0x32004 4) with cycle := 26300000 }
   s.dev.coreOn = true ∧ portPresent s.part 1 = true ∧ s.dev.inPeriod 1 = true ∧ s.dev.acq.started + s.dev.ltmo 1 ≤ s.dev.cycle ∧
   (¬(s.dev.acq.period + 1 = s.dev.acq.periods ∧ s.dev.acq.kind = Capture.numbered)) ∧
   (∀ (n : Fin 256), s.dev.acq.slot = some n → ∀ i < s.dev.npl, have b := s.dev.slotBase ↑n + i * s.dev.ls.geom.pstr; have e := s.dev.slotBase ↑n + s.dev.npl * s.dev.ls.geom.pstr + i * s.dev.ls.geom.tstr; (0 < b ∨ b + 2 * s.dev.capWidth ≤ 0) ∧ (0 < e ∨ e + s.dev.capWidth ≤ 0))) ∧
  (let s : State := acqS 0 1 [0, 3] fun d => (d.setReg 0x34400 2)
   s.dev.coreOn = true ∧ portPresent s.part 3 = true ∧ 3 ∈ s.dev.acq.ports ∧ s.dev.acq.done = false ∧ s.dev.port[3].ended = false ∧
   s.dev.port[3].running = false ∧ s.dev.port[3].ckLock = true ∧ fld (s.dev.edge 3 (↑s.dev.port[3].actBank) 0) 0 16 ≠ 0) ∧
  (let s : State := acqS 1 2 [0, 1] fun d => { (sets [(0x31004, 4), (0x32004, 4)] d) with cycle := 26300000 }
   s.dev.coreOn = true ∧ portPresent s.part 1 = true ∧ s.dev.inPeriod 1 = true ∧ s.dev.acq.started + s.dev.ltmo 1 ≤ s.dev.cycle ∧
   s.dev.acq.period + 1 = s.dev.acq.periods ∧ s.dev.acq.kind = Capture.numbered ∧ (∃ k ∈ s.dev.acq.ports, k ≠ 1 ∧ s.dev.port[k].ended = false)) := by
  refine ⟨?_, ?_, ?_, ?_, ?_, ?_, ?_, ?_⟩ <;> decide +kernel

theorem test_PortRegisterCommands_met :
  (let s : State := rig
   portPresent s.part 3 = true ∧ s.mayWrite Master.mgmt (portOff 3 0) ∧ bit (s.dev.portReg 3 0) 0 = false ∧ s.dev.port[3].disPend = false ∧
   (clockOk ((Dev.writeReg s.part s.dev (portOff 3 0) (putBit (4294967295#32) 0 true)).portReg 3 0) ((Dev.writeReg s.part s.dev (portOff 3 0) (putBit (4294967295#32) 0 true)).portReg 3 8) && (decide (1 ≤ fld (s.dev.portReg 3 4) 0 14) && decide (fld (s.dev.portReg 3 4) 0 14 ≤ 12288) && decide ((Dev.writeReg s.part s.dev (portOff 3 0) (putBit (4294967295#32) 0 true)).portWidth 3 + (Dev.writeReg s.part s.dev (portOff 3 0) (putBit (4294967295#32) 0 true)).width ≤ 6144 * s.part.ports))) = true ∧
   s.dev.phase ≠ Phase.inReset ∧ s.dev.phase ≠ Phase.clocks ∧ s.mayWrite Master.mgmt (portOff 3 (1024 + 256 * ↑1 + 4 * ↑63)) ∧
   (¬(bit (s.dev.portReg 3 0) 0 = true ∧ s.dev.port[3].actBank = 1))) ∧
  (let s : State := rig (sets [(0x31000, 1)])
   portPresent s.part 0 = true ∧ s.mayWrite Master.mgmt (portOff 0 0) ∧ bit (s.dev.portReg 0 0) 0 = true ∧ s.dev.coreOn = true ∧
   s.dev.portOn 0 = true ∧ bit (s.dev.portReg 0 0) 6 = false ∧ s.mayWrite Master.mgmt (portOff 0 (1024 + 256 * ↑0 + 4 * ↑0)) ∧
   (bit (s.dev.portReg 0 0) 0 = true ∧ s.dev.port[0].actBank = 0)) ∧
  (let s : State := rig fun d => d.updPort 0 fun x => { x with disPend := true }
   portPresent s.part 0 = true ∧ s.mayWrite Master.mgmt (portOff 0 0) ∧ bit (s.dev.portReg 0 0) 0 = false ∧ s.dev.port[0].disPend = true) := by
  refine ⟨?_, ?_, ?_⟩ <;> ((try dsimp only [State.mayWrite, State.portFree]); decide +kernel)

theorem test_LedPulsesAndPixels_met :
  (let s : State := rig fun d => { sets [(0x30168, 160)] d with led := d.led.set 3 { armed := true } }
   s.dev.coreOn = true ∧ s.dev.led[3].armed = true ∧ s.dev.driven = true ∧ s.dev.led[3].trigAt + fld (s.dev.ledReg 3 4) 0 20 ≤ s.dev.cycle ∧
   s.dev.cycle < s.dev.led[3].trigAt + fld (s.dev.ledReg 3 4) 0 20 + fld (s.dev.ledReg 3 8) 0 20) ∧
  (let s : State := rig fun d => { sets [(0x30168, 160)] d with led := d.led.set 3 { on := true }, cycle := 1000 }
   s.dev.coreOn = true ∧ s.dev.led[3].on = true ∧ s.dev.led[3].sampled = none ∧ 160 ≤ fld (s.dev.ledReg 3 8) 0 20 ∧
   s.dev.led[3].trigAt + fld (s.dev.ledReg 3 4) 0 20 + fld (s.dev.ledReg 3 8) 0 20 / 2 ≤ s.dev.cycle ∧
   s.dev.led[3].trigAt + fld (s.dev.ledReg 3 4) 0 20 + fld (s.dev.ledReg 3 8) 0 20 ≤ s.dev.cycle) ∧
  (let s : State := rig fun d => { sets [(0x30168, 160)] d with led := d.led.set 3 { on := true, sampled := some 1023 }, cycle := 1000 }
   s.dev.coreOn = true ∧ s.dev.led[3].on = true ∧ s.dev.led[3].trigAt + fld (s.dev.ledReg 3 4) 0 20 + fld (s.dev.ledReg 3 8) 0 20 ≤ s.dev.cycle ∧
   s.dev.led[3].sampled = some 1023) ∧
  (let s : State := acqS 0 1 [1] fun d => (sets [(0x32400, 0x01900000), (0x32404, 0x80A0000A)] d).updPort 1 fun x => { x with running := true }
   s.dev.coreOn = true ∧ 1 ∈ s.dev.acq.ports ∧ s.dev.acq.done = false) ∧
  (let s : State := rig fun d => { sets [(0x30164, 1), (0x30168, 160)] d with led := d.led.set 3 { armed := true } }
   s.dev.coreOn = true ∧ s.dev.cycle < s.dev.led[3].trigAt + fld (s.dev.ledReg 3 4) 0 20) ∧
  (let s : State := acqS 0 1 [1] fun d => d.updPort 1 fun x => { x with running := true, walked := true, win := true }
   s.dev.coreOn = true ∧ 1 ∈ s.dev.acq.ports ∧ s.dev.acq.done = false ∧ s.dev.port[1].fifo = [1, 16386] ∧ 1 = 1 ∧ 1 < 2 ^ 14 ∧ s.dev.arr 1 = 0 ∧
   s.dev.parallel = false ∧ s.dev.blocks s.dev.acq.period = 1 ∧ s.dev.port[1].got[0] < s.dev.share 1 0 ∧
   List.lookup (pixKey (s.dev.acq.period - s.dev.lag) (s.dev.portFrom 1 + s.dev.port[1].got[0])) s.dev.acq.gains = none ∧
   s.dev.port[1].running = true ∧ s.dev.port[1].ckLock = true ∧ s.dev.port[1].walked = true ∧ s.dev.port[1].winNext = none ∧
   s.dev.port[1].atLend = false ∧ s.dev.port[1].win = true ∧ s.dev.inputsOn = true ∧ s.dev.digital 1 = false ∧
   (¬(s.dev.blocks s.dev.acq.period ≠ 0 ∧ s.dev.blocks s.dev.acq.period * s.dev.share 1 0 ≤ s.dev.port[1].count 0)) ∧
   ((List.filter (fun c => decide (c < 2 ^ 15)) s.dev.port[1].fifo).length < 128)) := by
  refine ⟨?_, ?_, ?_, ?_, ?_, ?_⟩ <;> decide +kernel

theorem test_DmaChannelCommands_met :
  (let s : State := dmaS {} []
   dmaPresent s.part 3 = true ∧ s.mayWrite Master.mgmt (dmaOff 3 0) ∧ s.dev.dmaIdle 3 = true ∧ s.dev.paced 3 = false ∧
   s.mayWrite Master.mgmt (dmaOff 3 20) ∧ 4294967295#32 ≠ 0 ∧ s.mayWrite Master.mgmt (dmaOff 3 40) ∧ s.mayWrite Master.mgmt (dmaOff 3 44)) ∧
  (let s : State := dmaS { st := .run, list := [3, 4], bound := some 5 } [(0x81300, 1), (0x880C0, 1)]
   dmaPresent s.part 3 = true ∧ s.mayWrite Master.mgmt (dmaOff 3 0) ∧ s.dev.dma[3].st ≠ ChanState.idle) ∧
  (let s : State := dmaS {} [(0x880C0, 1)]
   dmaPresent s.part 3 = true ∧ s.mayWrite Master.mgmt (dmaOff 3 0) ∧ s.dev.dmaIdle 3 = true ∧ s.dev.paced 3 = true) := by
  refine ⟨?_, ?_, ?_⟩ <;> ((try dsimp only [State.mayWrite, State.portFree]); decide +kernel)

theorem test_DmaDescriptorSteps_met :
  (let s : State := dmaA { st := .lineWait, list := [3, 4], chain := true } []
   s.dev.coreOn = true ∧ dmaPresent s.part 3 = true ∧ s.dev.frozen (Master.dma 3) = false ∧ s.dev.dma[3].st = ChanState.lineWait ∧
   s.dev.dma[3].list = [3, 4] ∧ s.dev.dma[3].chain = true ∧ (s.dev.dma[3].st ≠ ChanState.tailWait ∨ s.dev.dma[3].reread = true)) ∧
  (let s : State := dmaA { st := .lineWait, list := [3] } [(0x880D0, 3), (0x880D4, 0xFFFFFC0)]
   s.dev.coreOn = true ∧ dmaPresent s.part 3 = true ∧ s.dev.frozen (Master.dma 3) = false ∧ s.dev.dma[3].st = ChanState.lineWait ∧
   s.dev.dma[3].list = [3] ∧ s.dev.dma[3].chain = false) ∧
  (let s : State := dmaA { st := .fetch, nextAt := 0x2100, chain := true } [(0x880D0, 3), (0x880D4, 0xFFFFFC0)] (pokes 0x2100 [1, 0x2000, 0x3000, 0x10])
   s.dev.coreOn = true ∧ dmaPresent s.part 3 = true ∧ s.dev.frozen (Master.dma 3) = false ∧ s.dev.dma[3].st = ChanState.fetch ∧
   reaches (Master.dma 3) (regionOf s.part (BitVec.toNat s.dev.dma[3].nextAt)) = true ∧ Dev.dmaGranted s.part s.dev 3 = true ∧
   s.dev.dmaOutside 3 [0, 1] (BitVec.toNat s.dev.dma[3].nextAt) 32 = none ∧
   (∀ (i : Fin 7), regionOf s.part (BitVec.toNat s.dev.dma[3].nextAt + 4 * ↑i) ≠ Region.lsAbsent) ∧
   Dev.eccBad s.part s.dev (BitVec.toNat s.dev.dma[3].nextAt) 32 = false ∧
   Dev.dmaCheck s.part s.dev 3 #v[s.dev.word (BitVec.toNat s.dev.dma[3].nextAt), s.dev.word (BitVec.toNat s.dev.dma[3].nextAt + 4), s.dev.word (BitVec.toNat s.dev.dma[3].nextAt + 8), s.dev.word (BitVec.toNat s.dev.dma[3].nextAt + 12), s.dev.word (BitVec.toNat s.dev.dma[3].nextAt + 16), s.dev.word (BitVec.toNat s.dev.dma[3].nextAt + 20), s.dev.word (BitVec.toNat s.dev.dma[3].nextAt + 24)] = none ∧
   (∀ b ∈ (s.dev.xferOf 3 #v[s.dev.word (BitVec.toNat s.dev.dma[3].nextAt), s.dev.word (BitVec.toNat s.dev.dma[3].nextAt + 4), s.dev.word (BitVec.toNat s.dev.dma[3].nextAt + 8), s.dev.word (BitVec.toNat s.dev.dma[3].nextAt + 12), s.dev.word (BitVec.toNat s.dev.dma[3].nextAt + 16), s.dev.word (BitVec.toNat s.dev.dma[3].nextAt + 20), s.dev.word (BitVec.toNat s.dev.dma[3].nextAt + 24)]).reads 0 (Chan.chunk s.part { st := s.dev.dma[3].st, ringLat := s.dev.dma[3].ringLat, chain := s.dev.dma[3].chain, list := s.dev.dma[3].list, bound := s.dev.dma[3].bound, cur := s.dev.dma[3].cur, nextAt := s.dev.dma[3].nextAt, desc := s.dev.dma[3].desc, halfRaised := s.dev.dma[3].halfRaised, tailIdle := s.dev.dma[3].tailIdle, cut := s.dev.dma[3].cut, abandon := s.dev.dma[3].abandon, goClear := s.dev.dma[3].goClear, reread := s.dev.dma[3].reread, atTail := s.dev.dma[3].atTail, shut := s.dev.dma[3].shut, askAt := s.dev.dma[3].askAt, readyAt := s.dev.dma[3].readyAt, burst := s.dev.dma[3].burst, flight := s.dev.dma[3].flight : Chan } (s.dev.xferOf 3 #v[s.dev.word (BitVec.toNat s.dev.dma[3].nextAt), s.dev.word (BitVec.toNat s.dev.dma[3].nextAt + 4), s.dev.word (BitVec.toNat s.dev.dma[3].nextAt + 8), s.dev.word (BitVec.toNat s.dev.dma[3].nextAt + 12), s.dev.word (BitVec.toNat s.dev.dma[3].nextAt + 16), s.dev.word (BitVec.toNat s.dev.dma[3].nextAt + 20), s.dev.word (BitVec.toNat s.dev.dma[3].nextAt + 24)])).1, reaches (Master.dma 3) (regionOf s.part b) = true)) ∧
  (let s : State := dmaA { st := .fetch, nextAt := 0x2100, chain := true } []
   s.dev.coreOn = true ∧ dmaPresent s.part 3 = true ∧ s.dev.frozen (Master.dma 3) = false ∧ s.dev.dma[3].st = ChanState.fetch ∧
   reaches (Master.dma 3) (regionOf s.part (BitVec.toNat s.dev.dma[3].nextAt)) = true ∧
   s.dev.dmaOutside 3 [0, 1] (BitVec.toNat s.dev.dma[3].nextAt) 32 ≠ none) ∧
  (let s : State := dmaA { st := .run, chain := true, cur := 0x2100, done := 16, desc := some (v7 [0x2101, 0x2000, 0x3000, 16, 0xA000]), bound := some 4, ringLat := true } [(0x880C0, 1)]
   s.dev.coreOn = true ∧ dmaPresent s.part 3 = true ∧ s.dev.frozen (Master.dma 3) = false ∧ s.dev.dma[3].st = ChanState.run ∧
   s.dev.dma[3].desc = some (v7 [8449, 8192, 12288, 16, 40960]) ∧ (s.dev.xferOf 3 (v7 [8449, 8192, 12288, 16, 40960])).size ≤ s.dev.dma[3].done ∧
   s.dev.dma[3].burst = 0 ∧ Dev.dmaGranted s.part s.dev 3 = true ∧ s.dev.endRoom 3 (v7 [8449, 8192, 12288, 16, 40960]) = true ∧
   s.dev.dma[3].chain = true ∧ regionOf s.part (BitVec.toNat s.dev.dma[3].cur + 28) ≠ Region.lsAbsent ∧
   bit (v7 [8449, 8192, 12288, 16, 40960])[0] 0 = true ∧ s.dev.dma[3].bound = some 4 ∧ s.dev.paced 3 = true ∧
   (s.dev.dma[3].chain = false ∨ bit (v7 [8449, 8192, 12288, 16, 40960])[4] 13 = true)) ∧
  (let s : State := dmaA { st := .run, chain := true, cur := 0x2100, done := 16, desc := some (v7 [0x2100, 0x2000, 0x3000, 16, 0]) } []
   s.dev.coreOn = true ∧ dmaPresent s.part 3 = true ∧ s.dev.frozen (Master.dma 3) = false ∧ s.dev.dma[3].st = ChanState.run ∧
   s.dev.dma[3].desc = some (v7 [8448, 8192, 12288, 16, 0]) ∧ (s.dev.xferOf 3 (v7 [8448, 8192, 12288, 16, 0])).size ≤ s.dev.dma[3].done ∧
   s.dev.dma[3].burst = 0 ∧ Dev.dmaGranted s.part s.dev 3 = true ∧ s.dev.endRoom 3 (v7 [8448, 8192, 12288, 16, 0]) = true ∧
   s.dev.dma[3].chain = true ∧ bit (v7 [8448, 8192, 12288, 16, 0])[0] 0 = false) ∧
  (let s : State := dmaA { st := .run, done := 16, desc := some (v7 [0, 0x2000, 0x3000, 16, 0x8000]) } []
   s.dev.coreOn = true ∧ dmaPresent s.part 3 = true ∧ s.dev.frozen (Master.dma 3) = false ∧ s.dev.dma[3].st = ChanState.run ∧
   s.dev.dma[3].desc = some (v7 [0, 8192, 12288, 16, 32768]) ∧ (s.dev.xferOf 3 (v7 [0, 8192, 12288, 16, 32768])).size ≤ s.dev.dma[3].done ∧
   s.dev.dma[3].burst = 0 ∧ Dev.dmaGranted s.part s.dev 3 = true ∧ s.dev.endRoom 3 (v7 [0, 8192, 12288, 16, 32768]) = true ∧
   s.dev.dma[3].chain = false ∧ s.dev.paced 3 = false) ∧
  (let s : State := dmaA { st := .tailWait, chain := true, cur := 0x2100, reread := true } [] (pokes 0x2100 [0x2041])
   s.dev.coreOn = true ∧ dmaPresent s.part 3 = true ∧ s.dev.frozen (Master.dma 3) = false ∧ s.dev.dma[3].st = ChanState.tailWait ∧
   s.dev.dma[3].reread = true ∧ Dev.dmaGranted s.part s.dev 3 = true ∧ s.dev.dma[3].chain = true ∧
   Dev.eccBad s.part s.dev (BitVec.toNat s.dev.dma[3].cur) 4 = false ∧ regionOf s.part (BitVec.toNat s.dev.dma[3].cur) ≠ Region.lsAbsent ∧
   bit (s.dev.word (BitVec.toNat s.dev.dma[3].cur)) 0 = true) ∧
  (let s : State := dmaA { st := .tailWait, chain := true, cur := 0x2100, reread := true } [] (pokes 0x2100 [0x2040])
   s.dev.coreOn = true ∧ dmaPresent s.part 3 = true ∧ s.dev.frozen (Master.dma 3) = false ∧ s.dev.dma[3].st = ChanState.tailWait ∧
   s.dev.dma[3].reread = true ∧ Dev.dmaGranted s.part s.dev 3 = true ∧ s.dev.dma[3].chain = true ∧
   Dev.eccBad s.part s.dev (BitVec.toNat s.dev.dma[3].cur) 4 = false ∧ regionOf s.part (BitVec.toNat s.dev.dma[3].cur) ≠ Region.lsAbsent ∧
   bit (s.dev.word (BitVec.toNat s.dev.dma[3].cur)) 0 = false) ∧
  (let s : State := dmaA { st := .run, desc := some (v7 [0, 0, 0x8098A00, 16, 0x1001]), bound := some 4, buf := List.replicate 16 7 } [(0x880C0, 0x8A0001)] (links { st := .active })
   s.dev.coreOn = true ∧ dmaPresent s.part 3 = true ∧ s.dev.frozen (Master.dma 3) = false ∧ s.dev.dma[3].st = ChanState.run ∧
   s.dev.dma[3].desc = some (v7 [0, 0, 134842880, 16, 4097]) ∧ s.dev.dma[3].burst = 0 ∧
   (s.dev.dma[3].done < (s.dev.xferOf 3 (v7 [0, 0, 134842880, 16, 4097])).size ∨ s.dev.endRoom 3 (v7 [0, 0, 134842880, 16, 4097]) = false ∨ Dev.dmaGranted s.part s.dev 3 = false) ∧
   s.dev.dma[3].bound = some 4 ∧ s.dev.dma[3].shut ≠ some 4 ∧
   Dev.framed s.part s.dev 3 (s.dev.xferOf 3 (v7 [0, 0, 134842880, 16, 4097])) s.dev.dma[3].done = true ∧
   s.dev.dma[3].wholeBeats (s.dev.xferOf 3 (v7 [0, 0, 134842880, 16, 4097])) = [(134842880, List.replicate 16 7)] ∧
   inCascade ((s.dev.xferOf 3 (v7 [0, 0, 134842880, 16, 4097])).rangeOf s.dev.dma[3].done) = false ∧ s.dev.chanStream 3 = some 5 ∧
   List.lookup (↑5) s.dev.kl.opened = none ∧
   (∀ a ∈ (s.dev.xferOf 3 (v7 [0, 0, 134842880, 16, 4097])).reads { st := s.dev.dma[3].st, ringLat := s.dev.dma[3].ringLat, chain := s.dev.dma[3].chain, list := s.dev.dma[3].list, bound := s.dev.dma[3].bound, cur := s.dev.dma[3].cur, nextAt := s.dev.dma[3].nextAt, desc := s.dev.dma[3].desc, done := s.dev.dma[3].done + (List.replicate 16 7).length, halfRaised := s.dev.dma[3].halfRaised, buf := List.drop (List.replicate 16 7).length s.dev.dma[3].buf, seen := s.dev.dma[3].seen, tailIdle := s.dev.dma[3].tailIdle, cut := s.dev.dma[3].cut, abandon := s.dev.dma[3].abandon, goClear := s.dev.dma[3].goClear, reread := s.dev.dma[3].reread, atTail := s.dev.dma[3].atTail, shut := s.dev.dma[3].shut, askAt := s.dev.dma[3].askAt, readyAt := s.dev.dma[3].readyAt, burst := s.dev.dma[3].burst, flight := s.dev.dma[3].flight : Chan }.gotten (Chan.chunk s.part { st := s.dev.dma[3].st, ringLat := s.dev.dma[3].ringLat, chain := s.dev.dma[3].chain, list := s.dev.dma[3].list, bound := s.dev.dma[3].bound, cur := s.dev.dma[3].cur, nextAt := s.dev.dma[3].nextAt, desc := s.dev.dma[3].desc, done := s.dev.dma[3].done + (List.replicate 16 7).length, halfRaised := s.dev.dma[3].halfRaised, buf := List.drop (List.replicate 16 7).length s.dev.dma[3].buf, seen := s.dev.dma[3].seen, tailIdle := s.dev.dma[3].tailIdle, cut := s.dev.dma[3].cut, abandon := s.dev.dma[3].abandon, goClear := s.dev.dma[3].goClear, reread := s.dev.dma[3].reread, atTail := s.dev.dma[3].atTail, shut := s.dev.dma[3].shut, askAt := s.dev.dma[3].askAt, readyAt := s.dev.dma[3].readyAt, burst := s.dev.dma[3].burst, flight := s.dev.dma[3].flight : Chan } (s.dev.xferOf 3 (v7 [0, 0, 134842880, 16, 4097]))).1, reaches (Master.dma 3) (regionOf s.part a) = true) ∧
   (∀ i < { st := s.dev.dma[3].st, ringLat := s.dev.dma[3].ringLat, chain := s.dev.dma[3].chain, list := s.dev.dma[3].list, bound := s.dev.dma[3].bound, cur := s.dev.dma[3].cur, nextAt := s.dev.dma[3].nextAt, desc := s.dev.dma[3].desc, done := s.dev.dma[3].done + (List.replicate 16 7).length, halfRaised := s.dev.dma[3].halfRaised, buf := List.drop (List.replicate 16 7).length s.dev.dma[3].buf, seen := s.dev.dma[3].seen, tailIdle := s.dev.dma[3].tailIdle, cut := s.dev.dma[3].cut, abandon := s.dev.dma[3].abandon, goClear := s.dev.dma[3].goClear, reread := s.dev.dma[3].reread, atTail := s.dev.dma[3].atTail, shut := s.dev.dma[3].shut, askAt := s.dev.dma[3].askAt, readyAt := s.dev.dma[3].readyAt, burst := s.dev.dma[3].burst, flight := s.dev.dma[3].flight : Chan }.buf.length, Dev.framed s.part s.dev 3 (s.dev.xferOf 3 (v7 [0, 0, 134842880, 16, 4097])) ({ st := s.dev.dma[3].st, ringLat := s.dev.dma[3].ringLat, chain := s.dev.dma[3].chain, list := s.dev.dma[3].list, bound := s.dev.dma[3].bound, cur := s.dev.dma[3].cur, nextAt := s.dev.dma[3].nextAt, desc := s.dev.dma[3].desc, done := s.dev.dma[3].done + (List.replicate 16 7).length, halfRaised := s.dev.dma[3].halfRaised, buf := List.drop (List.replicate 16 7).length s.dev.dma[3].buf, seen := s.dev.dma[3].seen, tailIdle := s.dev.dma[3].tailIdle, cut := s.dev.dma[3].cut, abandon := s.dev.dma[3].abandon, goClear := s.dev.dma[3].goClear, reread := s.dev.dma[3].reread, atTail := s.dev.dma[3].atTail, shut := s.dev.dma[3].shut, askAt := s.dev.dma[3].askAt, readyAt := s.dev.dma[3].readyAt, burst := s.dev.dma[3].burst, flight := s.dev.dma[3].flight : Chan }.done + i) = false → reaches (Master.dma 3) (regionOf s.part ((s.dev.xferOf 3 (v7 [0, 0, 134842880, 16, 4097])).dstAt ({ st := s.dev.dma[3].st, ringLat := s.dev.dma[3].ringLat, chain := s.dev.dma[3].chain, list := s.dev.dma[3].list, bound := s.dev.dma[3].bound, cur := s.dev.dma[3].cur, nextAt := s.dev.dma[3].nextAt, desc := s.dev.dma[3].desc, done := s.dev.dma[3].done + (List.replicate 16 7).length, halfRaised := s.dev.dma[3].halfRaised, buf := List.drop (List.replicate 16 7).length s.dev.dma[3].buf, seen := s.dev.dma[3].seen, tailIdle := s.dev.dma[3].tailIdle, cut := s.dev.dma[3].cut, abandon := s.dev.dma[3].abandon, goClear := s.dev.dma[3].goClear, reread := s.dev.dma[3].reread, atTail := s.dev.dma[3].atTail, shut := s.dev.dma[3].shut, askAt := s.dev.dma[3].askAt, readyAt := s.dev.dma[3].readyAt, burst := s.dev.dma[3].burst, flight := s.dev.dma[3].flight : Chan }.done + i))) = true) ∧
   (List.replicate 16 7).length < s.dev.payCap (Dev.lineLink s.part s.dev) - 32 ∧
   (s.dev.stagedOf ↑5 + (List.replicate 16 7).length ≤ s.dev.stageLimit ∧ s.dev.stagedAll + 32 + (List.replicate 16 7).length < 65536)) ∧
  (let s : State := dmaA { st := .run, desc := some (v7 [0, 0, 0x8098A00, 16, 0x1001]), bound := some 4, buf := List.replicate 16 7 } [(0x880C0, 0x8A0001), (0x90000, 0x11)] (fun d => { d with kl := { d.kl with opened := [(6, ⟨3, 4, 0, {}, [], 0, 0⟩)], staged := List.replicate 70 (stg 0 (List.replicate 1024 0)) } })
   s.dev.coreOn = true ∧ dmaPresent s.part 3 = true ∧ s.dev.frozen (Master.dma 3) = false ∧ s.dev.dma[3].st = ChanState.run ∧
   s.dev.dma[3].desc = some (v7 [0, 0, 134842880, 16, 4097]) ∧ s.dev.dma[3].bound = some 4 ∧ s.dev.dma[3].burst = 0 ∧ s.dev.dma[3].shut ≠ some 4 ∧
   Dev.framed s.part s.dev 3 (s.dev.xferOf 3 (v7 [0, 0, 134842880, 16, 4097])) s.dev.dma[3].done = true ∧
   s.dev.dma[3].wholeBeats (s.dev.xferOf 3 (v7 [0, 0, 134842880, 16, 4097])) = [(134842880, List.replicate 16 7)] ∧
   inCascade ((s.dev.xferOf 3 (v7 [0, 0, 134842880, 16, 4097])).rangeOf s.dev.dma[3].done) = false ∧ s.dev.chanStream 3 = some 5 ∧
   List.lookup (↑5) s.dev.kl.opened = none ∧
   (∀ a ∈ (s.dev.xferOf 3 (v7 [0, 0, 134842880, 16, 4097])).reads { st := s.dev.dma[3].st, ringLat := s.dev.dma[3].ringLat, chain := s.dev.dma[3].chain, list := s.dev.dma[3].list, bound := s.dev.dma[3].bound, cur := s.dev.dma[3].cur, nextAt := s.dev.dma[3].nextAt, desc := s.dev.dma[3].desc, done := s.dev.dma[3].done + (List.replicate 16 7).length, halfRaised := s.dev.dma[3].halfRaised, buf := List.drop (List.replicate 16 7).length s.dev.dma[3].buf, seen := s.dev.dma[3].seen, tailIdle := s.dev.dma[3].tailIdle, cut := s.dev.dma[3].cut, abandon := s.dev.dma[3].abandon, goClear := s.dev.dma[3].goClear, reread := s.dev.dma[3].reread, atTail := s.dev.dma[3].atTail, shut := s.dev.dma[3].shut, askAt := s.dev.dma[3].askAt, readyAt := s.dev.dma[3].readyAt, burst := s.dev.dma[3].burst, flight := s.dev.dma[3].flight : Chan }.gotten (Chan.chunk s.part { st := s.dev.dma[3].st, ringLat := s.dev.dma[3].ringLat, chain := s.dev.dma[3].chain, list := s.dev.dma[3].list, bound := s.dev.dma[3].bound, cur := s.dev.dma[3].cur, nextAt := s.dev.dma[3].nextAt, desc := s.dev.dma[3].desc, done := s.dev.dma[3].done + (List.replicate 16 7).length, halfRaised := s.dev.dma[3].halfRaised, buf := List.drop (List.replicate 16 7).length s.dev.dma[3].buf, seen := s.dev.dma[3].seen, tailIdle := s.dev.dma[3].tailIdle, cut := s.dev.dma[3].cut, abandon := s.dev.dma[3].abandon, goClear := s.dev.dma[3].goClear, reread := s.dev.dma[3].reread, atTail := s.dev.dma[3].atTail, shut := s.dev.dma[3].shut, askAt := s.dev.dma[3].askAt, readyAt := s.dev.dma[3].readyAt, burst := s.dev.dma[3].burst, flight := s.dev.dma[3].flight : Chan } (s.dev.xferOf 3 (v7 [0, 0, 134842880, 16, 4097]))).1, reaches (Master.dma 3) (regionOf s.part a) = true) ∧
   (∀ i < { st := s.dev.dma[3].st, ringLat := s.dev.dma[3].ringLat, chain := s.dev.dma[3].chain, list := s.dev.dma[3].list, bound := s.dev.dma[3].bound, cur := s.dev.dma[3].cur, nextAt := s.dev.dma[3].nextAt, desc := s.dev.dma[3].desc, done := s.dev.dma[3].done + (List.replicate 16 7).length, halfRaised := s.dev.dma[3].halfRaised, buf := List.drop (List.replicate 16 7).length s.dev.dma[3].buf, seen := s.dev.dma[3].seen, tailIdle := s.dev.dma[3].tailIdle, cut := s.dev.dma[3].cut, abandon := s.dev.dma[3].abandon, goClear := s.dev.dma[3].goClear, reread := s.dev.dma[3].reread, atTail := s.dev.dma[3].atTail, shut := s.dev.dma[3].shut, askAt := s.dev.dma[3].askAt, readyAt := s.dev.dma[3].readyAt, burst := s.dev.dma[3].burst, flight := s.dev.dma[3].flight : Chan }.buf.length, Dev.framed s.part s.dev 3 (s.dev.xferOf 3 (v7 [0, 0, 134842880, 16, 4097])) ({ st := s.dev.dma[3].st, ringLat := s.dev.dma[3].ringLat, chain := s.dev.dma[3].chain, list := s.dev.dma[3].list, bound := s.dev.dma[3].bound, cur := s.dev.dma[3].cur, nextAt := s.dev.dma[3].nextAt, desc := s.dev.dma[3].desc, done := s.dev.dma[3].done + (List.replicate 16 7).length, halfRaised := s.dev.dma[3].halfRaised, buf := List.drop (List.replicate 16 7).length s.dev.dma[3].buf, seen := s.dev.dma[3].seen, tailIdle := s.dev.dma[3].tailIdle, cut := s.dev.dma[3].cut, abandon := s.dev.dma[3].abandon, goClear := s.dev.dma[3].goClear, reread := s.dev.dma[3].reread, atTail := s.dev.dma[3].atTail, shut := s.dev.dma[3].shut, askAt := s.dev.dma[3].askAt, readyAt := s.dev.dma[3].readyAt, burst := s.dev.dma[3].burst, flight := s.dev.dma[3].flight : Chan }.done + i) = false → reaches (Master.dma 3) (regionOf s.part ((s.dev.xferOf 3 (v7 [0, 0, 134842880, 16, 4097])).dstAt ({ st := s.dev.dma[3].st, ringLat := s.dev.dma[3].ringLat, chain := s.dev.dma[3].chain, list := s.dev.dma[3].list, bound := s.dev.dma[3].bound, cur := s.dev.dma[3].cur, nextAt := s.dev.dma[3].nextAt, desc := s.dev.dma[3].desc, done := s.dev.dma[3].done + (List.replicate 16 7).length, halfRaised := s.dev.dma[3].halfRaised, buf := List.drop (List.replicate 16 7).length s.dev.dma[3].buf, seen := s.dev.dma[3].seen, tailIdle := s.dev.dma[3].tailIdle, cut := s.dev.dma[3].cut, abandon := s.dev.dma[3].abandon, goClear := s.dev.dma[3].goClear, reread := s.dev.dma[3].reread, atTail := s.dev.dma[3].atTail, shut := s.dev.dma[3].shut, askAt := s.dev.dma[3].askAt, readyAt := s.dev.dma[3].readyAt, burst := s.dev.dma[3].burst, flight := s.dev.dma[3].flight : Chan }.done + i))) = true) ∧
   (List.replicate 16 7).length < s.dev.payCap (Dev.lineLink s.part s.dev) - 32 ∧
   (¬(s.dev.stagedOf ↑5 + (List.replicate 16 7).length ≤ s.dev.stageLimit ∧ s.dev.stagedAll + 32 + (List.replicate 16 7).length < 65536))) ∧
  (let s : State := dmaA { st := .tailWait, chain := true, cur := 0x2100 } []
   s.dev.coreOn = true ∧ dmaPresent s.part 3 = true ∧ s.dev.frozen (Master.dma 3) = false ∧ s.dev.dma[3].st = ChanState.tailWait ∧
   s.dev.dma[3].reread = false) := by
  refine ⟨?_, ?_, ?_, ?_, ?_, ?_, ?_, ?_, ?_, ?_, ?_, ?_⟩ <;> decide +kernel

theorem test_LinkBringUp_met :
  (let s : State := rig fun d => { sets [(0x90100, 1)] d with kl := { d.kl with pll := false } }
   s.dev.coreOn = true ∧ (∃ i, linkPresent s.part i = true ∧ bit (s.dev.lkCfg i) 0 = true) ∧ (∀ (i : LinkId), s.dev.kl.links[i].wakeDue = false) ∧
   s.mayWrite Master.mgmt (linkOff 0 0) ∧ linkPresent s.part 0 = true) ∧
  (let s : State := linkS 2 {}
   s.mayWrite Master.mgmt (linkOff 2 0) ∧ linkPresent s.part 2 = true ∧ bit (1#32) 0 = true ∧
   (s.dev.kl.links[2].st = LinkState.disabled ∧ linkPresent s.part 2 = true ∧ s.dev.recovery = false ∧ ¬(2 = 1 ∧ Dev.pairRole s.part s.dev = true)) ∧
   s.dev.kl.pll = true) ∧
  (let s : State := linkS 1 { st := .active }
   s.mayWrite Master.mgmt (linkOff 1 0) ∧ linkPresent s.part 1 = true ∧ bit (0#32) 0 = false ∧ s.dev.kl.links[1].st ≠ LinkState.disabled) ∧
  (let s : State := linkS 1 { st := .detect } {} (sets [(0x90200, 0x27)])
   s.dev.coreOn = true ∧ s.dev.kl.links[1].st = LinkState.detect ∧ s.dev.eqDef 1 = true) ∧
  (let s : State := linkS 0 { st := .train, ladder := 8 } { ready := true, partnerReady := true } (sets [(0x90100, 0x27)])
   s.dev.coreOn = true ∧ lanePresent s.part 1 = true ∧ s.dev.kl.links[laneLink 1].st = LinkState.train ∧ blockGood (ctlBlock 45 [1, 0]) = true ∧
   octet (ctlBlock 45 [1, 0]) 0 = 45 ∧ BitVec.toNat (octet (ctlBlock 45 [1, 0]) 2) = s.dev.kl.links[laneLink 1].rate ∧
   s.dev.eqDef (laneLink 1) = true ∧ s.dev.kl.links[0].st = LinkState.train ∧ s.dev.kl.lanes[firstLane 0].ready = true ∧
   s.dev.kl.lanes[firstLane 0].partnerReady = true) ∧
  (let s : State := linkS 0 { st := .train, ladder := 7 } { ready := true, partnerReady := true }
   s.dev.coreOn = true ∧ lanePresent s.part 1 = true ∧ s.dev.kl.links[laneLink 1].st = LinkState.train ∧
   (blockGood (ctlBlock 45 [1, 0] ^^^ 1) = false ∨ octet (ctlBlock 45 [1, 0] ^^^ 1) 0 = 45 ∧ BitVec.toNat (octet (ctlBlock 45 [1, 0] ^^^ 1) 2) ≠ s.dev.kl.links[laneLink 1].rate) ∧
   s.dev.kl.links[0].st = LinkState.train ∧ s.dev.kl.links[0].ladder < 8) ∧
  (let s : State := linkS 2 { st := .lock, resuming := true, wakeDue := true }
   s.dev.coreOn = true ∧ linkPresent s.part 2 = true ∧ s.dev.kl.links[2].st = LinkState.lock ∧ s.dev.kl.links[2].resuming = true ∧
   s.dev.kl.links[2].wakeDue = true ∧ s.dev.kl.lanes[firstLane 2].blockLock = false ∧
   (∀ (i : LinkId), i ≠ 2 → s.dev.kl.links[i].wakeDue = false ∧ bit (s.dev.lkCfg i) 0 = false)) := by
  refine ⟨?_, ?_, ?_, ?_, ?_, ?_, ?_⟩ <;> ((try dsimp only [State.mayWrite, State.portFree]); decide +kernel)

theorem test_LinkToActive_met :
  (let s : State := linkS 0 { st := .lock }
   s.dev.coreOn = true ∧ lanePresent s.part 1 = true ∧ s.dev.kl.links[laneLink 1].receives = true ∧ s.dev.kl.links[laneLink 1].resuming = false ∧
   s.dev.kl.links[0].st = LinkState.lock ∧ s.dev.kl.links[0].resuming = false ∧ s.dev.kl.lanes[firstLane 0].blockLock = false) ∧
  (let s : State := linkS 0 { st := .lock } { blockLock := true }
   s.dev.coreOn = true ∧ s.dev.kl.links[0].st = LinkState.lock ∧ s.dev.kl.links[0].resuming = false ∧ s.dev.kl.lanes[firstLane 0].blockLock = true) ∧
  (let s : State := linkS 2 { st := .exchange }
   s.dev.coreOn = true ∧ s.dev.kl.links[2].st = LinkState.exchange ∧ (¬([0#32].length = 41 ∧ crc32 (List.flatMap wordBytes [0#32]) = 0#32))) ∧
  (let s : State := linkS 2 { st := .exchange }
   s.dev.coreOn = true ∧ s.dev.kl.links[2].st = LinkState.exchange ∧
   ((List.replicate 41 0#32).length = 41 ∧ crc32 (List.flatMap wordBytes (List.replicate 41 0#32)) = crc32 (List.replicate 164 0)) ∧
   (2#8).getLsbD 0 = false) ∧
  (let s : State := linkS 2 { st := .exchange }
   s.dev.coreOn = true ∧ s.dev.kl.links[2].st = LinkState.exchange ∧
   ((List.replicate 41 0#32).length = 41 ∧ crc32 (List.flatMap wordBytes (List.replicate 41 0#32)) = crc32 (List.replicate 164 0)) ∧
   (1#8).getLsbD 0 = true) := by
  refine ⟨by decide +kernel, by decide +kernel, by decide +kernel,
    ⟨by decide +kernel, by decide +kernel, ⟨by decide +kernel, congrArg crc32 (by decide +kernel)⟩, by decide +kernel⟩,
    ⟨by decide +kernel, by decide +kernel, ⟨by decide +kernel, congrArg crc32 (by decide +kernel)⟩, by decide +kernel⟩⟩

theorem test_LinkLossDeepAndCommands_met :
  (let s : State := linkS 0 { st := .active, two := true, books := bks } { blockLock := true, signal := true } (sets [(0x90100, 0x11)])
   s.dev.coreOn = true ∧ lanePresent s.part 1 = true ∧ s.dev.kl.links[laneLink 1].st = LinkState.active ∧ 1 ∈ s.dev.usedLanes (laneLink 1) ∧
   s.dev.kl.lanes[1].blockLock = true ∧ blockGood (ctlBlock 85 [0]) = true ∧ octet (ctlBlock 85 [0]) 0 = 85 ∧
   (∀ f ∈ s.dev.kl.staged, f.link ≠ laneLink 1) ∧ octet (ctlBlock 85 [0]) 1 = 0 ∧ s.dev.kl.links[laneLink 1].deepReq = false ∧
   bit (s.dev.lkCfg (laneLink 1)) 4 = true ∧ s.mayWrite Master.mgmt (linkOff 0 4) ∧ linkPresent s.part 0 = true ∧
   s.dev.kl.links[0].st ≠ LinkState.disabled ∧ s.dev.kl.links[0].st = LinkState.active ∧ s.dev.kl.links[0].measuring = false ∧
   (s.dev.autoWake && s.dev.kl.staged.any (s.dev.maySend 0)) = false) ∧
  (let s : State := linkS 0 { st := .active, books := bks } { blockLock := true, signal := true }
   s.dev.coreOn = true ∧ lanePresent s.part 0 = true ∧ s.dev.kl.links[laneLink 0].st = LinkState.active ∧ blockGood (ctlBlock 85 [0]) = true ∧
   octet (ctlBlock 85 [0]) 0 = 85 ∧ (∀ f ∈ s.dev.kl.staged, f.link ≠ laneLink 0) ∧ octet (ctlBlock 85 [0]) 1 = 0 ∧
   s.dev.kl.links[laneLink 0].deepReq = false ∧ bit (s.dev.lkCfg (laneLink 0)) 4 = false) ∧
  (let s : State := linkS 0 { st := .active, books := bks, deepReq := true }
   s.dev.coreOn = true ∧ lanePresent s.part 0 = true ∧ s.dev.kl.links[laneLink 0].st = LinkState.active ∧ blockGood (ctlBlock 85 [1]) = true ∧
   octet (ctlBlock 85 [1]) 0 = 85 ∧ (∀ f ∈ s.dev.kl.staged, f.link ≠ laneLink 0) ∧ octet (ctlBlock 85 [1]) 1 = 1 ∧
   s.dev.kl.links[laneLink 0].deepReq = true) ∧
  (let s : State := linkS 0 { st := .active, books := bks, deepReq := true }
   s.dev.coreOn = true ∧ lanePresent s.part 0 = true ∧ s.dev.kl.links[laneLink 0].st = LinkState.active ∧ blockGood (ctlBlock 85 [2]) = true ∧
   octet (ctlBlock 85 [2]) 0 = 85 ∧ (∀ f ∈ s.dev.kl.staged, f.link ≠ laneLink 0) ∧ octet (ctlBlock 85 [2]) 1 = 2 ∧
   s.dev.kl.links[laneLink 0].deepReq = true ∧ s.dev.phase ≠ Phase.entering) ∧
  (let s : State := linkS 2 { st := .deep, books := bks }
   s.dev.phase = Phase.run ∧ lanePresent s.part 3 = true ∧ s.dev.kl.links[laneLink 3].st = LinkState.deep ∧ 3 ∈ s.dev.usedLanes (laneLink 3) ∧
   s.mayWrite Master.mgmt (linkOff 2 4) ∧ linkPresent s.part 2 = true ∧ s.dev.kl.links[2].st = LinkState.deep) ∧
  (let s : State := linkS 2 { st := .deep, books := bks } {} (fun d => { sets [(0xD0000, 4)] d with phase := .standby })
   s.dev.phase = Phase.standby ∧ lanePresent s.part 3 = true ∧ s.dev.kl.links[laneLink 3].st = LinkState.deep ∧ bit (s.dev.reg 851968) 2 = true) ∧
  (let s : State := linkS 0 { st := .lock, resuming := true, two := true } { blockLock := true, woke := true }
   s.dev.coreOn = true ∧ lanePresent s.part 1 = true ∧ s.dev.kl.links[laneLink 1].st = LinkState.lock ∧ s.dev.kl.links[laneLink 1].resuming = true ∧
   s.dev.kl.pll = true ∧ blockGood (ctlBlock 102 []) = true ∧ (octet (ctlBlock 102 []) 0 = 102 ∨ octet (ctlBlock 102 []) 0 = 30) ∧
   (∀ i ∈ s.dev.usedLanes (laneLink 1), s.dev.kl.lanes[i].blockLock = true ∧ (i ≠ 1 → s.dev.kl.lanes[i].woke = true)) ∧
   s.dev.kl.links[0].resuming = true) := by
  refine ⟨?_, ?_, ?_, ?_, ?_, ?_, ?_⟩ <;> ((try dsimp only [State.mayWrite, State.portFree]); decide +kernel)

theorem test_LinkTraffic_met :
  (let s : State := linkS 0 { st := .active, books := bks, maxPay := 4064, two := true, unrep := [64] } {} (fun d => { d with kl := { d.kl with staged := [stg 0] } })
   s.dev.coreOn = true ∧ (0 ≠ 0 ∨ s.dev.pwr.tFifo = []) ∧ s.dev.kl.links[0].deepWant = false ∧ s.dev.ltxRoom 0 = true ∧ s.dev.kl.staged = [stg 0] ∧
   s.dev.maySend 0 (stg 0) = true ∧ s.dev.kl.links[0].st = LinkState.active ∧
   (¬crc32 (List.flatMap wordBytes [frame1.w0, frame1.w1, frame1.w2, frame1.w3] ++ frame1.payload ++ List.replicate (framePad frame1.payload.length) 0) = frame1.crc) ∧
   lanePresent s.part 0 = true ∧ s.dev.kl.links[laneLink 0].st = LinkState.active ∧ s.dev.kl.links[laneLink 0].measuring = false ∧
   0 ∈ s.dev.usedLanes (laneLink 0) ∧ s.dev.creditDue 0 = true ∧ s.dev.ltxRoom (laneLink 0) = true ∧ s.dev.kl.links[laneLink 0].unrep = [64] ∧
   blockGood (ctlBlock 75 [64, 4, 0, 127]) = true ∧ octet (ctlBlock 75 [64, 4, 0, 127]) 0 = 75 ∧
   octet (ctlBlock 75 [64, 4, 0, 127]) 1 = BitVec.ofNat 8 ↑64 ∧ octet (ctlBlock 75 [64, 4, 0, 127]) 4 = 127 ∧
   s.dev.kl.links[laneLink 0].books[64].avail + BitVec.toNat (octets2 (ctlBlock 75 [64, 4, 0, 127]) 2 - s.dev.kl.links[laneLink 0].books[64].cumIn) ≤ s.dev.kl.links[laneLink 0].books[64].partner ∧
   s.mayWrite Master.mgmt (linkOff 0 44) ∧ linkPresent s.part 0 = true ∧ s.dev.kl.links[0].measuring = false ∧ 255#8 ≠ 0) ∧
  (let s : State := linkS 2 { st := .active, books := bks, maxPay := 4064 } {} (fun d => { d with kl := { d.kl with staged := [stg 0] } })
   s.dev.coreOn = true ∧ (2 ≠ 0 ∨ s.dev.pwr.tFifo = []) ∧
   (s.dev.ltxRoom 2 = false ∨ s.dev.kl.links[2].deepWant = false ∧ ∀ f ∈ s.dev.kl.staged, s.dev.maySend 2 f = false) ∧
   s.dev.kl.links[2].st = LinkState.active ∧
   crc32 (List.flatMap wordBytes [frame2.w0, frame2.w1, frame2.w2, frame2.w3] ++ frame2.payload ++ List.replicate (framePad frame2.payload.length) 0) = frame2.crc ∧
   frame2.stray = false ∧ fld frame2.w0 8 8 = 2 ∧ fld frame2.w0 0 7 = 64 ∧ BitVec.toNat frame2.sofVc = 64 ∧
   fld frame2.w0 16 16 ≤ s.dev.kl.links[2].maxPay ∧ frame2.payload.length = fld frame2.w0 16 16 ∧
   frame2.blocks = (16 + fld frame2.w0 16 16 + framePad (fld frame2.w0 16 16) + 4) / 8 ∧
   messages (fld frame2.w0 16 16 / 8) frame2.payload = [(5, 119#32, some [3, 9])] ∧ msgKept 2 5 = true ∧ 5 ≠ 3 ∧
   s.dev.kl.links[2].books[64].held + frameUnits (fld frame2.w0 16 16) ≤ s.dev.kl.links[2].books[64].own ∧
   (2 ≠ 2 ∨ ∀ (q : Half), s.dev.kl.links[2].books[64].fseqIn = some q → q + 1 = BitVec.extractLsb' 0 16 frame2.w1) ∧ lanePresent s.part 3 = true ∧
   s.dev.kl.links[laneLink 3].st = LinkState.active ∧ blockGood (ctlBlock 75 [0, 100, 0, 127]) = true ∧ octet (ctlBlock 75 [0, 100, 0, 127]) 0 = 75 ∧
   octet (ctlBlock 75 [0, 100, 0, 127]) 1 = BitVec.ofNat 8 ↑0 ∧ octet (ctlBlock 75 [0, 100, 0, 127]) 4 = 127 ∧
   s.dev.kl.links[laneLink 3].books[0].partner < s.dev.kl.links[laneLink 3].books[0].avail + BitVec.toNat (octets2 (ctlBlock 75 [0, 100, 0, 127]) 2 - s.dev.kl.links[laneLink 3].books[0].cumIn)) ∧
  (let s : State := linkS 0 { st := .active, books := bks }
   s.dev.coreOn = true ∧ lanePresent s.part 1 = true ∧ s.dev.kl.links[laneLink 1].st = LinkState.active ∧
   s.dev.kl.links[laneLink 1].measuring = false ∧ blockGood (ctlBlock 45 [2, 0, 0, 0, 255]) = true ∧ octet (ctlBlock 45 [2, 0, 0, 0, 255]) 0 = 45 ∧
   BitVec.toNat (octet (ctlBlock 45 [2, 0, 0, 0, 255]) 2) = s.dev.kl.links[laneLink 1].rate ∧
   BitVec.getLsbD (octet (ctlBlock 45 [2, 0, 0, 0, 255]) 1) 1 = true ∧ octet (ctlBlock 45 [2, 0, 0, 0, 255]) 5 ≠ 0) ∧
  (let s : State := linkS 0 { st := .active, measuring := true, meas := 255 } { blockLock := true }
   s.dev.coreOn = true ∧ lanePresent s.part 1 = true ∧ s.dev.kl.links[0].receives = true ∧ blockGood (ctlBlock 153 [1, 255, 255]) = true ∧
   octet (ctlBlock 153 [1, 255, 255]) 0 = 153 ∧ ↑1 < 2 ∧ s.dev.kl.links[0].measuring = true ∧
   (∀ i ∈ s.dev.usedLanes 0, s.dev.kl.lanes[i].blockLock = true)) := by
  refine ⟨?_, ?_, ?_, ?_⟩ <;> ((try dsimp only [State.mayWrite, State.portFree]); decide +kernel)

theorem test_HousekeepingSequence_met :
  (let s : State := hkS id
   s.part.hkin ≠ 0 ∧ s.mayWrite Master.mgmt 655364 ∧ s.dev.hk.seq = HkSeq.idle ∧ s.dev.hk.conv = none ∧ s.dev.hk.slot[0] = none ∧
   s.dev.hk.slot[1] = none ∧ s.mayWrite Master.mgmt (655872 + 16 * ↑15) ∧ (¬(s.part.hkin ≤ fld (1073741815#32) 0 4 ∧ fld (1073741815#32) 0 4 < 8)) ∧
   0 ≠ 655872 + 16 * ↑15) ∧
  (let s : State := hkS fun h => { h with seq := .run, conv := some cv, crossing := [1], slot := #v[none, some 15] }
   s.part.hkin ≠ 0 ∧ s.mayWrite Master.mgmt 655364 ∧ s.dev.hk.seq ≠ HkSeq.idle ∧ s.dev.hk.conv = some cv ∧ s.dev.hk.seq = HkSeq.run ∧
   s.dev.up = true ∧ s.dev.coreOn = true ∧ s.dev.hk.crossing = [1] ∧ bit (s.dev.reg 655360) (5 + ↑1) = false ∧ cv.urgent = none ∧
   s.dev.hk.slot[1] = some 15 ∧ (∀ (w : Fin 2), w ≠ 1 → s.dev.hk.slot[w] = none)) ∧
  (let s : State := hkS (fun h => { h with seq := .wait, conv := some cv1, crossing := [1], slot := #v[some 3, some 5] }) (sets [(0xA0000, 0x60)])
   s.part.hkin ≠ 0 ∧ s.mayWrite Master.mgmt 655364 ∧ s.dev.hk.conv = some cv1 ∧ s.dev.hk.seq = HkSeq.wait ∧ s.dev.coreOn = true ∧
   s.dev.hk.crossing = [1] ∧ bit (s.dev.reg 655360) (5 + ↑1) = true) ∧
  (let s : State := hkS (fun h => { h with seq := .wait, conv := some cv1, crossing := [1], slot := #v[some 3, some 5] })
   s.dev.coreOn = true ∧ s.part.hkin ≠ 0 ∧ s.dev.hk.crossing = [1] ∧ s.dev.hk.conv = some cv1 ∧ bit (s.dev.reg 655360) (5 + ↑1) = false ∧
   cv1.urgent ≠ none) ∧
  (let s : State := hkS (fun h => { h with seq := .wait, crossing := [0], slot := #v[some 0, none] })
   s.dev.coreOn = true ∧ s.part.hkin ≠ 0 ∧ s.dev.hk.crossing = [0] ∧ s.dev.hk.conv = none ∧ s.dev.hk.slot[0] = some 0 ∧
   (∀ (w : Fin 2), w ≠ 0 → s.dev.hk.slot[w] = none)) ∧
  (let s : State := hkS (fun h => { h with seq := .wait })
   s.part.hkin ≠ 0 ∧ s.mayWrite Master.mgmt 655364 ∧ s.dev.hk.conv = none ∧ s.dev.hk.slot[0] = none ∧ s.dev.hk.slot[1] = none ∧
   s.dev.hk.seq = HkSeq.wait ∧ s.dev.up = true) ∧
  (let s : State := ⟨[], partOf .yk4840, (rig : State).dev⟩
   s.part.hkin ≠ 0 ∧ s.mayWrite Master.mgmt (655872 + 16 * ↑0) ∧ s.part.hkin ≤ fld (4#32) 0 4 ∧ fld (4#32) 0 4 < 8) := by
  refine ⟨?_, ?_, ?_, ?_, ?_, ?_, ?_⟩ <;> ((try dsimp only [State.mayWrite, State.portFree]); decide +kernel)

theorem test_HousekeepingConversion_met :
  (let s : State := hkS fun h => { h with conv := some cv, lastRef := some 5, refSettled := true }
   s.dev.phase = Phase.run ∧ s.part.hkin ≠ 0 ∧ s.dev.hk.conv = some cv ∧ cv.stage = ConvStage.settle ∧ s.dev.hk.refSettled = true) ∧
  (let s : State := hkS fun h => { h with conv := some cv }
   s.dev.phase = Phase.run ∧ s.part.hkin ≠ 0 ∧ s.dev.hk.conv = some cv ∧ cv.stage = ConvStage.settle ∧ s.dev.hk.refSettled = false) ∧
  (let s : State := hkS fun h => { h with conv := some cv2 }
   s.dev.phase = Phase.run ∧ s.part.hkin ≠ 0 ∧ s.dev.hk.conv = some cv2 ∧ cv2.stage = ConvStage.integrate ∧ (entWire cv2.cfg = 2 ∧ cv2.phaseB = false)) ∧
  (let s : State := hkS fun h => { h with conv := some cv3 }
   s.dev.phase = Phase.run ∧ s.part.hkin ≠ 0 ∧ s.dev.hk.conv = some cv3 ∧ cv3.stage = ConvStage.integrate ∧ (entWire cv3.cfg ≠ 2 ∨ cv3.phaseB = true)) ∧
  (let s : State := hkS fun h => { h with conv := some cv4 }
   s.dev.phase = Phase.run ∧ s.part.hkin ≠ 0 ∧ s.dev.hk.conv = some cv4 ∧ cv4.stage = ConvStage.comp ∧
   ((s.dev.evaluate cv4).1 = 3 ∧ bit cv4.cfg 20 = true ∧ 0 < cv4.icode ∧ cv4.again = false)) ∧
  (let s : State := hkS (fun h => { h with seq := .run, conv := some cv5 })
   s.dev.phase = Phase.run ∧ s.part.hkin ≠ 0 ∧ s.dev.hk.conv = some cv5 ∧ cv5.stage = ConvStage.comp ∧
   (¬((s.dev.evaluate cv5).1 = 3 ∧ bit cv5.cfg 20 = true ∧ 0 < cv5.icode ∧ cv5.again = false)) ∧ s.dev.crossRoom 7 = true ∧
   (∀ (k : HkEnt), s.dev.hk.kept[k] = none) ∧ (s.dev.evaluate cv5).1 = 0 ∧ cv5.urgent = none ∧ s.dev.hk.seq = HkSeq.run ∧
   fld (s.dev.reg 655360) 0 4 ≤ ↑cv5.entry ∧ cv5.refFault = false ∧ entCh cv5.cfg < 8 ∧ entWire cv5.cfg = 0 ∧ entRef cv5.cfg = 0 ∧
   entCurve cv5.cfg = 0 ∧ cv5.meas = [meas 2499999701] ∧ -8388607 ≤ rdiv ((meas 2499999701).vin * 2 ^ fld cv5.cfg 4 3 * 2 ^ 23) 2500000000 ∧
   rdiv ((meas 2499999701).vin * 2 ^ fld cv5.cfg 4 3 * 2 ^ 23) 2500000000 ≤ 8388607) ∧
  (let s : State := hkS (fun h => { h with seq := .run, conv := some cv6 }) (sets [(0xA0000, 7)])
   s.dev.phase = Phase.run ∧ s.part.hkin ≠ 0 ∧ s.dev.hk.conv = some cv6 ∧ cv6.stage = ConvStage.comp ∧
   (¬((s.dev.evaluate cv6).1 = 3 ∧ bit cv6.cfg 20 = true ∧ 0 < cv6.icode ∧ cv6.again = false)) ∧ s.dev.crossRoom 7 = true ∧
   (∀ (k : HkEnt), s.dev.hk.kept[k] = none) ∧ (s.dev.evaluate cv6).1 ≠ 0 ∧ cv6.urgent = none ∧ s.dev.hk.seq = HkSeq.run ∧
   ↑cv6.entry < fld (s.dev.reg 655360) 0 4 ∧ cv6.refFault = false ∧ entCh cv6.cfg < 8 ∧ entWire cv6.cfg = 0 ∧ entRef cv6.cfg = 0 ∧
   entCurve cv6.cfg = 0 ∧ cv6.meas = [meas 2500000000] ∧ 8388607 < rdiv ((meas 2500000000).vin * 2 ^ fld cv6.cfg 4 3 * 2 ^ 23) 2500000000) ∧
  (let s : State := hkS (fun h => { h with seq := .stopping, conv := some cv7 })
   s.dev.phase = Phase.run ∧ s.part.hkin ≠ 0 ∧ s.dev.hk.conv = some cv7 ∧ cv7.stage = ConvStage.comp ∧
   (¬((s.dev.evaluate cv7).1 = 3 ∧ bit cv7.cfg 20 = true ∧ 0 < cv7.icode ∧ cv7.again = false)) ∧ s.dev.crossRoom 7 = true ∧
   (∀ (k : HkEnt), s.dev.hk.kept[k] = none) ∧ cv7.urgent = none ∧ s.dev.hk.seq = HkSeq.stopping ∧ cv7.refFault = false ∧ entCh cv7.cfg < 8 ∧
   entWire cv7.cfg = 0 ∧ entRef cv7.cfg = 0 ∧ entCurve cv7.cfg = 0 ∧ cv7.meas = [meas (-2500000000)] ∧
   rdiv ((meas (-2500000000)).vin * 2 ^ fld cv7.cfg 4 3 * 2 ^ 23) 2500000000 < -8388607) ∧
  (let s : State := hkS (fun h => { h with conv := some cv8 })
   s.dev.phase = Phase.run ∧ s.part.hkin ≠ 0 ∧ s.dev.hk.conv = some cv8 ∧ cv8.refFault = true) ∧
  (let s : State := hkS (fun h => { h with conv := some cv6 }) (fun d => { d with fifo := d.fifo.set 7 [1, 1, 2, 3] })
   s.dev.phase = Phase.run ∧ s.part.hkin ≠ 0 ∧ s.dev.hk.conv = some cv6 ∧ cv6.stage = ConvStage.comp ∧
   (¬((s.dev.evaluate cv6).1 = 3 ∧ bit cv6.cfg 20 = true ∧ 0 < cv6.icode ∧ cv6.again = false)) ∧
   (s.dev.crossRoom 7 = false ∨ ∃ k : HkEnt, s.dev.hk.kept[k] ≠ none)) := by
  refine ⟨?_, ?_, ?_, ?_, ?_, ?_, ?_, ?_, ?_, ?_⟩ <;> decide +kernel

theorem test_WatchdogA_met :
  (let s : State := rig
   s.mayWrite Master.mgmt 720900 ∧ s.dev.wdt.aRun = false ∧ s.mayWrite Master.mgmt 720904) ∧
  (let s : State := wdtS (fun w => { w with aRun := true, aOpen := true, svc := [(0xA5, 0x1004, 7)] }) (fun d => d.updCtx 0 fun _ => live)
   s.mayWrite (Master.ctx 0) 720900 ∧ s.dev.wdt.aRun = true ∧ s.mayWrite (Master.ctx 0) 720904 ∧ s.dev.phase ≠ Phase.inReset ∧
   s.dev.wdt.aEarly = false ∧ s.dev.phase = Phase.run ∧ s.dev.wdt.svc = [(165#8, 4100#32, 7#32)] ∧ s.dev.wdt.aOpen = true ∧ 165#8 = 165 ∧
   s.dev.wdt.seqArm = false) ∧
  (let s : State := wdtS (fun w => { w with aRun := true, aOpen := true, seqArm := true, svc := [(0x5A, 0x1004, 7)] }) (fun d => { d with phase := .standby })
   s.dev.phase ≠ Phase.inReset ∧ s.dev.wdt.aRun = true ∧ s.dev.wdt.aEarly = false ∧ s.dev.phase = Phase.standby ∧
   s.dev.wdt.svc = [(90#8, 4100#32, 7#32)] ∧ s.dev.wdt.aOpen = true ∧ 90#8 = 90 ∧ s.dev.wdt.seqArm = true) ∧
  (let s : State := wdtS (fun w => { w with aRun := true, aOpen := true, svc := [(0x5A, 0x1004, 7)] })
   s.dev.phase ≠ Phase.inReset ∧ s.dev.wdt.svc = [(90#8, 4100#32, 7#32)] ∧ s.dev.wdt.aOpen = true ∧ (¬(90#8 = 165 ∧ s.dev.wdt.seqArm = false)) ∧
   (¬(90#8 = 90 ∧ s.dev.wdt.seqArm = true))) ∧
  (let s : State := wdtS (fun w => { w with aRun := true, svc := [(0x5A, 0x1004, 7)] }) (fun d => d.updCtx 0 fun x => { x with load := some ⟨0,4,0,0,none⟩ })
   s.dev.phase ≠ Phase.inReset ∧ s.dev.wdt.svc = [(90#8, 4100#32, 7#32)] ∧ s.dev.wdt.aOpen = false ∧ s.dev.traced 0 = false ∧
   s.dev.ctx[0].atBoundary = false ∧ s.dev.recordsNow = [] ∧ (s.dev.ctx[0].atBoundary = false ∨ s.dev.ctx[0].due = { : Boundary })) ∧
  (let s : State := wdtS (fun w => { w with aRun := true, svc := [(0x5A, 0x1004, 7)] })
   s.dev.phase ≠ Phase.inReset ∧ s.dev.wdt.svc = [(90#8, 4100#32, 7#32)] ∧ s.dev.wdt.aOpen = false ∧ s.dev.traced 0 = false ∧
   s.dev.ctx[0].atBoundary = true ∧ s.dev.ctx[0].due = { : Boundary }) := by
  refine ⟨?_, ?_, ?_, ?_, ?_, ?_⟩ <;> ((try dsimp only [State.mayWrite, State.portFree]); decide +kernel)

theorem test_WatchdogB_met :
  (let s : State := rig
   s.mayWrite Master.mgmt 721152 ∧ s.dev.wdt.bRun = false ∧ s.mayWrite Master.mgmt 721160 ∧ BitVec.extractLsb' 0 8 60#32 = 60 ∧
   (s.dev.wdt.bKeyAt = none ∨ s.dev.wdt.bKeyOk = true) ∧ s.mayWrite Master.debug 721664 ∧ s.dev.wdt.attached = false ∧ s.dev.up = true) ∧
  (let s : State := wdtS (fun w => { w with bRun := true, bKeyAt := some 0, bKeyOk := true, captures := [0x80], keys := [7], attached := true }) (fun d => { sets [(0xB0100, 5), (0xB013C, 0xFF)] d with cycle := 256 })
   s.mayWrite Master.mgmt 721152 ∧ s.dev.wdt.bRun = true ∧
   ((s.dev.wdt.bKeyOk && match s.dev.wdt.bKeyAt with | some t0 => decide (s.dev.cycle ≤ t0 + 256) | none => false) && !s.dev.wdt.bLock) = true ∧
   bit (1#32) 0 = true ∧ s.mayWrite Master.mgmt 721160 ∧
   (¬(BitVec.extractLsb' 0 8 1#32 = 60 ∧ (s.dev.wdt.bKeyAt = none ∨ s.dev.wdt.bKeyOk = true))) ∧
   (¬(BitVec.extractLsb' 0 8 1#32 = 195 ∧ s.dev.wdt.bKeyAt ≠ none ∧ s.dev.wdt.bKeyOk = false)) ∧ s.mayWrite Master.debug 721664 ∧
   s.dev.wdt.attached = true ∧ s.dev.up = true ∧ s.dev.wdt.keys = [7] ∧ s.dev.wdt.bHold = false ∧
   (∃ j, (fun j => bit (s.dev.slotReg j) 7 && bit (s.dev.slotReg j) 6) j = true ∧ BitVec.getLsbD s.dev.wdt.bSeen ↑j = false) ∧
   s.dev.phase = Phase.run ∧ s.dev.wdt.captures = [128#8] ∧ fld (s.dev.reg 721152) 2 2 ≤ 1 ∧ fld (s.dev.reg 721152) 2 2 = 1) ∧
  (let s : State := wdtS (fun w => { w with bRun := true, bKeyAt := some 0, bKeyOk := false, captures := [0x80], keys := [7] }) (fun d => { sets [(0xB0100, 9)] d with cycle := 257 })
   s.mayWrite Master.mgmt 721152 ∧ s.dev.wdt.bRun = true ∧
   ((s.dev.wdt.bKeyOk && match s.dev.wdt.bKeyAt with | some t0 => decide (s.dev.cycle ≤ t0 + 256) | none => false) && !s.dev.wdt.bLock) = false ∧
   s.mayWrite Master.mgmt 721160 ∧ BitVec.extractLsb' 0 8 195#32 = 195 ∧ s.dev.wdt.bKeyAt ≠ none ∧ s.dev.wdt.bKeyOk = false ∧ s.dev.up = true ∧
   s.dev.wdt.bHold = false ∧
   (∀ (j : Fin 8), (fun j => bit (s.dev.slotReg j) 7 && bit (s.dev.slotReg j) 6) j = true → BitVec.getLsbD s.dev.wdt.bSeen ↑j = true) ∧
   s.dev.phase = Phase.run ∧ s.dev.wdt.captures = [128#8] ∧ 2 ≤ fld (s.dev.reg 721152) 2 2) ∧
  (let s : State := wdtS (fun w => { w with captures := [0x01] })
   s.dev.phase = Phase.run ∧ s.dev.wdt.captures = [1#8] ∧ fld (s.dev.reg 721152) 2 2 = 0) := by
  refine ⟨?_, ?_, ?_, ?_⟩ <;> ((try dsimp only [State.mayWrite, State.portFree]); decide +kernel)

theorem test_ChainEnumeration_met :
  (let s : State := casS { strap := 0 }
   s.dev.coreOn = true ∧ s.part.casc = true ∧ Dev.role s.part s.dev = 0 ∧
   ((s.dev.isNext fun x => x.mtype == 16 && fld (x.body.headD 0) 0 4 == (1#4).toNat) = true) ∧ s.dev.cas.addr = 15 ∧ s.dev.pins.chnI = true ∧
   s.dev.kl.links[1].st = LinkState.active ∧ ((s.dev.isNext fun x => x.mtype == 17 && fld (x.body.headD 0) 0 4 == (1#4).toNat) = true) ∧
   ((s.dev.isNext fun x => x.mtype == 18 && fld (x.body.headD 0) 0 4 == (1#4).toNat) = true)) ∧
  (let s : State := casS { strap := 0, addr := 7, timer := true }
   s.dev.coreOn = true ∧ s.part.casc = true ∧ Dev.role s.part s.dev = 0 ∧
   ((s.dev.isNext fun x => x.mtype == 16 && fld (x.body.headD 0) 0 4 == (7#4).toNat) = true) ∧ s.dev.cas.addr ≠ 15 ∧ 7#4 = s.dev.cas.addr ∧
   s.dev.cas.timer = true) ∧
  (let s : State := casS { strap := 0, addr := 7 }
   s.dev.coreOn = true ∧ s.part.casc = true ∧ Dev.role s.part s.dev = 0 ∧
   ((s.dev.isNext fun x => x.mtype == 16 && fld (x.body.headD 0) 0 4 == (8#4).toNat) = true) ∧ s.dev.cas.addr = 7 ∧ 8#4 = 8) ∧
  (let s : State := casS { strap := 0, addr := 6 }
   s.dev.coreOn = true ∧ s.part.casc = true ∧ Dev.role s.part s.dev = 0 ∧
   ((s.dev.isNext fun x => x.mtype == 16 && fld (x.body.headD 0) 0 4 == (7#4).toNat) = true) ∧ s.dev.cas.addr.toNat < (7#4).toNat ∧
   s.dev.cas.addr ≠ 15 ∧ (¬(s.dev.cas.addr = 7 ∧ 7#4 = 8))) ∧
  (let s : State := casS { strap := 0, addr := 1 }
   s.dev.coreOn = true ∧ s.part.casc = true ∧ Dev.role s.part s.dev = 0 ∧
   ((s.dev.isNext fun x => x.mtype == 16 && fld (x.body.headD 0) 0 4 == (0#4).toNat) = true) ∧ s.dev.cas.addr ≠ 15 ∧
   (0#4).toNat < s.dev.cas.addr.toNat) ∧
  (let s : State := casS { strap := 1, enumerating := true }
   s.dev.coreOn = true ∧ s.part.casc = true ∧ Dev.role s.part s.dev ≠ 0 ∧
   ((s.dev.isNext fun x => x.mtype == 16 && fld (x.body.headD 0) 0 4 == (15#4).toNat) = true) ∧
   ((s.dev.isNext fun x => x.mtype == 17 && fld (x.body.headD 0) 0 4 == (15#4).toNat) = true) ∧ s.dev.cas.enumerating = true ∧
   ((s.dev.isNext fun x => x.mtype == 18 && fld (x.body.headD 0) 0 4 == (15#4).toNat) = true) ∧ s.mayWrite Master.mgmt 786436 ∧
   Dev.role s.part s.dev = 1) := by
  refine ⟨?_, ?_, ?_, ?_, ?_, ?_⟩ <;> ((try dsimp only [State.mayWrite, State.portFree]); decide +kernel)

theorem test_ChainMembersAndTimebase_met :
  (let s : State := casS { strap := 0 }
   s.dev.coreOn = true ∧ s.part.casc = true ∧ Dev.role s.part s.dev = 0 ∧
   ((s.dev.isNext fun x => x.mtype == 19 && (fun b => b.headD 0 == 4294967295#32 && fld ((List.drop 1 b).headD 0) 0 18 == (2048#18).toNat) x.body) = true) ∧
   s.dev.downOk = false ∧ ((s.dev.isNext fun x => x.mtype == 20 && (fun x => true) x.body) = true) ∧
   ((s.dev.isNext fun x => x.mtype == 21 && (fun b => fld (b.headD 0) 0 8 == (3#8).toNat && fld (b.headD 0) 8 8 == (255#8).toNat) x.body) = true) ∧
   ((s.dev.isNext fun x => x.mtype == 22 && (fun b => fld (b.headD 0) 0 16 == (3#16).toNat) x.body) = true) ∧
   List.lookup (3#16).toNat s.dev.cas.lsStb = none) ∧
  (let s : State := casS { strap := 0, lsStb := [(3, 5)], joined := true } (sets [(0xC0004, 2)])
   s.dev.coreOn = true ∧ s.part.casc = true ∧ Dev.role s.part s.dev = 0 ∧
   ((s.dev.isNext fun x => x.mtype == 19 && (fun b => b.headD 0 == 4294967295#32 && fld ((List.drop 1 b).headD 0) 0 18 == (2048#18).toNat) x.body) = true) ∧
   Dev.slaved s.part s.dev = true ∧ ((s.dev.isNext fun x => x.mtype == 22 && (fun b => fld (b.headD 0) 0 16 == (3#16).toNat) x.body) = true) ∧
   List.lookup (3#16).toNat s.dev.cas.lsStb = some 5#48 ∧ Dev.hearsLsync s.part s.dev = true ∧ 30 ≤ 33 ∧ 33 ≤ 34) ∧
  (let s : State := rig
   s.dev.coreOn = true ∧ s.part.casc = true ∧ Dev.role s.part s.dev = 1 ∧ Dev.chainMode s.part s.dev = 0) ∧
  (let s : State := casS { strap := 0 } (fun d => { d with kl := { d.kl with links := Vector.replicate 3 { st := .active, maxPay := 1024 } } })
   s.dev.coreOn = true ∧ s.part.casc = true ∧ Dev.role s.part s.dev = 0 ∧
   ((s.dev.isNext fun x => x.mtype == 19 && (fun b => b.headD 0 == 4294967295#32 && fld ((List.drop 1 b).headD 0) 0 18 == (2048#18).toNat) x.body) = true) ∧
   s.dev.downOk = true ∧ ((s.dev.isNext fun x => x.mtype == 20 && (fun x => true) x.body) = true) ∧
   ((s.dev.isNext fun x => x.mtype == 21 && (fun b => fld (b.headD 0) 0 8 == (3#8).toNat && fld (b.headD 0) 8 8 == (255#8).toNat) x.body) = true) ∧
   ((s.dev.isNext fun x => x.mtype == 22 && (fun b => fld (b.headD 0) 0 16 == (3#16).toNat) x.body) = true)) ∧
  (let s : State := casS { strap := 0, joined := true } (sets [(0xC0004, 2)])
   s.dev.coreOn = true ∧ s.part.casc = true ∧ Dev.hearsLsync s.part s.dev = true ∧ 6 ≤ 6 ∧ 6 ≤ 10 ∧ Dev.slaved s.part s.dev = true ∧
   s.dev.freeSlot = some (free (slotS 0 { : Slot }))) ∧
  (let s : State := casS { strap := 0, joined := true } (sets [(0xC0004, 2)])
   s.dev.coreOn = true ∧ s.part.casc = true ∧ Dev.hearsLsync s.part s.dev = true ∧ (∀ w ∈ [8, 16, 24, 32], 12 + 2 < w ∨ w + 2 < 12)) ∧
  (let s : State := casS { strap := 0, joined := true } (fun d => { sets [(0xC0004, 2)] d with ls := {} })
   s.dev.coreOn = true ∧ s.part.casc = true ∧ Dev.hearsLsync s.part s.dev = true ∧ 6 ≤ 10 ∧ 10 ≤ 10 ∧ Dev.slaved s.part s.dev = true ∧
   s.dev.freeSlot = none) := by
  refine ⟨?_, ?_, ?_, ?_, ?_, ?_, ?_⟩ <;> decide +kernel

theorem test_CascadeSegments_met :
  (let s : State := slotS 4 { st := .fill, line := 77 }
   s.dev.coreOn = true ∧ s.part.casc = true ∧ s.dev.frozen Master.cascIn = false ∧
   (Option.all (fun m => cascadeIs m 2 7#4 77#32 && cpWord m.raw 1 == 0#32 && List.drop 16 m.raw == [1, 2]) s.dev.kl.casIn.head? = true) ∧
   s.dev.fillSlot 77#32 = some 4 ∧ ((Option.map (fun x => x.did) s.dev.kl.casIn.head?).getD 0 < [1, 2].length) ∧
   (regionOf s.part (s.dev.slotBase ↑4 + (0#32).toNat + (Option.map (fun x => x.did) s.dev.kl.casIn.head?).getD 0) = Region.ls) ∧
   (regionOf s.part (s.dev.slotBase ↑4 + (0#32).toNat + (Option.map (fun x => x.did) s.dev.kl.casIn.head?).getD 0 + ([1, 2].length - (Option.map (fun x => x.did) s.dev.kl.casIn.head?).getD 0) - 1) = Region.ls) ∧
   ((fun age => Dev.grantable s.part s.dev (portOf (regionOf s.part (s.dev.slotBase ↑4 + (0#32).toNat + (Option.map (fun x => x.did) s.dev.kl.casIn.head?).getD 0))) age Master.cascIn) ((Option.map (fun x => max x.age x.nextAt) s.dev.kl.casIn.head?).getD s.dev.cycle) = true) ∧
   ([1, 2].length - (Option.map (fun x => x.did) s.dev.kl.casIn.head?).getD 0 ≤ 256 - (s.dev.slotBase ↑4 + (0#32).toNat + (Option.map (fun x => x.did) s.dev.kl.casIn.head?).getD 0) % 16 ∨ (fun age => Dev.grantable s.part s.dev (portOf (regionOf s.part (s.dev.slotBase ↑4 + (0#32).toNat + (Option.map (fun x => x.did) s.dev.kl.casIn.head?).getD 0))) age Master.cascIn) s.dev.cycle = true) ∧
   (Option.all (fun m => cascadeIs m 3 7#4 77#32) s.dev.kl.casIn.head? = true) ∧ s.dev.ls.slots[4].written = false) ∧
  (let s : State := slotS 4 { st := .fill, line := 78 }
   s.dev.coreOn = true ∧ s.part.casc = true ∧ s.dev.frozen Master.cascIn = false ∧ s.dev.fillSlot 77#32 = none ∧
   (Option.all (fun m => cascadeIs m 2 7#4 77#32 && cpWord m.raw 1 == 0#32 && List.drop 16 m.raw == [1, 2]) s.dev.kl.casIn.head? = true) ∧
   (Option.all (fun m => cascadeIs m 3 7#4 77#32) s.dev.kl.casIn.head? = true)) ∧
  (let s : State := slotS 4 { st := .fill, line := 77 } (fun d => { d with mfrozen := 0x20000 })
   s.dev.coreOn = true ∧ s.part.casc = true ∧ s.dev.frozen Master.cascIn = true) ∧
  (let s : State := slotS 7 { st := .fill, line := 77, written := true } (fun d => { sets [(0xC0004, 2), (0xC000C, 0x80000000)] d with cycle := 400000 })
   s.dev.coreOn = true ∧ s.part.casc = true ∧ ↑7 < s.dev.ls.geom.nslot ∧ s.dev.ls.slots[7].st = SlotState.fill ∧
   s.dev.ls.slots[7].kind = Capture.numbered ∧ s.dev.ls.slots[7].written = true ∧ Dev.assembling s.part s.dev = true ∧
   Dev.segsIn s.part s.dev s.dev.ls.slots[7] = false ∧ s.dev.ls.slots[7].wroteAt + 400 * s.dev.segTmoUs ≤ s.dev.cycle) ∧
  (let s : State := slotS 4 { st := .fill, line := 77 }
   s.dev.coreOn = true ∧ s.part.casc = true ∧ s.dev.frozen Master.cascIn = false ∧
   (Option.all (fun m => cascadeIs m 2 7#4 77#32 && cpWord m.raw 1 == 100663296#32 && List.drop 16 m.raw == [1, 2]) s.dev.kl.casIn.head? = true) ∧
   s.dev.fillSlot 77#32 = some 4 ∧ ((Option.map (fun x => x.did) s.dev.kl.casIn.head?).getD 0 < [1, 2].length) ∧
   (egressStream (s.dev.slotBase ↑4 + (100663296#32).toNat + (Option.map (fun x => x.did) s.dev.kl.casIn.head?).getD 0) = none) ∧
   (reaches Master.cascIn (regionOf s.part (s.dev.slotBase ↑4 + (100663296#32).toNat + (Option.map (fun x => x.did) s.dev.kl.casIn.head?).getD 0)) = false) ∧
   (∀ r ∈ s.dev.recordsNow, r.1 ≤ 81)) ∧
  (let s : State := slotS 4 { st := .fill, line := 77 } (fun d => { d with kl := { d.kl with casIn := [⟨1, 0x103, 7, [], 1, 5, [2, 0, 77, 0].flatMap wordBytes ++ [1, 2], 0, (0, 0), [], 0⟩] }, dma := d.dma.set 0 { st := .run, burst := 2, desc := some (v7 [0, 0x2000, 0x2000000, 64, 0]) } })
   s.dev.coreOn = true ∧ s.part.casc = true ∧ s.dev.frozen Master.cascIn = false ∧
   (Option.all (fun m => cascadeIs m 2 7#4 77#32 && cpWord m.raw 1 == 0#32 && List.drop 16 m.raw == [1, 2]) s.dev.kl.casIn.head? = true) ∧
   s.dev.kl.casIn ≠ [] ∧ s.dev.fillSlot 77#32 = some 4 ∧ ((Option.map (fun x => x.did) s.dev.kl.casIn.head?).getD 0 < [1, 2].length) ∧
   (regionOf s.part (s.dev.slotBase ↑4 + (0#32).toNat + (Option.map (fun x => x.did) s.dev.kl.casIn.head?).getD 0) = Region.ls) ∧
   ((fun age => Dev.grantable s.part s.dev (portOf (regionOf s.part (s.dev.slotBase ↑4 + (0#32).toNat + (Option.map (fun x => x.did) s.dev.kl.casIn.head?).getD 0))) age Master.cascIn) ((Option.map (fun x => max x.age x.nextAt) s.dev.kl.casIn.head?).getD s.dev.cycle) = false)) ∧
  (let s : State := slotS 4 { st := .fill, line := 77 }
   s.dev.coreOn = true ∧ s.part.casc = true ∧ s.dev.frozen Master.cascIn = false ∧
   (Option.all (fun m => cascadeIs m 2 7#4 77#32 && cpWord m.raw 1 == 101255680#32 && List.drop 16 m.raw == [1, 2]) s.dev.kl.casIn.head? = true) ∧
   s.dev.fillSlot 77#32 = some 4 ∧ ((Option.map (fun x => x.did) s.dev.kl.casIn.head?).getD 0 < [1, 2].length) ∧
   (∀ i < [1, 2].length - (Option.map (fun x => x.did) s.dev.kl.casIn.head?).getD 0, (egressStream (s.dev.slotBase ↑4 + (101255680#32).toNat + (Option.map (fun x => x.did) s.dev.kl.casIn.head?).getD 0 + i)).isSome = true)) := by
  refine ⟨?_, ?_, ?_, ?_, ?_, ?_, ?_⟩ <;> decide +kernel

theorem test_RedundantPair_met :
  (let s : State := casS { strap := 2 }
   s.mayWrite Master.mgmt 786496 ∧ s.part.casc = true ∧ s.part.pair = true ∧ s.dev.cas.pair = PairState.off ∧ s.dev.pins.forceI = false ∧
   Dev.role s.part s.dev = 2 ∧ s.mayWrite Master.mgmt 786500 ∧ (s.dev.cas.pair ≠ PairState.deposed ∨ s.dev.pins.forceI = true) ∧
   s.dev.coreOn = true ∧ ((s.dev.isNext fun x => x.mtype == 23 && fld (x.body.headD 0) 0 3 == (0#3).toNat) = true) ∧
   s.dev.cas.pair ≠ PairState.active ∧ (s.dev.cas.pair ≠ PairState.activeSolo ∨ s.dev.kl.links[2].st ≠ LinkState.active) ∧
   s.dev.cas.pair ≠ PairState.standby ∧ (s.dev.cas.pair ≠ PairState.active ∨ s.dev.kl.links[2].st = LinkState.deep) ∧
   (false = false ∨ s.dev.cas.pair ≠ PairState.active ∧ s.dev.cas.pair ≠ PairState.activeSolo)) ∧
  (let s : State := casS { strap := 3 }
   s.mayWrite Master.mgmt 786496 ∧ s.part.casc = true ∧ s.part.pair = true ∧ s.dev.cas.pair = PairState.off ∧ s.dev.pins.forceI = false ∧
   Dev.role s.part s.dev = 3 ∧ s.dev.hng.st = HState.off) ∧
  (let s : State := casS { strap := 2, pair := .deposed }
   s.mayWrite Master.mgmt 786500 ∧ s.part.casc = true ∧ s.part.pair = true ∧ s.dev.cas.pair = PairState.deposed ∧ s.dev.pins.forceI = false ∧
   s.dev.hng.st = HState.off) ∧
  (let s : State := casS { strap := 2, pair := .activeSolo }
   s.dev.coreOn = true ∧ s.part.casc = true ∧ s.part.pair = true ∧
   ((s.dev.isNext fun x => x.mtype == 23 && fld (x.body.headD 0) 0 3 == (0#3).toNat) = true) ∧ s.dev.cas.pair = PairState.activeSolo ∧
   s.dev.kl.links[2].st = LinkState.active ∧ true = true ∧ (s.dev.cas.pair = PairState.active ∨ s.dev.cas.pair = PairState.activeSolo)) ∧
  (let s : State := casS { strap := 3, pair := .standby, cp := some (cpB 0) }
   s.dev.coreOn = true ∧ s.part.pair = true ∧ s.dev.cas.pair = PairState.standby) ∧
  (let s : State := casS { strap := 3, pair := .standby }
   s.dev.coreOn = true ∧ s.part.pair = true ∧ s.dev.cas.pair = PairState.standby ∧ s.dev.frozen Master.mirrorIn = false ∧
   (Option.all (fun m => m.raw == cpB 1) s.dev.kl.mirIn.head? = true) ∧ bit (cpWord (cpB 1) 1) 0 = true) ∧
  (let s : State := casS { strap := 2, pair := .active } (fun d => { d with kl := { d.kl with secured := [lineOut9] } })
   s.dev.coreOn = true ∧ s.part.casc = true ∧ s.part.pair = true ∧
   ((s.dev.isNext fun x => x.mtype == 23 && fld (x.body.headD 0) 0 3 == (0#3).toNat) = true) ∧ s.dev.cas.pair = PairState.active ∧
   s.dev.kl.links[2].st ≠ LinkState.deep ∧ s.dev.kl.secured = [lineOut9] ∧ 8 ≤ s.dev.payCap 2) ∧
  (let s : State := casS { strap := 3, pair := .standby, cp := some (cpB 0) } (fun d => { d with cycle := 80000 })
   s.dev.coreOn = true ∧ s.part.pair = true ∧ s.dev.cas.pair = PairState.standby ∧ s.dev.cas.cp ≠ none ∧ s.dev.peerSilent 1 = true) ∧
  (let s : State := casS { strap := 2, pair := .active } (fun d => { d with cycle := 160000 })
   s.dev.coreOn = true ∧ s.part.pair = true ∧ s.dev.cas.pair = PairState.active ∧ s.dev.peerSilent 2 = true) ∧
  (let s : State := casS { strap := 3, pair := .standby } (fun d => { d with dma := d.dma.set 0 { st := .run, burst := 2, desc := some (v7 [0, 0x2000, 0x3000, 64, 0]) }, kl := { d.kl with mirIn := [⟨2, 0x104, 0, [], 1, 5, cpB 0, 0, (0, 0), [], 0⟩] } })
   s.dev.coreOn = true ∧ s.part.pair = true ∧ s.dev.cas.pair = PairState.standby ∧ s.dev.frozen Master.mirrorIn = false ∧
   (Option.all (fun m => m.raw == cpB 0) s.dev.kl.mirIn.head? = true) ∧ bit (cpWord (cpB 0) 1) 0 = false ∧
   ((Option.map (fun x => x.did) s.dev.kl.mirIn.head?).getD 0 < (cpB 0).length ∧ regionOf s.part (BitVec.toNat (s.dev.reg 786508 &&& 4294950912) + if s.dev.cas.cpHalf = true then 8192 else 0) = Region.pd ∧ regionOf s.part ((BitVec.toNat (s.dev.reg 786508 &&& 4294950912) + if s.dev.cas.cpHalf = true then 8192 else 0) + (cpB 0).length - 1) = Region.pd) ∧
   ((fun age => Dev.grantable s.part s.dev Port.pd age Master.mirrorIn) ((Option.map (fun x => max x.age x.nextAt) s.dev.kl.mirIn.head?).getD s.dev.cycle) = false) ∧
   s.dev.kl.mirIn ≠ []) ∧
  (let s : State := casS { strap := 3, pair := .standby } (fun d => d.updCtx 3 asleep)
   s.dev.coreOn = true ∧ s.part.pair = true ∧ s.dev.cas.pair = PairState.standby ∧ s.dev.frozen Master.mirrorIn = false ∧
   (Option.all (fun m => m.raw == cpB 0) s.dev.kl.mirIn.head? = true) ∧ bit (cpWord (cpB 0) 1) 0 = false ∧
   ((Option.map (fun x => x.did) s.dev.kl.mirIn.head?).getD 0 < (cpB 0).length ∧ regionOf s.part (BitVec.toNat (s.dev.reg 786508 &&& 4294950912) + if s.dev.cas.cpHalf = true then 8192 else 0) = Region.pd ∧ regionOf s.part ((BitVec.toNat (s.dev.reg 786508 &&& 4294950912) + if s.dev.cas.cpHalf = true then 8192 else 0) + (cpB 0).length - 1) = Region.pd) ∧
   ((fun age => Dev.grantable s.part s.dev Port.pd age Master.mirrorIn) ((Option.map (fun x => max x.age x.nextAt) s.dev.kl.mirIn.head?).getD s.dev.cycle) = true) ∧
   ((cpB 0).length - (Option.map (fun x => x.did) s.dev.kl.mirIn.head?).getD 0 ≤ 256 ∨ (fun age => Dev.grantable s.part s.dev Port.pd age Master.mirrorIn) s.dev.cycle = true)) ∧
  (let s : State := casS { strap := 3, pair := .standby } (fun d => { d.updCtx 3 asleep with cycle := 100, dbgReq := [⟨false, 0x2000, 0, 50⟩], kl := { d.kl with mirIn := [⟨2, 0x104, 0, [], 1, 5, (cpB 0 ++ List.replicate 300 7), 0, (0, 0), [], 0⟩] } })
   s.dev.coreOn = true ∧ s.part.pair = true ∧ s.dev.cas.pair = PairState.standby ∧ s.dev.frozen Master.mirrorIn = false ∧
   (Option.all (fun m => m.raw == cpB 0 ++ List.replicate 300 7) s.dev.kl.mirIn.head? = true) ∧
   bit (cpWord (cpB 0 ++ List.replicate 300 7) 1) 0 = false ∧
   ((Option.map (fun x => x.did) s.dev.kl.mirIn.head?).getD 0 < (cpB 0 ++ List.replicate 300 7).length ∧ regionOf s.part (BitVec.toNat (s.dev.reg 786508 &&& 4294950912) + if s.dev.cas.cpHalf = true then 8192 else 0) = Region.pd ∧ regionOf s.part ((BitVec.toNat (s.dev.reg 786508 &&& 4294950912) + if s.dev.cas.cpHalf = true then 8192 else 0) + (cpB 0 ++ List.replicate 300 7).length - 1) = Region.pd) ∧
   ((fun age => Dev.grantable s.part s.dev Port.pd age Master.mirrorIn) ((Option.map (fun x => max x.age x.nextAt) s.dev.kl.mirIn.head?).getD s.dev.cycle) = true) ∧
   (256 < (cpB 0 ++ List.replicate 300 7).length - (Option.map (fun x => x.did) s.dev.kl.mirIn.head?).getD 0) ∧
   ((fun age => Dev.grantable s.part s.dev Port.pd age Master.mirrorIn) s.dev.cycle = false)) := by
  refine ⟨?_, ?_, ?_, ?_, ?_, ?_, ?_, ?_, ?_, ?_, ?_, ?_⟩ <;> ((try dsimp only [State.mayWrite, State.portFree]); decide +kernel)

theorem test_PairTakeoverRule_met :
  (let s : State := casS { strap := 3, pair := .takeover, cp := some (cpB 2) }
   s.dev.coreOn = true ∧ s.part.pair = true ∧ s.dev.cas.pair = PairState.takeover ∧ s.dev.cas.loaded = false ∧ s.dev.cas.cp = some (cpB 2) ∧
   bit (cpWord (cpB 2) 1) 1 = true) ∧
  (let s : State := casS { strap := 3, pair := .takeover, cp := some (cpB 0) }
   s.dev.coreOn = true ∧ s.part.pair = true ∧ s.dev.cas.pair = PairState.takeover ∧ s.dev.cas.loaded = false ∧ s.dev.cas.cp = some (cpB 0) ∧
   bit (cpWord (cpB 0) 1) 1 = false) ∧
  (let s : State := casS { strap := 3, pair := .takeover, loaded := true }
   s.dev.coreOn = true ∧ s.part.pair = true ∧ s.dev.cas.pair = PairState.takeover ∧ s.dev.cas.loaded = true ∧ s.dev.pins.forceI = false) := by
  refine ⟨?_, ?_, ?_⟩ <;> decide +kernel

theorem test_StandbyAndWake_met :
  (let s : State := rig
   s.issues 3 ∧ s.dev.ctx[3].priv = true ∧
   (7 < List.findIdx id [decide ((s.issued 3).hng.st ≠ HState.off), decide (∃ k, dmaPresent s.part k = true ∧ (s.issued 3).dma[k].st ≠ ChanState.idle), decide (∃ p, bit ((s.issued 3).portReg p 0) 0 = true ∨ (s.issued 3).port[p].disPend = true), (s.issued 3).motBusy 0 || (s.issued 3).motBusy 1, (s.issued 3).pwr.nvmOp.isSome, (s.issued 3).wdt.attached, (s.issued 3).wakeNow] + 1) ∧
   bit (s.dev.reg 983040) 0 = false ∧ (∀ (k : CtxId), (s.issued 3).ctx[k].sbuf = []) ∧
   (∀ (k : LinkId), (s.issued 3).kl.links[k].st ≠ LinkState.active) ∧
   (¬(Dev.wakeEn s.part s.dev (WakeSrc.pin true) = true ∧ ∀ (k : LinkId), WakeSrc.pin true = WakeSrc.link k → s.dev.kl.links[k].st = LinkState.deep) ∨ s.dev.phase = Phase.run)) ∧
  (let s : State := rig fun d => { d with wdt := { d.wdt with attached := true } }
   s.issues 3 ∧ s.dev.ctx[3].priv = true ∧
   (List.findIdx id [decide ((s.issued 3).hng.st ≠ HState.off), decide (∃ k, dmaPresent s.part k = true ∧ (s.issued 3).dma[k].st ≠ ChanState.idle), decide (∃ p, bit ((s.issued 3).portReg p 0) 0 = true ∨ (s.issued 3).port[p].disPend = true), (s.issued 3).motBusy 0 || (s.issued 3).motBusy 1, (s.issued 3).pwr.nvmOp.isSome, (s.issued 3).wdt.attached, (s.issued 3).wakeNow] + 1 ≤ 7)) ∧
  (let s : State := rig fun d => { d with phase := .entering }
   s.dev.phase = Phase.entering ∧ s.dev.pwr.suspDue = false ∧ s.dev.pwr.deepWait = [] ∧ regionOf s.part 0 ≠ Region.ls ∧
   regionOf s.part 0 ≠ Region.lsAbsent ∧
   (Dev.wakeEn s.part s.dev WakeSrc.wdtaEarly = true ∧ ∀ (k : LinkId), WakeSrc.wdtaEarly = WakeSrc.link k → s.dev.kl.links[k].st = LinkState.deep) ∧
   bit (s.dev.reg 983040) 0 = false) ∧
  (let s : State := pwrS (fun p => { p with deepWait := [2] }) (fun d => { d with phase := .entering })
   s.dev.phase = Phase.entering ∧ (s.dev.pwr.suspDue = true ∨ s.dev.pwr.deepWait ≠ []) ∧ s.dev.pwr.deepWait ≠ [] ∧ bit (s.dev.reg 983040) 0 = false) ∧
  (let s : State := rig fun d => links { st := .deep } { sets [(0xD0000, 4)] d with phase := .standby }
   s.dev.phase = Phase.standby ∧
   (Dev.wakeEn s.part s.dev (WakeSrc.link 2) = true ∧ ∀ (k : LinkId), WakeSrc.link 2 = WakeSrc.link k → s.dev.kl.links[k].st = LinkState.deep)) ∧
  (let s : State := rig fun d => { d with phase := .clocks }
   s.dev.phase = Phase.clocks) ∧
  (let s : State := rig fun d => { d with phase := .waking }
   (s.dev.phase = Phase.waking ∨ s.dev.phase = Phase.reloading) ∧
   (Dev.wakeEn s.part s.dev (WakeSrc.pin true) = true ∧ ∀ (k : LinkId), WakeSrc.pin true = WakeSrc.link k → s.dev.kl.links[k].st = LinkState.deep) ∧
   s.dev.phase = Phase.waking) ∧
  (let s : State := rig fun d => { d with phase := .reloading, hk := { d.hk with kept := d.hk.kept.set 15 (some (5, 7)) } }
   s.dev.phase = Phase.reloading ∧ s.dev.pwr.aonEdges < 5 ∧ s.dev.hk.kept[Fin.ofNat 16 15] = some (5#32, 7#32) ∧
   ((List.filter (fun k => decide (k < Fin.ofNat 16 15) && s.dev.hk.kept[k].isSome) (List.finRange 16)).length + s.dev.crossUsed 7 < 4) ∧
   bit (s.dev.reg 983040) 0 = false) ∧
  (let s : State := pwrS (fun p => { p with aonEdges := 5 }) (fun d => { d with phase := .reloading })
   s.dev.phase = Phase.reloading ∧ 5 ≤ s.dev.pwr.aonEdges) ∧
  (let s : State := pwrS (fun p => { p with aonEdges := 8 }) (fun d => { d with phase := .reloading, hk := { d.hk with kept := Vector.replicate 16 (some (5, 7)) } })
   s.dev.phase = Phase.reloading ∧ s.dev.pwr.aonEdges < 9 ∧ s.dev.hk.kept[15] = some (5#32, 7#32) ∧
   (4 ≤ (List.filter (fun k : HkEnt => decide (k < 15) && s.dev.hk.kept[k].isSome) (List.finRange 16)).length + s.dev.crossUsed 7)) := by
  refine ⟨?_, ?_, ?_, ?_, ?_, ?_, ?_, ?_, ?_, ?_⟩ <;> ((try dsimp only [State.issues]); decide +kernel)

theorem test_ResetCauses_met :
  (let s : State := rig
   s.dev.pwr.nvmOp = none ∧ regionOf s.part 67108864 = Region.nvm ∧ 1 = 1 ∧ regionOf s.part 50331648 = Region.aon ∧ s.dev.phase ≠ Phase.inReset ∧
   2 ≠ 1 ∧ (50331648 < 50333696 ∨ 50333728 ≤ 50331648) ∧ 8 ≠ 1 ∧ s.dev.wdt.onLfrc = true ∧ 5 ≠ 1 ∧ s.dev.wdt.lfxoFail = false ∧
   s.mayWrite Master.mgmt 851988 ∧ (if Master.mgmt = Master.mgmt then 7 else 6) ≠ 1 ∧ s.issues 3 ∧ s.dev.ctx[3].priv = true ∧
   s.dev.ctx[3].sbuf = [] ∧ 6 ≠ 1) ∧
  (let s : State := rig fun d => { d with wdt := { d.wdt with onLfrc := false, lfxoFail := true } }
   s.dev.phase ≠ Phase.inReset ∧ s.dev.wdt.onLfrc = false ∧ s.dev.phase = Phase.run ∧ s.dev.wdt.lfxoFail = true) := by
  refine ⟨?_, ?_⟩ <;> ((try dsimp only [State.issues, State.mayWrite, State.portFree]); decide +kernel)

theorem test_BootOutcomes_met :
  (let s : State := State.reset
   s.dev.phase = Phase.inReset) ∧
  (let s : State := rig fun d => { d with phase := .verify }
   s.dev.phase = Phase.verify ∧ Dev.imgFails s.part s.dev false ≠ [] ∧ (∀ (k : LinkId), s.dev.kl.links[k].st = LinkState.disabled)) ∧
  (let s : State := ⟨[], supPart, supDev⟩
   s.dev.phase = Phase.verify ∧ Dev.imgFails s.part s.dev false = [] ∧ bit (s.dev.reg 983040) 0 = false ∧ ctxPresent s.part 32 = true) := by
  refine ⟨?_, ?_, ?_⟩ <;> decide +kernel

theorem test_NvmSensorsAndTrace_met :
  (let s : State := rig (sets [(0xE0000, 0x7FFF0)])
   s.mayWrite Master.mgmt 917524 ∧ s.dev.pwr.nvmOp = none ∧
   (if BitVec.toNat (s.dev.reg 917504) / 16 % 32768 / 256 < 96 then s.dev.pwr.wprot.getLsbD 0 else s.dev.pwr.wprot.getLsbD 1) = false ∧
   ((!decide (∀ b ∈ s.dev.bytes (67108864 + 16 * (BitVec.toNat (s.dev.reg 917504) / 16 % 32768)) 16, b = 255) || decide (s.dev.mark (67108864 + 16 * (BitVec.toNat (s.dev.reg 917504) / 16 % 32768)) = some EccMark.double)) = false) ∧
   s.mayWrite Master.mgmt 917532 ∧ s.dev.phase = Phase.run ∧ bit (s.dev.reg 262144) 3 = true ∧ s.dev.crossRoom 7 = true ∧ s.dev.hk.dieHeld = [] ∧
   (BitVec.extractLsb' 0 16 (s.dev.reg 851992)).toInt ≤ (1250#16).toInt ∧ s.dev.pwr.tempArmed = true ∧ s.dev.pwr.supOut.getLsbD ↑3 = false ∧
   s.mayWrite Master.mgmt 983040 ∧ bit (s.dev.reg 983040) 0 = false ∧ s.dev.pwr.tWptr < 4096 ∧ bit (1#32) 1 = false) ∧
  (let s : State := pwrS (fun p => { p with wprot := 3 })
   s.mayWrite Master.mgmt 917524 ∧ s.dev.pwr.nvmOp = none ∧
   ((if BitVec.toNat (s.dev.reg 917504) / 16 % 32768 / 256 < 96 then s.dev.pwr.wprot.getLsbD 0 else s.dev.pwr.wprot.getLsbD 1) = true ∨ (!decide (∀ b ∈ s.dev.bytes (67108864 + 16 * (BitVec.toNat (s.dev.reg 917504) / 16 % 32768)) 16, b = 255) || decide (s.dev.mark (67108864 + 16 * (BitVec.toNat (s.dev.reg 917504) / 16 % 32768)) = some EccMark.double)) = true) ∧
   (if BitVec.toNat (s.dev.reg 917504) / 16 % 32768 / 256 < 96 then s.dev.pwr.wprot.getLsbD 0 else s.dev.pwr.wprot.getLsbD 1) = true) ∧
  (let s : State := pwrS (fun p => { p with nvmOp := some (.program 32767 #v[1,2,3,4]) })
   s.mayWrite Master.mgmt 917524 ∧ s.dev.pwr.nvmOp ≠ none ∧ s.dev.up = true ∧ s.dev.pwr.nvmOp = some (NvmOp.program 32767 #v[1, 2, 3, 4]) ∧
   32767 < 32768) ∧
  (let s : State := pwrS (fun p => { p with nvmOp := some (.erase 127) })
   s.dev.up = true ∧ s.dev.pwr.nvmOp = some (NvmOp.erase 127) ∧ 127 < 128) ∧
  (let s : State := pwrS (fun p => { p with tempArmed := false, supOut := 8 })
   s.dev.phase = Phase.run ∧ (BitVec.extractLsb' 0 16 (s.dev.reg 851992)).toInt ≤ (1250#16).toInt ∧ s.dev.pwr.tempArmed = false ∧
   s.dev.pwr.supOut.getLsbD ↑3 = true) ∧
  (let s : State := pwrS (fun p => { p with tWptr := 4095 }) (sets [(0xF0000, 1), (0xF0010, 8)])
   s.dev.phase = Phase.run ∧ (1249#16).toInt < (BitVec.extractLsb' 0 16 (s.dev.reg 851992)).toInt ∧ s.mayWrite Master.mgmt 983040 ∧
   bit (s.dev.reg 983040) 0 = true ∧ s.issues 3 ∧ s.dev.traced 3 = true ∧ fld (s.dev.reg 983040) 1 2 = 0 ∧ s.dev.frozen Master.debug = false ∧
   s.dev.pwr.tOwed = 0 ∧ s.dev.pwr.tSince < 1023 ∧ s.dev.pwr.tWptr < 4096) ∧
  (let s : State := rig (fun d => { sets [(0x40000, 8)] d with fifo := d.fifo.set 7 [1, 2, 3, 4] })
   s.dev.phase = Phase.run ∧ bit (s.dev.reg 262144) 3 = true ∧ (s.dev.crossRoom 7 = false ∨ s.dev.hk.dieHeld ≠ [])) ∧
  (let s : State := rig (sets [(0x40000, 0)])
   s.dev.phase = Phase.run ∧ bit (s.dev.reg 262144) 3 = false) ∧
  (let s : State := rig (fun d => { d.updCtx 3 asleep with late := [⟨.debug, .pd, 0x2000, List.replicate 16 (5:Byte), 0⟩] })
   s.dev.coreOn = true ∧ s.dev.late = [{ who := Master.debug, port := Port.pd, addr := 8192, bytes := List.replicate 16 5, age := 0 : LateWrite }] ∧
   ({ who := Master.debug, port := Port.pd, addr := 8192, bytes := List.replicate 16 5, age := 0 : LateWrite }.port = Port.nvm → s.dev.pwr.nvmOp = none) ∧
   (∀ (n : DmaId), s.dev.dma[n].burst = 0) ∧
   oldestReq (Dev.waiting s.part s.dev { who := Master.debug, port := Port.pd, addr := 8192, bytes := List.replicate 16 5, age := 0 : LateWrite }.port) = some ({ who := Master.debug, port := Port.pd, addr := 8192, bytes := List.replicate 16 5, age := 0 : LateWrite }.who, ReqKind.late) ∧
   regionOf s.part { who := Master.debug, port := Port.pd, addr := 8192, bytes := List.replicate 16 5, age := 0 : LateWrite }.addr = Region.pd ∧
   regionOf s.part ({ who := Master.debug, port := Port.pd, addr := 8192, bytes := List.replicate 16 5, age := 0 : LateWrite }.addr + { who := Master.debug, port := Port.pd, addr := 8192, bytes := List.replicate 16 5, age := 0 : LateWrite }.bytes.length - 1) = Region.pd) ∧
  (let s : State := pwrS (fun p => { p with tOwed := 3, tWptr := 4095 }) (sets [(0xF0010, 8)])
   s.mayWrite Master.mgmt 983040 ∧ bit (s.dev.reg 983040) 0 = false ∧ s.dev.pwr.tWptr < 4096 ∧ bit (3#32) 1 = true) := by
  refine ⟨?_, ?_, ?_, ?_, ?_, ?_, ?_, ?_, ?_, ?_⟩ <;> ((try dsimp only [State.issues, State.mayWrite, State.portFree]); decide +kernel)

theorem test_ManagementRequests_met :
  (let s : State := rigC asleep
   Dev.takesRequest s.part s.dev 0 1 7#32 [16384#32, 1048320#32] = true ∧ reqDev s.part 16384#32 = Dev.ownAddr s.part s.dev ∧ 1 ≤ reqCount 16384#32 ∧
   reqCount 16384#32 ≤ 64 ∧ ((1048320#32).toNat % 4 = 0 ∧ (1048320#32).toNat + 4 * reqCount 16384#32 ≤ 1048576) ∧ s.dev.reqDone = (0, (0, 0), []) ∧
   (∀ i < reqCount 16384#32, Dev.wordFree s.part s.dev (if i = 0 then s.dev.inboxAsk else s.dev.cycle) (1048320#32 + nword (4 * i)) false = true) ∧
   (∀ i < reqCount 16384#32, Dev.eccBad s.part s.dev ((1048320#32).toNat + 4 * i) 4 = false) ∧
   Dev.takesRequest s.part s.dev 0 1 (7#32) (16384#32 :: List.replicate 64 5#32) = true ∧
   (reqCount 16384#32 = 0 ∨ 64 < reqCount 16384#32 ∨ (List.replicate 64 5#32).length ≠ 1) ∧
   Dev.takesRequest s.part s.dev 0 2 (7#32) (16384#32 :: List.replicate 64 5#32) = true ∧
   (reqCount 16384#32 = 0 ∨ 64 < reqCount 16384#32 ∨ (List.replicate 64 5#32).length ≠ reqCount 16384#32 + 1) ∧
   Dev.takesRequest s.part s.dev 0 2 (7#32) (16384#32 :: 1048320#32 :: List.replicate 64 5#32) = true ∧
   (∀ i < reqCount 16384#32, Dev.wordFree s.part s.dev (if i = 0 then s.dev.inboxAsk else s.dev.cycle) (1048320#32 + nword (4 * i)) true = true) ∧
   (List.replicate 64 5#32).length = reqCount 16384#32 ∧ s.part.halock = false ∧ bit (16384#32) 16 = false ∧
   Dev.takesRequest s.part s.dev 0 6 7#32 [] = true ∧ Dev.takesRequest s.part s.dev 0 7 (7#32) (List.replicate 64 5#32) = true ∧
   16 < (List.replicate 64 5#32).length) ∧
  (let s : State := rigC asleep
   Dev.takesRequest s.part s.dev 0 2 (7#32) (69632#32 :: 1048512#32 :: List.replicate 16 5#32) = true ∧
   reqDev s.part 69632#32 = Dev.ownAddr s.part s.dev ∧ 1 ≤ reqCount 69632#32 ∧ reqCount 69632#32 ≤ 64 ∧
   ((1048512#32).toNat % 4 = 0 ∧ (1048512#32).toNat + 4 * reqCount 69632#32 ≤ 1048576) ∧ s.dev.reqDone = (0, (0, 0), []) ∧
   (∀ i < reqCount 69632#32, Dev.wordFree s.part s.dev (if i = 0 then s.dev.inboxAsk else s.dev.cycle) (1048512#32 + nword (4 * i)) true = true) ∧
   (List.replicate 16 5#32).length = reqCount 69632#32 ∧ s.part.halock = false ∧ bit (69632#32) 16 = true ∧
   Dev.takesRequest s.part s.dev 0 7 (7#32) (List.replicate 16 5#32) = true ∧ (List.replicate 16 5#32).length ≤ 16) ∧
  (let s : State := rig fun d => (d.updCtx 3 asleep).updHng fun h => { h with streams := h.streams.set 63 (paced 0xFFFFFE) }
   (Dev.takesRequest s.part s.dev 0 5 ((Option.map (fun x => x.tag) s.dev.kl.inbox.head?).getD 0) [63#32, 1#32] = true) ∧
   (if s.part.casc = true then fld (63#32) 8 4 else 0) = Dev.ownAddr s.part s.dev ∧ fld (63#32) 0 6 = ↑63 ∧ s.dev.hng.streams[63].opened = true ∧
   BitVec.toNat s.dev.hng.streams[63].avail + (1#32).toNat ≤ 16777215) ∧
  (let s : State := rig fun d => { (d.updCtx 3 asleep) with dma := d.dma.set 0 { st := .run, burst := 2, desc := some (v7 [0, 0x2000, 0x3000, 64, 0]) } }
   Dev.takesRequest s.part s.dev 2 1 7#32 [256#32, 1048572#32] = true ∧ reqDev s.part 256#32 = Dev.ownAddr s.part s.dev ∧ 1 ≤ reqCount 256#32 ∧
   reqCount 256#32 ≤ 64 ∧ s.dev.reqDone = (0, (0, 0), []) ∧ Dev.wordFree s.part s.dev s.dev.inboxAsk (1048572#32) false = false) := by
  refine ⟨?_, ?_, ?_, ?_⟩ <;> decide +kernel

theorem test_SpiDebugAndTap_met :
  (let s : State := rigC asleep
   s.dev.coreOn = true ∧ crc8 (3 :: wordBytesBE 1048572#32) = crc8 (3 :: wordBytesBE 1048572) ∧
   ((1048572#32).toNat % 4 = 0 ∧ (1048572#32).toNat < 1048576) ∧
   (s.dev.spiReq = [] ∧ Dev.spiWaits s.part s.dev s.dev.cycle = false ∧ Dev.wordFree s.part s.dev s.dev.cycle (1048572#32) false = true) ∧
   Dev.eccBad s.part s.dev (1048572#32).toNat 4 = false ∧
   (¬crc8 (2 :: (wordBytesBE 1048572#32 ++ wordBytesBE 5#32)) = crc8 (3 :: wordBytesBE 1048572)) ∧ s.part.dbgdis = false ∧
   s.dev.frozen Master.debug = false ∧ s.dev.crossRoom 8 = true ∧ s.dev.dbgReq = [] ∧
   Dev.grantable s.part s.dev Port.pd s.dev.cycle Master.debug = true ∧ (4#4 = 0 ∨ 4#4 = 3 ∨ 4#4 = 4) ∧ balls[61]? = some Ball.chnI ∧
   Dev.ballIn s.part s.dev Ball.chnI = some false) ∧
  (let s : State := rig fun d => { (d.updCtx 3 asleep) with mfrozen := 0x80000 }
   s.dev.coreOn = true ∧ crc8 (2 :: (wordBytesBE 1048572#32 ++ wordBytesBE 5#32)) = crc8 (2 :: (wordBytesBE 1048572 ++ wordBytesBE 5)) ∧
   ((1048572#32).toNat % 4 = 0 ∧ (1048572#32).toNat < 1048576) ∧
   (s.dev.spiReq = [] ∧ Dev.spiWaits s.part s.dev s.dev.cycle = false ∧ Dev.wordFree s.part s.dev s.dev.cycle (1048572#32) true = true) ∧
   s.part.halock = false ∧ (¬crc8 (3 :: wordBytesBE 1048572#32) = crc8 (2 :: (wordBytesBE 1048572 ++ wordBytesBE 5))) ∧ s.part.dbgdis = false ∧
   (s.dev.frozen Master.debug = true ∨ s.dev.crossRoom 8 = false ∨ 4 ≤ s.dev.dbgReq.length) ∧ (s.part.dbgdis = true ∨ 4 < (5#4).toNat) ∧ 5#4 ≠ 2) ∧
  (let s : State := rig (fun d => d.updCtx 3 asleep) (fused 9 1)
   s.dev.coreOn = true ∧ crc8 (2 :: (wordBytesBE 1048572#32 ++ wordBytesBE 5#32)) = crc8 (2 :: (wordBytesBE 1048572 ++ wordBytesBE 5)) ∧
   s.part.halock = true ∧ ((1048572#32).toNat % 4 = 0 ∧ (1048572#32).toNat < 1048576) ∧
   (s.dev.spiReq = [] ∧ Dev.spiWaits s.part s.dev s.dev.cycle = false ∧ Dev.wordFree s.part s.dev s.dev.cycle (1048572#32) true = true)) ∧
  (let s : State := rig (fun d => d.updCtx 3 asleep) (fused 9 2)
   s.dev.coreOn = true ∧ 4#8 ≠ 2 ∧ 4#8 ≠ 3 ∧ crc8 [4#8] = crc8 [4]) ∧
  (let s : State := rig
   s.dev.coreOn = true ∧ crc8 (3 :: wordBytesBE 1048572#32) = crc8 (3 :: wordBytesBE 1048572) ∧
   (s.dev.spiReq = [] ∧ (Dev.spiWaits s.part s.dev s.dev.cycle = true ∨ Dev.wordFree s.part s.dev s.dev.cycle (1048572#32) false = false)) ∧
   s.part.dbgdis = false ∧ s.dev.frozen Master.debug = false ∧ s.dev.crossRoom 8 = true ∧ s.dev.dbgReq = [] ∧
   ((1048572#32).toNat % 4 = 0 ∧ (1048572#32).toNat < 1048576) ∧ Dev.grantable s.part s.dev Port.pd s.dev.cycle Master.debug = false) ∧
  (let s : State := rig
   s.dev.coreOn = true ∧ crc8 (2 :: (wordBytesBE 1048572#32 ++ wordBytesBE 5#32)) = crc8 (2 :: (wordBytesBE 1048572 ++ wordBytesBE 5)) ∧
   (s.dev.spiReq = [] ∧ (Dev.spiWaits s.part s.dev s.dev.cycle = true ∨ Dev.wordFree s.part s.dev s.dev.cycle (1048572#32) true = false))) ∧
  (let s : State := rig fun d => { d.updCtx 3 asleep with spiReq := [⟨false, 0xFFFFC, 0, 0, true⟩] }
   s.dev.coreOn = true ∧ s.dev.spiReq = [{ write := false, addr := 1048572#32, data := 0, age := 0 : SpiReq }] ∧
   ((1048572#32).toNat % 4 = 0 ∧ (1048572#32).toNat < 1048576) ∧ Dev.eccBad s.part s.dev (1048572#32).toNat 4 = false ∧
   Dev.spiWaits s.part s.dev 0 = false ∧ Dev.wordFree s.part s.dev 0 (1048572#32) false = true ∧ (∀ (n : DmaId), s.dev.dma[n].burst = 0) ∧
   oldestReq (Dev.waiting s.part s.dev Port.pd) = some (Master.mgmt, ReqKind.burst)) := by
  refine ⟨?_, ?_, ?_, ?_, ?_, ?_, ?_⟩ <;> decide +kernel

theorem test_CtxAndFaultRingWrites_met :
  (let s : State := rig fun d => d.updCtx 63 fun x => { x with frozen := true }
   (63#8).toNat = ↑63 ∧ ctxPresent s.part 63 = true ∧ s.mayWrite Master.mgmt 20 ∧ s.mayWrite Master.mgmt 65572 ∧ s.dev.ctx[63].run = Run.stopped ∧
   s.dev.sys.outcome ≠ 3 ∧ s.dev.traced 63 = false ∧ s.dev.pwr.gated[sequencerOf 63] = false ∧ s.dev.ctx[63].atBoundary = true ∧
   s.dev.ctx[63].due = { : Boundary } ∧ s.dev.ctx[63].sbuf = [] ∧ s.mayWrite Master.mgmt 65568 ∧ Master.mgmt ≠ Master.debug ∧
   Master.mgmt ≠ Master.mirrorIn ∧ fld (63#32) 0 8 = ↑63 ∧ s.dev.ctx[63].frozen = true) ∧
  (let s : State := rig fun d => { d.updCtx 0 fun x => { x with run := .waiting } with mfrozen := 0x100000 }
   (0#8).toNat = ↑0 ∧ ctxPresent s.part 0 = true ∧ s.mayWrite (Master.ctx 3) 65572 ∧ s.dev.ctx[0].run ≠ Run.stopped ∧
   s.dev.ctx[0].resetting = false ∧ s.dev.ctx[0].atBoundary = true ∧ s.dev.ctx[0].due = { : Boundary } ∧ s.dev.traced 0 = false ∧
   s.dev.pwr.gated[sequencerOf 0] = false ∧ s.mayWrite (Master.ctx 3) 65568 ∧ Master.ctx 3 ≠ Master.debug ∧ Master.ctx 3 ≠ Master.mirrorIn ∧
   fld (84#32) 0 8 = 80 + ↑4 ∧ s.dev.mfrozen.getLsbD (16 + ↑4) = true) ∧
  (let s : State := rig
   (0#8).toNat = ↑0 ∧ ctxPresent s.part 0 = true ∧ s.mayWrite (Master.ctx 3) 65568 ∧ Master.ctx 3 ≠ Master.debug ∧ Master.ctx 3 ≠ Master.mirrorIn ∧
   fld (0#32) 0 8 = ↑0 ∧ s.dev.ctx[0].frozen = false) ∧
  (let s : State := rig
   (0#8).toNat = ↑0 ∧ ctxPresent s.part 0 = true ∧ s.mayWrite (Master.ctx 3) 65568 ∧ Master.ctx 3 ≠ Master.debug ∧ Master.ctx 3 ≠ Master.mirrorIn ∧
   fld (84#32) 0 8 = 80 + ↑4 ∧ s.dev.mfrozen.getLsbD (16 + ↑4) = false) ∧
  (let s : State := rig
   (0#8).toNat = ↑0 ∧ ctxPresent s.part 0 = true ∧ s.mayWrite (Master.ctx 3) 65568 ∧ Master.ctx 3 ≠ Master.debug ∧ Master.ctx 3 ≠ Master.mirrorIn ∧
   fld (67#32) 0 8 = 64 + ↑3 ∧ dmaPresent s.part 3 = true ∧ s.dev.frozen (Master.dma 3) = false) ∧
  (let s : State := rig
   (0#8).toNat = ↑0 ∧ ctxPresent s.part 0 = true ∧ s.mayWrite Master.debug 65568 ∧ (Master.debug = Master.debug ∨ Master.debug = Master.mirrorIn) ∧
   masterAbsent s.part (fld (0#32) 0 8) = false) ∧
  (let s : State := dmaS { st := .run, list := [2] } [] (fun d => { d with mfrozen := 8 })
   (0#8).toNat = ↑0 ∧ ctxPresent s.part 0 = true ∧ s.mayWrite (Master.ctx 3) 65568 ∧ Master.ctx 3 ≠ Master.debug ∧ Master.ctx 3 ≠ Master.mirrorIn ∧
   fld (67#32) 0 8 = 64 + ↑3 ∧ dmaPresent s.part 3 = true ∧ s.dev.frozen (Master.dma 3) = true) ∧
  (let s : State := rig id (partOf .yk4820)
   (0#8).toNat = ↑0 ∧ ctxPresent s.part 0 = true ∧ s.mayWrite (Master.ctx 3) 65568 ∧ masterAbsent s.part (fld (72#32) 0 8) = true) := by
  refine ⟨?_, ?_, ?_, ?_, ?_, ?_, ?_, ?_⟩ <;> ((try dsimp only [State.mayWrite, State.portFree]); decide +kernel)

theorem test_ResetBootAndWritesComplete_met :
  (let s : State := State.reset
   s.dev.phase = Phase.inReset) ∧
  (let s : State := rig fun d => { d with phase := .verify }
   s.dev.phase = Phase.verify ∧ s.mayWrite Master.mgmt 655364) := by
  refine ⟨?_, ?_⟩ <;> ((try dsimp only [State.mayWrite, State.portFree]); decide +kernel)

theorem test_DecodeOfEncodeAndBack_met :
  wellFormed (Instr.add 3 1 2 3 4) = true ∧ encodeInsn (Instr.add 3 1 2 3 4) = some (3, fmtA 1 1 2 3 4) := by
  decide +kernel

/-- A state that runs an instruction, with memory written. -/
def writes : State := { rig (pokes 0x2000 [5]) with pending := [.halt 3] }

theorem test_MemoryStaysCanonical_met : memWf writes.dev.mem = true ∧ ∃ t, step writes = .next t := ⟨by decide +kernel, _, rfl⟩

theorem test_RegisterZeroStays_met : (∀ c : CtxId, (writes.dev.ctx[c]).g[(0 : Fin 16)] = 0) ∧ ∃ t, step writes = .next t := ⟨by decide +kernel, _, rfl⟩

end Sys2Proof.Tests
end

section
/-!
Accesses to registers of absent units, and MMIO writes that a master may not make (00 R4, 01 R16 to R20, 03 R70 to R79).
-/
namespace Sys2Proof.Proofs.Scope

open Sys2Proof.Machine Sys2Proof.Laws

/-! ### The MMIO_WRITE command -/

/-- The address word of an MMIO offset does not wrap. -/
theorem mmioAddr_toNat (o : Nat) (h : o < 0x100000) : (BitVec.ofNat 32 (0x8000000 + o)).toNat = 0x8000000 + o := by
  rw [BitVec.toNat_ofNat]
  omega

/-- MMIO_WRITE at an MMIO offset is the register write of that offset (01 R18). -/
theorem exec_mmioWrite (s : State) (m : Master) (o : Nat) (v : Word) (h : o < 0x100000) :
    exec (.mmioWrite m (BitVec.ofNat 32 (0x8000000 + o)) v) s = regWrite m o v s := by
  show execMmioWrite m _ v s = _
  have hr : (regionOf s.part (0x8000000 + o) == .mmio) = true := by rw [mmio_region s.part o h]; rfl
  simp only [execMmioWrite, regWrite, act, Dev.when, mmioAddr_toNat o h, hr, if_true, Nat.add_sub_cancel_left]

/-- MMIO_WRITE comes to the device that the bus write answers. -/
theorem mmioWrite_completes {s : State} {m : Master} {o : Nat} {v : Word} {t : Dev} (h : o < 0x100000) (ht : s.dev.busWrite s.part m o v = t) :
    Completes (.mmioWrite m (BitVec.ofNat 32 (0x8000000 + o)) v) s t := by
  unfold Completes
  rw [exec_mmioWrite s m o v h, ← ht]
  rfl

/-! ### Registers of an absent unit -/

/-- A write of a register of an absent unit passes no crossing: those of the ports and of the front end go with the unit, and the watchdogs are in every part (01 R25, 00 R4). -/
theorem crossOf_absent (P : Part) (o : Nat) (h : regAbsent P o = true) : crossOf P o = none := by
  unfold regAbsent at h
  unfold crossOf
  have hports : P.ports < 8 := (P.caps.extractLsb' 0 3).isLt
  split
  next hp =>
    have hb : o / 0x10000 = 3 := by omega
    simp only [hb, Bool.and_eq_true, decide_eq_true_eq] at h
    omega
  next =>
    split
    next hk =>
      simp only [hk.1, decide_eq_true_eq] at h
      exact absurd h hk.2
    next =>
      have hw : o / 0x10000 ≠ 0xB := by
        intro hb
        simp [hb] at h
      rw [if_neg (by omega), if_neg (by simp [hw])]

/-- An accepted write of a register of an absent unit sets ABSENT alone (00 R4). -/
theorem accept_absent (P : Part) (d : Dev) (m : Master) (pc insn : Word) (o : Nat) (v : Word) (h : regAbsent P o = true) :
    d.accept P m pc insn o v = d.setAbsent := by
  simp [Dev.accept, Dev.crossWrite, crossOf_absent P o h, Dev.mmioWrite, h]

/-- A read of a register of an absent unit returns 0 and sets ABSENT alone (00 R4). -/
theorem mmioRead_absent (P : Part) (d : Dev) (m : Master) (o : Nat) (h : regAbsent P o = true) :
    d.mmioRead P m o = (0, d.setAbsent) := by
  simp [Dev.mmioRead, h]

/-! ### Masters that do not get at the bus -/

/-- A master other than a context that does not get at the bus changes nothing. -/
theorem busWrite_of_not_busFree {P : Part} {d : Dev} {m : Master} (o : Nat) (v : Word) (hm : ∀ c, m ≠ .ctx c) (h : d.busFree P m = false) :
    d.busWrite P m o v = d := by
  cases m with
  | ctx c => exact absurd rfl (hm c)
  | _ => simp [Dev.busWrite, h]

/-- A master that the part lacks does not get at the bus (log 1). -/
theorem busFree_lacking {P : Part} {d : Dev} {m : Master} (h : masterPresent P m = false) : d.busFree P m = false := by
  simp [Dev.busFree, h]

/-- A frozen master does not get at the bus (03 R78). -/
theorem busFree_frozen {P : Part} {d : Dev} {m : Master} (h : d.frozen m = true) : d.busFree P m = false := by
  simp [Dev.busFree, h]

/-- A master that does not reach the MMIO port waits for no grant there: its access is made at once, and refused (01 R16). -/
theorem busFree_of_unreached {P : Part} {d : Dev} {m : Master} (hc : d.coreOn = true) (hp : masterPresent P m = true)
    (hf : d.frozen m = false) (hr : reaches m .mmio = false) : d.busFree P m = true := by
  have hg : m ≠ .mgmt := by rintro rfl; exact absurd hr (by decide)
  simp [Dev.busFree, hc, hp, hf, hr, hg]

/-! ### The fault record of a master that is no context -/

/-- A store does not touch the ring index, wherever it goes. -/
theorem store_frW (P : Part) (d : Dev) (a : Nat) (bs : List Byte) : (d.store P a bs).sys.frW = d.sys.frW := by
  have hAll : ∀ bs, (d.storeAll P a bs).sys = d.sys := fun bs => by
    unfold Dev.storeAll
    simp only [poke_fields]
    exact foldl_keeps (fun d => d.sys) _ (fun _ _ => by simp) _ _
  unfold Dev.store
  split
  · simp
  · split <;> simp [hAll]

/-- The record indices after a record: the write index moves by one (16 R364). -/
theorem recordAt_frW (y : Sys) (cycle : Nat) : (y.recordAt cycle).frW = y.frW + 1 := by
  unfold Sys.recordAt
  split <;> rfl

/-- A word spelled by its own bytes. -/
theorem nword_leNat_wordBytes (w : Word) : nword (leNat (wordBytes w)) = w := by
  apply BitVec.eq_of_toNat_eq
  have hw := w.isLt
  simp only [nword, wordBytes, leNat, BitVec.toNat_ofNat, BitVec.extractLsb'_toNat, Nat.shiftRight_eq_div_pow]
  omega

/-- No part has more line store than the 3 MiB of its region (01 R21). -/
theorem lsBytes_le (P : Part) : P.lsBytes ≤ 0x300000 := by
  unfold Part.lsBytes Part.caps
  cases P.variant <;> decide

/-- An AON address is in the AON region. -/
theorem aon_region (P : Part) (a : Nat) (h0 : 0x3000000 ≤ a) (h1 : a < 0x3002000) : regionOf P a = .aon := by
  have hl := lsBytes_le P
  unfold regionOf
  rw [if_neg (by omega), if_neg (by omega), if_neg (by omega), if_neg (by omega), if_pos ⟨h0, h1⟩]

/-- Bytes stored in AON reach memory whole: no part of it is absent (01 R21). -/
theorem store_mem_aon (P : Part) (d : Dev) (a : Nat) (bs : List Byte) (h0 : 0x3000000 ≤ a) (h1 : a < 0x3002000) :
    (d.store P a bs).mem = memPuts (d.mem.note d.ecc d.cycle a bs.length) a bs := by
  have hl := lsBytes_le P
  have hr : regionOf P a ≠ .lsAbsent := by rw [aon_region P a h0 h1]; decide
  have hp : presentLen P a bs.length = bs.length := by
    unfold presentLen
    rw [if_neg (by omega)]
  rw [store_mem, if_neg hr, hp, List.take_length]

/-- A device whose memory is as a store in AON left it reads the first word stored. -/
theorem word_of_store_aon (P : Part) (d t : Dev) (a : Nat) (w : Word) (rest : List Byte) (h0 : 0x3000000 ≤ a) (h1 : a < 0x3002000)
    (ht : t.mem = (d.store P a (wordBytes w ++ rest)).mem) : t.word a = w := by
  rw [store_mem_aon P d a _ h0 h1] at ht
  have hbytes : t.bytes a 4 = wordBytes w := by
    refine List.ext_getElem rfl fun j _ hj => ?_
    simp only [Dev.bytes, List.getElem_map, List.getElem_range, Dev.byte, ht]
    rw [memGet_memPuts_in _ _ a j (by rw [List.length_append]; omega), List.getElem_append_left hj]
  rw [Dev.word, Dev.loadLE, hbytes, nword_leNat_wordBytes]

/-- Where no record of the cycle is of a higher master, none moves up behind a new one (03 R79). -/
theorem recordsNow_above_nil {d : Dev} {n : Nat} (h : ∀ r ∈ d.recordsNow, r.1 ≤ n) : d.recordsNow.filter (fun r => decide (n < r.1)) = [] := by
  rw [List.filter_eq_nil_iff]
  intro r hr
  simpa using h r hr

section Record

variable (P : Part) (d : Dev) {m k : Nat} {fr : Bool} {pc : Word} {x : Access} {b : Bool} {i st : Word}

/-- A record with none of a higher master in its cycle moves the write index by one (16 R364). -/
theorem record_frW (h : ∀ r ∈ d.recordsNow, r.1 ≤ m) :
    (d.record P m k fr pc x b i st).sys.frW = d.sys.frW + 1 := by
  unfold Dev.record
  simp only [raise_fields, updSys_fields, recordsNow_above_nil h, Dev.writeRecords, recordAt_frW, store_frW]

/-- The first word of such a record stands at the write index: master, cause and whether it froze (03 R81). -/
theorem record_word0 (h : ∀ r ∈ d.recordsNow, r.1 ≤ m) :
    (d.record P m k fr pc x b i st).word (0x3000000 + 32 * d.sys.frW.toNat) = place m 0 ||| place k 8 ||| flag fr 16 := by
  have hi := d.sys.frW.isLt
  refine word_of_store_aon P d _ _ _ ?rest (by omega) (by omega) ?mem
  case mem =>
    unfold Dev.record
    simp only [raise_fields, updSys_fields, recordsNow_above_nil h, Dev.writeRecords, List.length_nil, BitVec.ofNat_eq_ofNat,
      BitVec.sub_zero, List.cons_append, List.flatMap_cons]
    rfl

end Record

/-! ### Masters that do not reach MMIO -/

/-- Link ingress, cascade ingress and the correlator freeze by a record with cause DECODE at an MMIO write, egress windows apart for cascade ingress (01 R16, R19, 03 R78). -/
theorem busWrite_decode {P : Part} {d : Dev} {m : Master} (o : Nat) (v : Word) (hm : m ∈ [Master.linkIn, .cascIn, .corr])
    (hc : d.coreOn = true) (hp : masterPresent P m = true) (hf : d.frozen m = false)
    (he : m = .cascIn → egressStream (0x8000000 + o) = none) :
    d.busWrite P m o v = ({ d with mfrozen := d.mfrozen ||| (1#21 <<< (mnum m - 64)) }).record P (mnum m) 0x0A true 0
      { addr := nword (0x8000000 + o), size := 4, write := true } false 0 0 := by
  have hr := (by decide : ∀ m ∈ [Master.linkIn, .cascIn, .corr], reaches m .mmio = false) m hm
  have hb := busFree_of_unreached hc hp hf hr
  simp only [List.mem_cons, List.not_mem_nil, or_false] at hm
  rcases hm with rfl | rfl | rfl
  · simp [Dev.busWrite, hb, Dev.freezeMst]
  · simp [Dev.busWrite, hb, Dev.freezeMst, he rfl]
  · simp [Dev.busWrite, hb, Dev.freezeMst]

/-- Cascade ingress that writes in an egress window changes nothing (log 89). -/
theorem busWrite_cascIn_egress {P : Part} {d : Dev} (o : Nat) (v : Word) (he : (egressStream (0x8000000 + o)).isSome = true) :
    d.busWrite P .cascIn o v = d := by
  unfold Dev.busWrite
  simp [he]

/-- A context that may issue and whose write has a violation freezes: the check comes before any wait (03 R70, R72, R77). -/
theorem busWrite_ctx_violation {P : Part} {d : Dev} {c : CtxId} {k : Nat} (o : Nat) (v : Word) (hc : d.coreOn = true)
    (hi : d.mayIssue P c = true) (hk : d.accessCause P c (0x8000000 + o) 4 true = some k) :
    d.busWrite P (.ctx c) o v = d.freezeCtx P c k { addr := nword (0x8000000 + o), size := 4, write := true } (d.insnAt c) := by
  have hs : d.storeReady P c (0x8000000 + o) 4 = true := by
    unfold Dev.storeReady Dev.checkedCause
    rw [mayIssue_held hi, hk]
    rfl
  simp [Dev.busWrite, hc, hi, hs, hk]

/-- The first word of the record of a master that DECODE froze, as the ring shows it (03 R81). -/
theorem decode_word0 : ∀ m ∈ [Master.linkIn, .cascIn, .corr],
    place (mnum m) 0 ||| place 0x0A 8 ||| flag true 16 = (1#16 ++ 10#8 ++ BitVec.ofNat 8 (mnum m) : BitVec 32) := by
  decide

/-- What such a write leaves: the master frozen, its record in the ring, every register and context as it was (03 R78, R79, R81). -/
theorem busWrite_decode_effect {P : Part} {d : Dev} {m : Master} (o : Nat) (v : Word) (hm : m ∈ [Master.linkIn, .cascIn, .corr])
    (hc : d.coreOn = true) (hp : masterPresent P m = true) (hf : d.frozen m = false)
    (he : m = .cascIn → egressStream (0x8000000 + o) = none) (hrec : ∀ r ∈ d.recordsNow, r.1 ≤ mnum m) :
    (d.busWrite P m o v).mfrozen = d.mfrozen ||| (1#21 <<< (mnum m - 64)) ∧ (d.busWrite P m o v).sys.frW = d.sys.frW + 1 ∧
    (d.busWrite P m o v).regs = d.regs ∧ (d.busWrite P m o v).ctx = d.ctx ∧
    (d.busWrite P m o v).word (0x3000000 + 32 * d.sys.frW.toNat) = (1#16 ++ 10#8 ++ BitVec.ofNat 8 (mnum m) : BitVec 32) := by
  let e : Dev := { d with mfrozen := d.mfrozen ||| (1#21 <<< (mnum m - 64)) }
  rw [busWrite_decode o v hm hc hp hf he]
  exact ⟨by simp, record_frW P e hrec, by simp, by simp, (record_word0 P e hrec).trans (decode_word0 m hm)⟩

/-- Settles O22: MMIO_WRITE and HK_RES_READ reduce to the bus access of their master, which the lemmas above tell case by case. -/
theorem absentAndRefusedRegisters : Obligations.AbsentAndRefusedRegisters := by
  unfold Obligations.AbsentAndRefusedRegisters
  refine ⟨fun s m o v ha => ⟨fun hw => ?_, ?_⟩, fun s o v hc ho => ⟨?_, ?_, ?_, ?_, ?_, ?_⟩⟩
  · have h := write_completes _ s m o v (exec_mmioWrite s m o v hw.2.1) hw
    rw [accept_absent _ _ _ _ _ _ _ ha] at h
    exact h
  · rintro e rfl hr
    have h := read_completes (.hkResRead m e) s m _ rfl hr
    rw [mmioRead_absent _ _ _ _ ha] at h
    exact h
  · intro m hm hp hf hrec he
    exact ⟨_, mmioWrite_completes ho rfl, busWrite_decode_effect o v hm hc hp hf he hrec⟩
  · intro c k hi hk
    exact mmioWrite_completes ho (busWrite_ctx_violation o v hc hi hk)
  · intro _ he
    exact mmioWrite_completes ho (busWrite_cascIn_egress o v he)
  · intro m hm hp
    have hctx : ∀ c, m ≠ .ctx c := by rintro c rfl; simp at hm
    exact mmioWrite_completes ho (busWrite_of_not_busFree o v hctx (busFree_lacking hp))
  · intro n hp
    exact mmioWrite_completes ho (busWrite_of_not_busFree o v (by simp) (busFree_lacking hp))
  · intro hf
    exact mmioWrite_completes ho (busWrite_of_not_busFree o v (by simp) (busFree_frozen hf))

end Sys2Proof.Proofs.Scope
end

section
/-!
The machine right after reset (01 R27, 02 R63, 14 R330, R331).
-/
namespace Sys2Proof.Proofs.Reset

open Sys2Proof.Machine Sys2Proof.Laws

/-- Only the AON window is in the AON region (01 R21). -/
theorem aon_of_region {P : Part} {a : Nat} (h : regionOf P a = .aon) : 0x3000000 ≤ a ∧ a < 0x3002000 := by
  unfold regionOf at h
  repeat' split at h
  all_goals simp_all

/-- Only the NVM window is in the NVM region (01 R21). -/
theorem nvm_of_region {P : Part} {a : Nat} (h : regionOf P a = .nvm) : 0x4000000 ≤ a ∧ a < 0x4080000 := by
  unfold regionOf at h
  repeat' split at h
  all_goals simp_all

/-- A byte that nothing has written reads its region's value (log 6). -/
theorem byte_unwritten {d : Dev} (a : Nat) (h : d.mem.cells = []) : d.byte a = memDflt d.mem a := by
  simp [Dev.byte, memGet, h, tabGet]

/-- Settles O2: each value is the default of its field; AON and NVM read their defaults, because reset lists no byte. -/
theorem resetState : Obligations.ResetState := by
  refine ⟨rfl, rfl, rfl, rfl, rfl, rfl, rfl, fun c => ?_, rfl, fun a ha => ?_, fun a ha => ?_⟩
  · have hc : State.reset.dev.ctx[c] = {} := by simp [State.reset]
    rw [hc]
    exact ⟨rfl, rfl, rfl, rfl, fun k => by simp, fun r => by simp⟩
  · have h := aon_of_region ha
    rw [byte_unwritten a rfl]
    unfold memDflt
    rw [if_neg (by omega), if_neg (by omega), if_neg (by omega)]
  · rw [byte_unwritten a rfl]
    exact if_pos (nvm_of_region ha)

end Sys2Proof.Proofs.Reset
end

section
/-!
Reads that latch the companions of a register, and reads that act (01 R28, 02 R63, 08 R196, 09 R199, 11 R260, 16 R365).
-/
namespace Sys2Proof.Proofs.Reads

open Sys2Proof.Machine Sys2Proof.Laws

/-! ### The companions that a master keeps -/

/-- A master is found by its number (01 R16). -/
theorem masterOf_mnum (m : Master) : masterOf (mnum m) = some m := by
  cases m with
  | ctx c => simp [masterOf, mnum]
  | dma n =>
    have h : ¬ 64 + n.val < 64 ∧ 64 + n.val < 80 := by omega
    simp [masterOf, mnum, h]
  | _ => rfl

/-- Masters are told apart by their numbers (01 R16). -/
theorem mnum_injective : Function.Injective mnum := fun a b h =>
  Option.some_injective _ (by rw [← masterOf_mnum a, h, masterOf_mnum b])

/-- A companion is kept for its master and offset alone (01 R28). -/
theorem getLatch_setLatch (d : Dev) {m m' : Master} {o o' : Nat} (v : Word) (ho : o < 2 ^ 20) (ho' : o' < 2 ^ 20) :
    (d.setLatch m o v).getLatch m' o' = if m' = m ∧ o' = o then v else d.getLatch m' o' := by
  unfold Dev.getLatch Dev.setLatch
  rw [tabGet_tabSet]
  refine if_congr ⟨fun h => ?_, fun ⟨h, h'⟩ => by rw [h, h']⟩ rfl rfl
  have : mnum m' = mnum m := by omega
  exact ⟨mnum_injective this, by omega⟩

/-- What a master keeps is what it then finds. -/
theorem getLatch_setLatch_self (d : Dev) (m : Master) {o : Nat} (v : Word) (ho : o < 2 ^ 20) : (d.setLatch m o v).getLatch m o = v := by
  rw [getLatch_setLatch d v ho ho, if_pos ⟨rfl, rfl⟩]

/-- A master's companions kept one after the other. -/
def latchAll (m : Master) (his : List (Nat × Word)) (d : Dev) : Dev := his.foldl (fun d p => d.setLatch m p.1 p.2) d

/-- Keeping companions changes nothing else. -/
theorem latchAll_eq (m : Master) (his : List (Nat × Word)) : ∀ d, latchAll m his d = { d with latch := (latchAll m his d).latch } := by
  induction his with
  | nil => exact fun d => rfl
  | cons p r ih => exact fun d => ih (d.setLatch m p.1 p.2)

/-- Keeping companions leaves those of other masters and offsets. -/
theorem getLatch_latchAll_other (m : Master) {m' : Master} {o' : Nat} (ho' : o' < 2 ^ 20) (his : List (Nat × Word)) :
    ∀ d : Dev, (∀ h ∈ his, h.1 < 2 ^ 20) → (m' ≠ m ∨ ∀ h ∈ his, h.1 ≠ o') → (latchAll m his d).getLatch m' o' = d.getLatch m' o' := by
  induction his with
  | nil => exact fun d _ _ => rfl
  | cons p r ih =>
    intro d hb hne
    have hp : ¬ (m' = m ∧ o' = p.1) := by
      rintro ⟨rfl, rfl⟩
      exact hne.elim (fun h => h rfl) fun h => h p List.mem_cons_self rfl
    calc (latchAll m (p :: r) d).getLatch m' o' = (d.setLatch m p.1 p.2).getLatch m' o' :=
          ih _ (fun h hh => hb h (.tail _ hh)) (hne.imp_right fun h x hx => h x (.tail _ hx))
      _ = d.getLatch m' o' := by rw [getLatch_setLatch d p.2 (hb p List.mem_cons_self) ho', if_neg hp]

/-- Each companion is kept as it was given. -/
theorem getLatch_latchAll_mem (m : Master) (his : List (Nat × Word)) :
    ∀ d : Dev, (∀ h ∈ his, h.1 < 2 ^ 20) → (his.map Prod.fst).Nodup → ∀ h ∈ his, (latchAll m his d).getLatch m h.1 = h.2 := by
  induction his with
  | nil => simp
  | cons p r ih =>
    intro d hb hn h hh
    obtain ⟨hp, hr⟩ := List.nodup_cons.mp hn
    have hlt := hb p List.mem_cons_self
    rcases List.mem_cons.mp hh with rfl | hh
    · have hne : ∀ x ∈ r, x.1 ≠ h.1 := fun x hx e => hp (e ▸ List.mem_map_of_mem hx)
      calc (latchAll m (h :: r) d).getLatch m h.1 = (d.setLatch m h.1 h.2).getLatch m h.1 :=
            getLatch_latchAll_other m hlt r _ (fun x hx => hb x (.tail _ hx)) (.inr hne)
        _ = h.2 := getLatch_setLatch_self d m h.2 hlt
    · exact ih _ (fun x hx => hb x (.tail _ hx)) hr h hh

/-! ### Low registers -/

/-- An offset whose read is plain: it returns the register's value and keeps its companions. -/
def plainRead (o : Nat) : Bool :=
  !latched o && !decide (0x90400 ≤ o ∧ o < 0x90500) && !decide (0xC0 ≤ o ∧ o < 0x100) && !decide (0xA0100 ≤ o ∧ o < 0xA0180)

/-- A plain read returns the value and keeps the companions for the reader. -/
theorem mmioRead_plain (P : Part) (d : Dev) (m : Master) {o : Nat} (ha : regAbsent P o = false) (hp : plainRead o = true) :
    d.mmioRead P m o = (d.regVal P m o, latchAll m (d.latches o) d) := by
  simp only [plainRead, Bool.and_eq_true, Bool.not_eq_true', decide_eq_false_iff_not] at hp
  obtain ⟨⟨⟨hl, h9⟩, hC⟩, hA⟩ := hp
  unfold Dev.mmioRead
  rw [ha, hl, if_neg (by simp), if_neg (by simp), if_neg h9, if_neg hC, if_neg (by omega), if_neg (by omega)]
  rfl

/-- An accepted plain read: the value, the companions, and nothing else (01 R28). -/
theorem latching_read {i : Instr} {s : State} {m : Master} {o : Nat} {lo : Word} {his : List (Nat × Word)} (hi : exec i s = regRead m o s)
    (ha : regAbsent s.part o = false) (hp : plainRead o = true) (hv : s.dev.regVal s.part m o = lo) (hl : s.dev.latches o = his)
    (hb : ∀ h ∈ his, h.1 < 2 ^ 20) (hn : (his.map Prod.fst).Nodup) :
    s.mayRead m o → ∃ t, Completes i s t ∧
      t = { s.dev with rdata := lo, latch := t.latch } ∧ (∀ h ∈ his, t.getLatch m h.1 = h.2) ∧
      ∀ (m' : Master) (o' : Nat), o' < 2 ^ 20 → (m' ≠ m ∨ ∀ h ∈ his, h.1 ≠ o') → t.getLatch m' o' = s.dev.getLatch m' o' := by
  intro hr
  have hc := read_completes i s m o hi hr
  rw [mmioRead_plain _ _ _ ha hp, hv, hl] at hc
  refine ⟨_, hc, ?_, getLatch_latchAll_mem m his s.dev hb hn, fun m' o' ho' => getLatch_latchAll_other m ho' his s.dev hb⟩
  rw [latchAll_eq]

/-- The low word of a position. -/
theorem extractLsb_ofInt (x : Int) : (BitVec.ofInt 48 x).extractLsb' 0 32 = iword x := by
  apply BitVec.eq_of_toNat_eq
  simp only [iword, BitVec.extractLsb'_toNat, BitVec.toNat_ofInt]
  omega

/-! ### Semaphores -/

/-- The read of a semaphore takes it where it is free (16 R365). -/
theorem mmioRead_sem (P : Part) (d : Dev) (m : Master) (i : Fin 16) :
    d.mmioRead P m (0xC0 + 4 * i.val) =
      (d.sys.sem[i], if d.sys.sem[i] = 0 then d.updSys fun y => { y with sem := y.sem.set i (nword (mnum m + 1)) } else d) := by
  fin_cases i <;> rfl

/-! ### Housekeeping results -/

/-- The front end's registers stand in a part that has inputs (00 R4). -/
theorem regAbsent_hk {P : Part} {o : Nat} (hk : P.hkin ≠ 0) (h0 : 0xA0000 ≤ o) (h1 : o < 0xB0000) : regAbsent P o = false := by
  have : o / 0x10000 = 10 := by omega
  simp [regAbsent, this, hk]

/-- HK_RES reads its entry's result. -/
theorem mmioRead_hkRes {P : Part} (d : Dev) (m : Master) (e : HkEnt) (hk : P.hkin ≠ 0) :
    d.mmioRead P m (0xA0100 + 4 * e.val) = d.hkRead m e false := by
  unfold Dev.mmioRead
  rw [regAbsent_hk hk (by omega) (by omega)]
  fin_cases e <;> rfl

/-- HK_PEEK reads its entry's result. -/
theorem mmioRead_hkPeek {P : Part} (d : Dev) (m : Master) (e : HkEnt) (hk : P.hkin ≠ 0) :
    d.mmioRead P m (0xA0140 + 4 * e.val) = d.hkRead m e true := by
  unfold Dev.mmioRead
  rw [regAbsent_hk hk (by omega) (by omega)]
  fin_cases e <;> rfl

/-- The companion of a result is a register of the front end. -/
theorem hkAux_lt (e : HkEnt) : 0xA0180 + 4 * e.val < 2 ^ 20 := by omega

/-- Clearing FRESH. -/
theorem putBit_fresh (w : Word) : putBit w 30 false = w &&& 0xBFFFFFFF := by
  have h : ~~~mask 30 1 = (0xBFFFFFFF : Word) := by decide
  simp [putBit, flag, h]

/-- Noting a result as it stood at the start of the cycle leaves the result (11 R260). -/
theorem resNote_eq (d : Dev) (e : HkEnt) :
    d.resNote e = { d with hk := { d.hk with was := (d.resNote e).hk.was, wasAt := (d.resNote e).hk.wasAt, pubs := (d.resNote e).hk.pubs } } := by
  unfold Dev.resNote Dev.updHk
  dsimp only
  repeat' split
  all_goals rfl

/-- Settles O20: a low register's read by `latching_read`, a semaphore's by `mmioRead_sem`, a result's by `Dev.hkRead`. -/
theorem latchingAndActingReads : Obligations.LatchingAndActingReads := by
  refine ⟨fun s m a => ?_, fun s m i e => ⟨fun hr => ?_, fun hk => ⟨fun hr => ?_, fun hr => ?_⟩⟩⟩
  · refine ⟨?_, ?_, ?_, ?_, ?_, ?_, ?_⟩
    · exact latching_read rfl rfl rfl rfl rfl (by simp) (by simp)
    · exact latching_read rfl rfl rfl (extractLsb_ofInt _).symm rfl (by simp) (by simp)
    · exact latching_read rfl rfl rfl (extractLsb_ofInt _).symm rfl (by simp) (by simp)
    · fin_cases a <;> exact latching_read rfl rfl rfl (extractLsb_ofInt _).symm rfl (by simp [motOff]) (by simp)
    · fin_cases a <;> exact latching_read rfl rfl rfl (extractLsb_ofInt _).symm rfl (by simp [motOff]) (by simp)
    · fin_cases a <;> exact latching_read rfl rfl rfl rfl rfl (by simp [motOff]) (by simp)
    · exact latching_read rfl rfl rfl rfl rfl (by simp) (by simp)
  · have hc := read_completes (.sysSemAcqRead m i) s m _ rfl hr
    rw [mmioRead_sem] at hc
    refine ⟨fun h0 => ?_, fun h0 => ?_⟩
    · rw [if_pos h0, h0] at hc
      exact hc
    · rw [if_neg h0] at hc
      exact hc
  · have hc := read_completes (.hkResRead m e) s m _ rfl hr
    rw [mmioRead_hkRes _ _ _ hk] at hc
    have hl := getLatch_setLatch_self s.dev m (s.dev.resStart e).2 (hkAux_lt e)
    refine ⟨_, hc, rfl, ?_⟩
    unfold Dev.hkRead
    cases hp : s.dev.hk.wasAt == s.dev.cycle && s.dev.hk.pubs.contains e
    · simp only [Bool.or_self, Bool.false_eq_true, if_false, updHk_fields, putBit_fresh]
      rw [resNote_eq]
      exact ⟨hl, rfl, rfl⟩
    · simp only [Bool.false_or, if_true]
      exact ⟨hl, rfl, rfl⟩
  · have hc := read_completes (.hkPeekRead m e) s m _ rfl hr
    rw [mmioRead_hkPeek _ _ _ hk] at hc
    have hl := getLatch_setLatch_self s.dev m (s.dev.resStart e).2 (hkAux_lt e)
    exact ⟨_, hc, rfl, hl, rfl⟩

end Sys2Proof.Proofs.Reads
end

section
/-!
Writes of registers without an effect of their own (00 R4 to R10, 01 R18, R19, R25).
-/
namespace Sys2Proof.Proofs.PlainWrites

open Sys2Proof.Machine Sys2Proof.Laws Sys2Proof.Proofs.Scope

/-! ### The table -/

/-- A register of the table after a write of one: the written word there, every other as it was. -/
theorem reg_setReg (d : Dev) (o o' : Nat) (v : Word) : (d.setReg o v).reg o' = if o' = o then v else d.reg o' := by
  unfold Dev.reg
  rw [setReg_fields d o v |>.1]
  by_cases h : o' = o
  · rw [if_pos h, h, tabGet_tabSet, if_pos rfl]
  · rw [if_neg h]
    unfold tabSet
    split
    · rw [tabGet_tabDel, if_neg h]
    · rw [tabGet_tabIns _ _ _ _ _ fun p hp e => ?_, if_neg h, tabGet_tabDel, if_neg h]
      simp [tabDel, e] at hp

/-- A write of a register through its mask: the writable bits of the word, the others as they were (01 R18). -/
theorem reg_writeReg_self (P : Part) (d : Dev) (o : Nat) (v : Word) :
    (d.writeReg P o v).reg o = (d.reg o &&& ~~~regMask P d o) ||| (v &&& regMask P d o) := by
  rw [Dev.writeReg, reg_setReg, if_pos rfl]

/-- A write of a register leaves every other register of the table. -/
theorem reg_writeReg_other (P : Part) (d : Dev) {o o' : Nat} (v : Word) (h : o' ≠ o) : (d.writeReg P o v).reg o' = d.reg o' := by
  rw [Dev.writeReg, reg_setReg, if_neg h]

/-! ### The crossing -/

/-- A crossing takes an entry and a free value alone (01 R25). -/
theorem crossWrite_eq (P : Part) (d : Dev) (o : Nat) :
    d.crossWrite P o = { d with fifo := (d.crossWrite P o).fifo, free := (d.crossWrite P o).free } := by
  unfold Dev.crossWrite
  split <;> rfl

/-- Which bits of a register a write sets does not depend on the crossings. -/
theorem regMask_crossWrite (P : Part) (d : Dev) (o o' : Nat) : regMask P (d.crossWrite P o) o' = regMask P d o' := by
  rw [crossWrite_eq]
  rfl

/-- A crossing leaves the table of registers. -/
@[simp] theorem reg_crossWrite (P : Part) (d : Dev) (o o' : Nat) : (d.crossWrite P o).reg o' = d.reg o' := by
  rw [crossWrite_eq]
  rfl

/-- A register's write completes with its crossing taken up and the register's own rule (01 R18, R25). -/
theorem write_effect {i : Instr} {s : State} {m : Master} {o : Nat} {v : Word} {t : Dev} (h : exec i s = regWrite m o v s) (hw : s.mayWrite m o)
    (ht : (s.dev.crossWrite s.part o).mmioWrite s.part m (s.storeAt m).1 (s.storeAt m).2 o v = t) : Completes i s t :=
  ht ▸ write_completes i s m o v h hw

/-! ### Registers without an effect of their own -/

/-- An offset whose write has no effect beside its register: a setting of the blocks that have such ones. -/
def plainOff (o : Nat) : Bool :=
  let r := o % 0x10000
  match o / 0x10000 with
  | 2 => decide (0x40 ≤ r ∧ r < 0x80 ∧ r % 16 ≠ 0)
  | 3 => decide (0x100 ≤ r ∧ r < 0x180 ∧ r % 0x20 ≠ 0 ∧ r % 0x20 ≠ 0xC ∧ r % 0x20 ≠ 0x14) ||
      decide (0x1000 ≤ r ∧ r < 0x5000 ∧ r % 0x1000 ≠ 0 ∧ r % 0x1000 < 0x20)
  | 4 => decide (r ≠ 0 ∧ r ≠ 4)
  | 5 => decide (r ≠ 0 ∧ r ≠ 8 ∧ r < 0x400)
  | 6 => decide (r < 0x200 ∧ r % 0x100 ≠ 0 ∧ r % 0x100 ≠ 8 ∧ r % 0x100 ≠ 0x5C)
  | 7 => decide (r ≠ 0x1C ∧ r ≠ 0x24 ∧ r ≠ 0x28)
  | 8 => decide (0x1000 ≤ r ∧ r < 0x2000 ∧ r % 0x100 ≠ 0 ∧ r % 0x100 < 0x14)
  | 10 => decide (r ≠ 4 ∧ r ≠ 0xC ∧ r ≠ 0x20 ∧ r ≠ 0x24 ∧ r ≠ 0x28 ∧ ¬ (0x200 ≤ r ∧ r < 0x300 ∧ r % 16 = 0))
  | 13 => decide (r ≠ 4 ∧ r ≠ 0x14 ∧ r ≠ 0x20)
  | 14 => decide (r < 0x14)
  | _ => false

/-- A write of a register without an effect of its own is the write through its mask. -/
theorem mmioWrite_plain {P : Part} {o : Nat} (d : Dev) (m : Master) (pc insn v : Word) (ha : regAbsent P o = false) (hp : plainOff o = true) :
    d.mmioWrite P m pc insn o v = d.writeReg P o v := by
  have ho := Nat.div_add_mod o 0x10000
  unfold plainOff at hp
  unfold Dev.mmioWrite
  rw [ha, if_neg (by simp)]
  generalize hr : o % 0x10000 = r at hp ho ⊢
  generalize hb : o / 0x10000 = b at hp ho ⊢
  dsimp only at hp ⊢
  split at hp
  all_goals simp only [Bool.or_eq_true, decide_eq_true_eq, Bool.false_eq_true] at hp
  case h_1 =>
    obtain rfl : o = 0x20000 + r := by omega
    show Dev.evtWrite P d m r v = _
    unfold Dev.evtWrite
    rw [if_neg (by omega), if_neg (by omega), if_neg (by omega), if_neg (by omega), if_neg (by omega), if_neg (by omega)]
  case h_2 =>
    obtain rfl : o = 0x30000 + r := by omega
    show Dev.portWrite P d r v = _
    unfold Dev.portWrite
    rw [if_neg (by omega), if_neg (by omega)]
    rcases hp with hp | hp
    · have hk : 0x30100 + 0x20 * (Fin.ofNat 4 ((r - 0x100) / 0x20)).val + r % 0x20 = 0x30000 + r := by
        simp only [Fin.val_ofNat]
        omega
      rw [if_pos (by omega)]
      unfold Dev.ledWrite
      rw [if_neg (by omega), if_neg (by omega), if_neg (by omega), hk]
    · rw [if_neg (by omega), if_pos (by omega)]
      dsimp only
      rw [if_neg (by omega), if_neg (by omega), if_neg (by omega)]
  case h_3 =>
    obtain rfl : o = 0x40000 + r := by omega
    show Dev.pixWrite P d r v = _
    unfold Dev.pixWrite
    rw [if_neg (by omega), if_neg (by omega)]
  case h_4 =>
    obtain rfl : o = 0x50000 + r := by omega
    show Dev.hngWrite P d r v = _
    unfold Dev.hngWrite
    rw [if_neg (by omega), if_neg (by omega), if_neg (by omega)]
  case h_5 =>
    obtain rfl : o = 0x60000 + r := by omega
    show Dev.motWrite P d r v = _
    unfold Dev.motWrite
    rw [if_pos hp.1]
    dsimp only
    split
    on_goal -1 => rfl
    all_goals omega
  case h_6 =>
    obtain rfl : o = 0x70000 + r := by omega
    show Dev.lsWrite P d r v = _
    unfold Dev.lsWrite
    split
    on_goal -1 => rfl
    all_goals omega
  case h_7 =>
    obtain rfl : o = 0x80000 + r := by omega
    show Dev.dmaRegWrite P d r v = _
    unfold Dev.dmaRegWrite
    rw [if_pos (by omega)]
    dsimp only
    split
    on_goal -1 => rfl
    all_goals omega
  case h_8 =>
    obtain rfl : o = 0xA0000 + r := by omega
    show Dev.hkWrite P d r v = _
    unfold Dev.hkWrite
    rw [if_neg (by omega), if_neg (by omega), if_neg (by omega), if_neg (by omega)]
  case h_9 =>
    show Dev.pwrWrite P d m o v = _
    unfold Dev.pwrWrite
    split
    on_goal -1 => rfl
    all_goals omega
  case h_10 =>
    show Dev.pwrWrite P d m o v = _
    unfold Dev.pwrWrite
    split
    on_goal -1 => rfl
    all_goals omega

/-- Settles O21: the write through the mask after the crossing, which leaves the table. -/
theorem plainRegisterWrites : Obligations.PlainRegisterWrites := by
  intro s m v o ho hw ha
  have hp : plainOff o = true := List.all_eq_true (p := plainOff).mp (by decide) o ho
  have hc := write_completes _ s m o v (exec_mmioWrite s m o v hw.2.1) hw
  rw [Dev.accept, mmioWrite_plain _ m _ _ v ha hp] at hc
  refine ⟨_, hc, ?_, fun o' ho' => ?_, rfl, fun a => ?_⟩
  · rw [reg_writeReg_self, regMask_crossWrite, reg_crossWrite]
  · rw [reg_writeReg_other _ _ _ ho', reg_crossWrite]
  · rw [crossWrite_eq]
    rfl

end Sys2Proof.Proofs.PlainWrites
end

section
/-!
The interconnect's own steps: ECC write-back, accesses of frozen masters, gating of sequencers (01 R22, 03 R76, R80, 14 R322, R341, R351).
-/
namespace Sys2Proof.Proofs.Interconnect

open Sys2Proof.Machine Sys2Proof.Laws

/-! ### Changes that change nothing -/

/-- A change of an element to itself. -/
theorem upd_self {α : Type} {n : Nat} (v : Vector α n) (i : Fin n) (f : α → α) (h : f v[i] = v[i]) : upd v i f = v := by
  unfold upd
  rw [h]
  simp

/-- A change of a context to itself. -/
theorem updCtx_self (d : Dev) (c : CtxId) (f : Ctx → Ctx) (h : f d.ctx[c] = d.ctx[c]) : d.updCtx c f = d := by
  unfold Dev.updCtx
  rw [upd_self _ _ _ h]

/-- A boundary with nothing due changes nothing (03 R77). -/
theorem boundary_of_due (P : Part) (d : Dev) (c : CtxId) (h : (d.ctx[c]).due = {}) : d.boundary P c = d := by
  rw [boundary_idle P d c h]
  exact updCtx_self d c _ (by rw [← h])

/-! ### Accesses in flight -/

/-- Reading the beats of an access leaves the contexts. -/
@[simp] theorem beatRead_ctx (P : Part) (d : Dev) (a n : Nat) : (d.beatRead P a n).ctx = d.ctx := by
  unfold Dev.beatRead
  simp

/-- An access that reads a word with an uncorrectable error is bad (01 R22). -/
theorem eccBad_of_mem {P : Part} {d : Dev} {a n w : Nat} (hw : w ∈ eccWords P a n) (hm : d.mark w = some .double) : d.eccBad P a n = true :=
  List.any_eq_true.mpr ⟨w, hw, by rw [hm]; rfl⟩

/-- A frozen context's load that is granted at an uncorrectable error is discarded with a further record (03 R80). -/
theorem grantLoad_frozen {P : Part} {d : Dev} {c : CtxId} {l : Load} {w : Nat} (hf : (d.ctx[c]).frozen = true) (hd : (d.ctx[c]).due = {})
    (hl : (d.ctx[c]).load = some l) (hw : w ∈ eccWords P l.addr.toNat l.size) (hm : d.mark w = some .double) :
    d.grantLoad P c = (({ d with reqs := d.reqs.filter fun r => r.who != Master.ctx c }.beatRead P l.addr.toNat l.size).updCtx c
      fun y => { y with load := none }).record P c.val 9 true (d.ctx[c]).pc { addr := l.addr, size := l.size } (d.ctx[c]).priv l.insn
        (stWord d.ctx[c]) := by
  have hb : ({ d with reqs := d.reqs.filter fun r => r.who != Master.ctx c } : Dev).eccBad P l.addr.toNat l.size = true :=
    eccBad_of_mem hw hm
  unfold Dev.grantLoad
  simp only [hl, hb, hf, if_true]
  exact boundary_of_due P _ c (by simp [-Fin.getElem_fin, hd])

/-- FROZEN_INFLIGHT_ECC for a master that is not frozen, or at a word without an uncorrectable error, does nothing (log 1). -/
theorem inflightEcc_none {P : Part} {d : Dev} {m : Master} {addr : Word}
    (h : d.frozen m = false ∨ d.mark (eccBase P addr.toNat) ≠ some .double) : d.inflightEcc P m addr = d := by
  unfold Dev.inflightEcc
  exact if_neg fun ⟨hf, hm⟩ => h.elim (fun h => by rw [h] at hf; exact absurd hf (by simp)) fun h => h hm

/-! ### Gating -/

/-- The power unit without the counts of trace, which trace alone changes. -/
def untraced (p : Pwr) : Pwr :=
  { p with tWptr := 0, tFull := false, tWrapped := false, tLost := 0, tOwed := 0, tSince := 0, tFifo := [] }

/-- A trace packet leaves the power unit but for its own counts (14 R351). -/
@[simp] theorem trcPlace_untraced (P : Part) (d : Dev) (k : Vector Word 4) : untraced (d.trcPlace P k).pwr = untraced d.pwr := by
  unfold Dev.trcPlace
  dsimp only
  split <;> rfl

/-- So does one that may find no room. -/
@[simp] theorem trcTry_untraced (P : Part) (d : Dev) (k : Vector Word 4) : untraced (d.trcTry P k).pwr = untraced d.pwr := by
  unfold Dev.trcTry
  split
  · simp
  · rfl

/-- So do the SYNC packets. -/
@[simp] theorem trcSync_untraced (P : Part) (d : Dev) : untraced (d.trcSync P).pwr = untraced d.pwr := by
  unfold Dev.trcSync
  exact foldl_keeps (fun d => untraced d.pwr) _ (fun _ _ => by simp) _ _

/-- So does the packet that tells of lost ones. -/
@[simp] theorem trcGap_untraced (P : Part) (d : Dev) : untraced (d.trcGap P).pwr = untraced d.pwr := by
  unfold Dev.trcGap
  split
  · rw [trcSync_untraced, ← trcPlace_untraced P d]
    rfl
  · rfl

/-- So does a packet with what it brings along. -/
@[simp] theorem trcWrite_untraced (P : Part) (d : Dev) (k : Vector Word 4) : untraced (d.trcWrite P k).pwr = untraced d.pwr := by
  unfold Dev.trcWrite
  dsimp only
  split <;> simp

/-- Accepting every beat that an engine has put out changes memory and its marks, events and ABSENT alone. -/
@[simp] theorem lateAll_fields (P : Part) (d : Dev) :
    (d.lateAll P).ctx = d.ctx ∧ (d.lateAll P).phase = d.phase ∧ (d.lateAll P).pwr = d.pwr := by
  unfold Dev.lateAll
  exact ⟨foldl_keeps (fun d => d.ctx) _ (fun _ _ => by simp) _ _, foldl_keeps (fun d => d.phase) _ (fun _ _ => by simp) _ _,
    foldl_keeps (fun d => d.pwr) _ (fun _ _ => by simp) _ _⟩

/-- A sequencer is busy while a context of it can issue, loads or holds an instruction (14 R322). -/
def seqBusy (d : Dev) (q : Fin 2) : Bool :=
  (List.finRange 64).any fun c => sequencerOf c == q && (d.issuable c || (d.ctx[c]).load.isSome || (d.ctx[c]).held.isSome)

/-- A sequencer is idle when no context of it keeps it. -/
theorem seqBusy_eq_false (d : Dev) (q : Fin 2) :
    seqBusy d q = false ↔ ∀ k : CtxId, sequencerOf k = q → d.issuable k = false ∧ (d.ctx[k]).load = none ∧ (d.ctx[k]).held = none := by
  simp only [seqBusy, List.any_eq_false, List.mem_finRange, forall_const, Bool.and_eq_true, beq_iff_eq, Bool.or_eq_true, not_and, not_or,
    Bool.not_eq_true, Option.isSome_eq_false_iff, Option.isNone_iff_eq_none, and_assoc]

/-- SEQUENCER_GATE at a sequencer that is idle and not gated waits for SUSPEND and gates it (14 R322, R351). -/
theorem seqGate_idle {P : Part} {d : Dev} {q : Fin 2} (hr : d.phase = .run) (hi : seqBusy d q = false) (hg : d.pwr.gated[q] = false)
    (hq : q = 0 ∨ 32 < P.contexts) :
    d.seqGate P q = match d.trcSuspend P (q.val + 1) with
      | some d => d.updPwr fun p => { p with gated := p.gated.set q true }
      | none => d := by
  unfold Dev.seqGate
  exact if_pos ⟨hr, by simpa [seqBusy] using hi, by simp [hg], hq⟩

/-- SEQUENCER_GATE at a busy sequencer does nothing (log 1). -/
theorem seqGate_busy {P : Part} {d : Dev} {q : Fin 2} (hb : seqBusy d q ≠ false) : d.seqGate P q = d := by
  unfold Dev.seqGate
  exact if_neg fun ⟨_, hi, _⟩ => hb (by simpa [seqBusy] using hi)

/-- No gap of lost packets is closed where none is owed or no room is found (14 R351). -/
theorem trcGap_none {P : Part} {d : Dev} (h : d.pwr.tOwed = 0 ∨ d.trcRoom = false) : d.trcGap P = d := by
  unfold Dev.trcGap
  rcases h with h | h <;> simp [h]

/-- SUSPEND with trace off is not written (14 R351). -/
theorem trcSuspend_off {P : Part} {d : Dev} {k : Nat} (h : bit (d.reg 0xF0000) 0 = false) : d.trcSuspend P k = some d := by
  simp [Dev.trcSuspend, Dev.trcCtl, h]

/-- SUSPEND without room is not written yet (14 R351). -/
theorem trcSuspend_full {P : Part} {d : Dev} {k : Nat} (h : bit (d.reg 0xF0000) 0 = true) (hr : d.trcRoom = false) : d.trcSuspend P k = none := by
  simp [Dev.trcSuspend, Dev.trcCtl, h, trcGap_none (P := P) (.inr hr), hr]

/-- SUSPEND with room is written, and what the trace writer has put out accepted (14 R351). -/
theorem trcSuspend_room {P : Part} {d : Dev} {k : Nat} (h : bit (d.reg 0xF0000) 0 = true) (hr : d.trcRoom = true) (ho : d.pwr.tOwed = 0) :
    d.trcSuspend P k = some ((d.trcWrite P (d.packet 5 0 (place k 0) 0)).lateAll P) := by
  simp [Dev.trcSuspend, Dev.trcCtl, h, trcGap_none (P := P) (.inl ho), hr]

/-- Settles O23: each command reduces to the rule of its step, told above. -/
theorem interconnectSteps : Obligations.InterconnectSteps := by
  intro s c ch addr q hc
  have wb : ∀ t, s.dev.writeBack s.part addr = t → Completes (.eccWriteBack addr) s t := fun t ht =>
    ht ▸ core_completes _ s (fun P d => d.writeBack P addr) rfl hc
  have fi : ∀ m t, s.dev.inflightEcc s.part m addr = t → Completes (.frozenInflightEcc m addr) s t := fun m t ht =>
    ht ▸ core_completes _ s (fun P d => d.inflightEcc P m addr) rfl hc
  have sg : ∀ t, s.dev.seqGate s.part q = t → Completes (.sequencerGate q) s t := fun t ht =>
    ht ▸ core_completes _ s (fun P d => d.seqGate P q) rfl hc
  refine ⟨fun hm hn => wb _ (if_pos ⟨hm, hn⟩), fun h => wb _ (if_neg fun ⟨hm, hn⟩ => h.elim (· hm) hn), fun hf hm hd => ⟨?_, ?_⟩,
    fun hf hm => ⟨?_, ?_⟩, fun hf hm r rest hq hr hw => ?_, fun h => fi _ _ (inflightEcc_none h), fun hr hi hg hq => ⟨?_, ?_, ?_⟩, fun hi => ?_⟩
  · intro l hl hn hw
    refine fi _ _ ?_
    rw [← grantLoad_frozen hf hd hl hw hm]
    simp [-Fin.getElem_fin, Dev.inflightEcc, Dev.frozen, hf, hm, hl, hn, hw]
  · intro h
    refine fi _ _ ?_
    unfold Dev.inflightEcc
    rw [if_pos ⟨hf, hm⟩]
    dsimp only
    split
    next l hl =>
      rw [if_neg fun ⟨hn, hw⟩ => (h l hl).elim (· hn) (· (List.contains_iff_mem.mp hw))]
    next => rfl
  · intro hw
    refine fi _ _ ?_
    simp [-Fin.getElem_fin, Dev.inflightEcc, hf, hm, hw, Dev.inflightRecord, mnum, nword]
    rfl
  · intro hw
    refine fi _ _ ?_
    simp [-Fin.getElem_fin, Dev.inflightEcc, hw]
  · refine fi _ _ ?_
    simp [-Fin.getElem_fin, Dev.inflightEcc, hf, hm, hq, hr, hw, Dev.inflightRecord, mnum, nword]
  · intro ht
    exact sg _ (by rw [seqGate_idle hr ((seqBusy_eq_false _ _).mpr hi) hg hq, trcSuspend_off ht]; rfl)
  · intro ht hroom ho
    refine ⟨_, sg _ (by rw [seqGate_idle hr ((seqBusy_eq_false _ _).mpr hi) hg hq, trcSuspend_room ht hroom ho]), ?_, ?_, ?_⟩
    · have hw := congrArg Pwr.gated (trcWrite_untraced s.part s.dev (s.dev.packet 5 0 (place (q.val + 1) 0) 0))
      simp only [updPwr_fields, lateAll_fields]
      exact congrArg (·.set q true) hw
    · simp
    · simp
  · intro ht hroom
    exact sg _ (by rw [seqGate_idle hr ((seqBusy_eq_false _ _).mpr hi) hg hq, trcSuspend_full ht hroom])
  · exact sg _ (seqGate_busy fun hb => hi ((seqBusy_eq_false _ _).mp hb))

end Sys2Proof.Proofs.Interconnect
end

section
/-!
The end of reset, the end of the boot and the register write take place (01 R16, R18, R25, 14 R335, R338, R339).
-/
namespace Sys2Proof.Proofs.Boot

open Sys2Proof.Machine Sys2Proof.Laws Sys2Proof.Proofs.Scope

/-! ### The end of reset -/

/-- The end of reset goes on to the clocks and changes the straps and WDT-A alone (14 R335). -/
theorem resetRelease_fields {P : Part} {d : Dev} (h : d.phase = .inReset) :
    (d.resetRelease P).phase = .clocks ∧ (d.resetRelease P).ctx = d.ctx ∧ (d.resetRelease P).regs = d.regs ∧ (d.resetRelease P).mem = d.mem := by
  unfold Dev.resetRelease Dev.wdtAStart
  rw [if_pos h]
  dsimp only
  repeat' split
  all_goals exact ⟨rfl, rfl, rfl, rfl⟩

/-! ### The end of the boot -/

/-- The phase and the boot's outcome, which the steps of the boot keep. -/
def phaseOutcome (d : Dev) : Phase × BitVec 2 := (d.phase, d.sys.outcome)

/-- A store keeps them, wherever it goes. -/
@[simp] theorem store_phaseOutcome (P : Part) (d : Dev) (a : Nat) (bs : List Byte) : phaseOutcome (d.store P a bs) = phaseOutcome d := by
  have hAll : ∀ bs, (d.storeAll P a bs).sys = d.sys := fun bs => by
    unfold Dev.storeAll
    simp only [poke_fields]
    exact foldl_keeps (fun d => d.sys) _ (fun _ _ => by simp) _ _
  unfold phaseOutcome
  rw [store_fields P d a bs |>.1]
  unfold Dev.store
  split
  · rfl
  · split <;> simp [hAll]

/-- Reading words keeps them. -/
@[simp] theorem eccRange_phaseOutcome (P : Part) (d : Dev) (lo hi : Nat) : phaseOutcome (d.eccRange P lo hi) = phaseOutcome d :=
  foldl_keeps phaseOutcome _ (fun _ _ => by simp [phaseOutcome]) _ _

/-- The evidence of a power-on keeps them. -/
@[simp] theorem powerOnEvidence_phaseOutcome (P : Part) (d : Dev) : phaseOutcome (d.powerOnEvidence P) = phaseOutcome d := by
  unfold Dev.powerOnEvidence
  split <;> simp

/-- The record of a watchdog's reset keeps them. -/
@[simp] theorem writeWdevid_phaseOutcome (P : Part) (d : Dev) : phaseOutcome (d.writeWdevid P).2 = phaseOutcome d := by
  unfold Dev.writeWdevid
  split
  · dsimp only
    split <;> simp
  · rfl

/-- The index of the records keeps them. -/
@[simp] theorem writeIndex_phaseOutcome (P : Part) (d : Dev) (ws : List Rec) : phaseOutcome (d.writeIndex P ws) = phaseOutcome d := by
  unfold Dev.writeIndex
  dsimp only
  split <;> simp

/-- A context made READY keeps them. -/
@[simp] theorem bootCtx_phaseOutcome (P : Part) (d : Dev) (c : CtxId) (pc : Word) : phaseOutcome (d.bootCtx P c pc) = phaseOutcome d := by
  unfold Dev.bootCtx
  split
  · simp [phaseOutcome]
  · rfl

/-- So does the state of a link: its lanes' counters are brought up, and the PLL may stop. -/
@[simp] theorem linkTo_phaseOutcome (P : Part) (d : Dev) (k : LinkId) (st : LinkState) : phaseOutcome (d.linkTo P k st) = phaseOutcome d := by
  have hp : ∀ d : Dev, phaseOutcome (d.pllCheck P) = phaseOutcome d := fun d => by
    unfold Dev.pllCheck
    split <;> rfl
  have hl : ∀ (d : Dev) (n : LaneId), phaseOutcome (d.settleLane n) = phaseOutcome d := fun d n => by
    unfold Dev.settleLane
    dsimp only
    split <;> rfl
  have ht : phaseOutcome (d.peerTimerHeld k) = phaseOutcome d := by
    unfold Dev.peerTimerHeld
    dsimp only
    split <;> rfl
  unfold Dev.linkTo
  rw [hp, ← ht]
  exact foldl_keeps phaseOutcome _ hl _ _

/-- A link disabled keeps them. -/
@[simp] theorem linkDisable_phaseOutcome (P : Part) (d : Dev) (k : LinkId) : phaseOutcome (d.linkDisable P k) = phaseOutcome d := by
  unfold Dev.linkDisable
  dsimp only
  split
  · rfl
  · split
    · rw [← linkTo_phaseOutcome P d k .disabled]
      simp [phaseOutcome, Dev.linkDown]
    · simp

/-- The boot into RECOVERY (14 R338). -/
theorem bootRecovery_phaseOutcome (P : Part) (d : Dev) (reason : Nat) : phaseOutcome (d.bootRecovery P reason) = (d.phase, 3) := by
  unfold Dev.bootRecovery
  dsimp only
  rw [foldl_keeps phaseOutcome _ (fun d c => by split <;> rfl), foldl_keeps phaseOutcome _ (fun d c => by simp)]
  rfl

/-- The boot into FULL or RESTRICTED (14 R339). -/
theorem bootRun_phaseOutcome (P : Part) (d : Dev) (lnkOk : Bool) (mm : Nat) :
    phaseOutcome (d.bootRun P lnkOk mm) = (d.phase, if mm = 0 then 1 else 2) := by
  have hu : ∀ (d : Dev) (f : Pwr → Pwr), phaseOutcome (d.updPwr f) = phaseOutcome d := fun _ _ => rfl
  have hr : ∀ d : Dev, phaseOutcome d.restrictedLink = phaseOutcome d := fun _ => rfl
  unfold Dev.bootRun
  dsimp only
  rw [bootCtx_phaseOutcome, bootCtx_phaseOutcome]
  split
  all_goals
    simp only [hr, hu, writeIndex_phaseOutcome]
    rw [foldl_keeps phaseOutcome _ (fun d r => by simp), writeWdevid_phaseOutcome]
    simp [phaseOutcome]

/-- BOOT_OUTCOME ends the boot in RUN, in RECOVERY exactly for a SUP image that fails (14 R335, R338). -/
theorem bootOutcome_phaseOutcome {P : Part} {d : Dev} (h : d.phase = .verify) :
    (d.bootOutcome P).phase = .run ∧ ((d.bootOutcome P).sys.outcome = 3 ↔ d.imgFails P false ≠ []) := by
  have hv : ∀ {d t : Dev} {n : BitVec 2}, d.phase = .run → phaseOutcome t = (d.phase, n) → t.phase = .run ∧ t.sys.outcome = n :=
    fun hd ht => by simpa [phaseOutcome, hd] using ht
  unfold Dev.bootOutcome
  rw [if_pos h]
  dsimp only
  generalize he : Dev.powerOnEvidence P _ = e
  have hr : e.phase = .run := congrArg Prod.fst (show phaseOutcome e = (.run, d.sys.outcome) by
    rw [← he, powerOnEvidence_phaseOutcome]
    split
    · rfl
    · rw [eccRange_phaseOutcome]
      rfl)
  split
  next hs =>
    obtain ⟨h1, h2⟩ := hv hr (bootRecovery_phaseOutcome P e _)
    exact ⟨h1, iff_of_true h2 hs⟩
  next hs =>
    generalize hf : Dev.eccRange P e _ _ = f
    have hfr : f.phase = .run := (congrArg Prod.fst (hf ▸ eccRange_phaseOutcome P e _ _ : phaseOutcome f = phaseOutcome e)).trans hr
    obtain ⟨h1, h2⟩ := hv hfr (bootRun_phaseOutcome P f _ _)
    refine ⟨h1, iff_of_false ?_ hs⟩
    rw [h2]
    split <;> decide

/-- Settles O55: RESET_RELEASE and BOOT_OUTCOME by the lemmas above; MMIO_WRITE is accepted as every register write is. -/
theorem resetBootAndWritesComplete : Obligations.ResetBootAndWritesComplete := by
  refine fun s m o v => ⟨fun h => ?_, fun h => ?_, fun hw => write_completes _ s m o v (exec_mmioWrite s m o v hw.2.1) hw⟩
  · obtain ⟨hp, hc, hr, hm⟩ := resetRelease_fields (P := s.part) h
    exact ⟨s.dev.resetRelease s.part, rfl, hp, hc, hr, fun a => by rw [Dev.byte, hm, Dev.byte]⟩
  · exact ⟨s.dev.bootOutcome s.part, rfl, bootOutcome_phaseOutcome h⟩

end Sys2Proof.Proofs.Boot
end

section
/-!
Words in memory after stores, fault records and resets (01 R21, 03 R81, 14 R331).
-/
namespace Sys2Proof.Proofs.Words

open Sys2Proof.Machine Sys2Proof.Laws Sys2Proof.Proofs.Scope

/-! ### Words of a run of bytes -/

/-- Bytes put one run after the other. -/
theorem memPuts_append (bs cs : List Byte) : ∀ (m : Mem) (a : Nat), memPuts m a (bs ++ cs) = memPuts (memPuts m a bs) (a + bs.length) cs := by
  induction bs with
  | nil => exact fun m a => rfl
  | cons b bs ih =>
    intro m a
    rw [List.cons_append, List.length_cons, memPuts, memPuts, ih, Nat.add_right_comm, Nat.add_assoc]

/-- A word is read from its four bytes alone. -/
theorem word_congr {d t : Dev} {a : Nat} (h : ∀ i < 4, t.byte (a + i) = d.byte (a + i)) : t.word a = d.word a := by
  have hb : t.bytes a 4 = d.bytes a 4 := List.map_congr_left fun i hi => h i (List.mem_range.mp hi)
  rw [Dev.word, Dev.loadLE, hb, Dev.word, Dev.loadLE]

/-- A word put at its address is read there. -/
theorem word_of_memPuts_wordBytes {t : Dev} {m : Mem} {a : Nat} {w : Word} (ht : t.mem = memPuts m a (wordBytes w)) : t.word a = w := by
  have hb : t.bytes a 4 = wordBytes w := by
    refine List.ext_getElem rfl fun j _ hj => ?_
    simp only [Dev.bytes, List.getElem_map, List.getElem_range, Dev.byte, ht]
    exact memGet_memPuts_in _ _ a j hj
  rw [Dev.word, Dev.loadLE, hb, nword_leNat_wordBytes]

/-- Words put in a run are read one by one. -/
theorem word_of_memPuts (ws : List Word) : ∀ {t : Dev} {m : Mem} {a : Nat}, t.mem = memPuts m a (ws.flatMap wordBytes) →
    ∀ (i : Nat) (h : i < ws.length), t.word (a + 4 * i) = ws[i] := by
  induction ws with
  | nil => exact fun _ i h => absurd h (Nat.not_lt_zero i)
  | cons w ws ih =>
    intro t m a ht i h
    rw [List.flatMap_cons, memPuts_append] at ht
    match i with
    | 0 =>
      refine (word_congr (d := { t with mem := memPuts m a (wordBytes w) }) fun j hj => ?_).trans (word_of_memPuts_wordBytes rfl)
      rw [Dev.byte, Dev.byte, ht]
      exact memGet_memPuts_lt _ _ _ _ (by simp only [wordBytes, List.length_cons, List.length_nil]; omega)
    | i + 1 =>
      have := ih ht i (Nat.lt_of_succ_lt_succ h)
      rwa [show a + 4 * (i + 1) = a + (wordBytes w).length + 4 * i by simp only [wordBytes, List.length_cons, List.length_nil]; omega]

/-! ### Stores -/

/-- A store whose range the part has reaches memory whole. -/
theorem store_mem_whole (P : Part) (d : Dev) (a : Nat) (bs : List Byte) (hr : regionOf P a ≠ .lsAbsent) (hp : presentLen P a bs.length = bs.length) :
    (d.store P a bs).mem = memPuts (d.mem.note d.ecc d.cycle a bs.length) a bs := by
  rw [store_mem, if_neg hr, hp, List.take_length]

/-- A store leaves every byte outside its range. -/
theorem byte_store_out (P : Part) (d : Dev) {a x : Nat} (bs : List Byte) (h : x < a ∨ a + bs.length ≤ x) : (d.store P a bs).byte x = d.byte x := by
  rw [Dev.byte, store_mem]
  split
  · rfl
  · rw [memGet_memPuts_out _ _ _ _ (by rw [List.length_take]; omega), memGet_note]
    rfl

/-- The words of a list stored in AON are read there, in a device with that memory. -/
theorem word_of_store_words_aon (P : Part) (d t : Dev) (a : Nat) (ws : List Word) (h0 : 0x3000000 ≤ a) (h1 : a < 0x3002000)
    (ht : t.mem = (d.store P a (ws.flatMap wordBytes)).mem) (i : Nat) (h : i < ws.length) : t.word (a + 4 * i) = ws[i] :=
  word_of_memPuts ws (ht.trans (store_mem_aon P d a _ h0 h1)) i h

/-! ### Fault records -/

/-- The words of a fault record ahead of its sequence word (03 R81). -/
def recordWords (d : Dev) (m k : Nat) (fr : Bool) (pc : Word) (x : Access) (b : Bool) (i st : Word) : List Word :=
  [place m 0 ||| place k 8 ||| flag fr 16, pc, x.addr,
    place (sizeCode x.size) 0 ||| flag x.write 2 ||| flag x.fetch 3 ||| flag x.atomic 4 ||| flag b 5,
    i, d.stb.extractLsb' 0 32, (d.stb.extractLsb' 32 16).setWidth 32 ||| (st <<< 16), seqWord d.sys.frSeq]

/-- The words of a record that is the last of its cycle stand in the ring at the write index (03 R81). -/
theorem record_word (P : Part) (d : Dev) {m k : Nat} {fr : Bool} {pc : Word} {x : Access} {b : Bool} {i st : Word}
    (h : ∀ r ∈ d.recordsNow, r.1 ≤ m) (j : Nat) (hj : j < 8) :
    (d.record P m k fr pc x b i st).word (0x3000000 + 32 * d.sys.frW.toNat + 4 * j) = (recordWords d m k fr pc x b i st)[j]'hj := by
  have hi := d.sys.frW.isLt
  refine word_of_store_words_aon P d _ _ (recordWords d m k fr pc x b i st) (by omega) (by omega) ?_ j hj
  unfold Dev.record recordWords
  simp only [raise_fields, updSys_fields, recordsNow_above_nil h, Dev.writeRecords, List.length_nil, BitVec.ofNat_eq_ofNat, BitVec.sub_zero,
    List.cons_append, List.nil_append]

/-! ### Resets -/

/-- A look-up passes over the entries that a filter on keys takes away. -/
theorem tabGet_filter {α : Type} (v : α) (p : Nat → Bool) {k : Nat} (hk : p k = true) (t : Tab α) :
    tabGet v (t.filter fun c => p c.1) k = tabGet v t k := by
  induction t with
  | nil => rfl
  | cons c t ih =>
    obtain ⟨k', w⟩ := c
    by_cases hp : p k' = true
    · simp [hp, tabGet, ih]
    · have hne : k' ≠ k := by
        rintro rfl
        exact hp hk
      simp [hp, tabGet, ih, hne]

/-- AON keeps its bytes over a reset other than POWER_ON (14 R331). -/
theorem memGet_atReset_aon (m : Mem) {a : Nat} (h0 : 0x3000000 ≤ a) (h1 : a < 0x4000000) : memGet (m.atReset false) a = memGet m a := by
  have hd : ∀ m : Mem, memDflt m a = 0 := fun m => by
    unfold memDflt
    rw [if_neg (by omega), if_neg (by omega), if_neg (by omega)]
  unfold memGet
  rw [hd, hd]
  exact tabGet_filter 0 (fun a => decide (0x4000000 ≤ a ∨ (false = false ∧ 0x3000000 ≤ a))) (by simp [h0]) m.cells

/-- A torn unit is torn above its start alone. -/
theorem memGet_tear_lt (f n : Nat) : ∀ (m : Mem) (a x : Nat), x < a → memGet (tear f m a n) x = memGet m x := by
  induction n with
  | zero => exact fun m a x _ => rfl
  | succ n ih =>
    intro m a x h
    rw [tear, ih _ _ _ (by omega), memGet_memPut, if_neg (by omega)]

/-- What a reset during an NVM operation tears lies in NVM; nothing but a free value, memory and its marks changes (14 R343). -/
theorem tornNvm_fields (d : Dev) : d.tornNvm.ctx = d.ctx ∧ d.tornNvm.wdt = d.wdt ∧ d.tornNvm.phase = d.phase ∧
    ∀ x < 0x4000000, d.tornNvm.byte x = d.byte x := by
  unfold Dev.tornNvm
  split
  · exact ⟨rfl, rfl, rfl, fun _ _ => rfl⟩
  · dsimp only
    refine ⟨foldl_keeps (fun d => d.ctx) _ (fun _ _ => by rfl) _ _, foldl_keeps (fun d => d.wdt) _ (fun _ _ => by rfl) _ _,
      foldl_keeps (fun d => d.phase) _ (fun _ _ => by rfl) _ _, fun x hx => ?_⟩
    refine (foldl_keeps (fun d => d.byte x) _ (fun _ _ => by rfl) _ _).trans ?_
    show memGet (tear _ d.mem _ _) x = memGet d.mem x
    refine memGet_tear_lt _ _ _ _ _ ?_
    split <;> dsimp only <;> omega

/-- The evidence block after a reset by a watchdog or by the clock monitor, and what the reset shows (12 R290, 14 R330, R331). -/
theorem resetDev_evidence (P : Part) {d : Dev} {code : Nat} (h : d.phase ≠ .inReset) (hc : code = 3 ∨ code = 4) :
    (d.resetDev P code).phase = .inReset ∧ (d.resetDev P code).pwr.rstCause = BitVec.ofNat 8 code ∧ (d.resetDev P code).wdt.bMissed = d.wdt.bMissed ∧
    ∀ (i : Nat) (hi : i < 8), (d.resetDev P code).word (evidenceAt + 4 * i) =
      (evidenceWords (place (min 0xFFFF ((d.word evidenceAt).toNat % 65536 + 1)) 0 ||| place code 16)
        (if code = 3 then (d.ctx[(0 : CtxId)]).pc else 0) (if code = 4 then d.wdt.bMissed.setWidth 32 else 0))[i]'hi := by
  obtain ⟨hctx, hwdt, hph, hbyte⟩ := tornNvm_fields d
  have h1 : code ≠ 1 := by omega
  have hw : isWdtCause code = true := by rcases hc with rfl | rfl <;> rfl
  have hword : d.tornNvm.word evidenceAt = d.word evidenceAt := word_congr fun i hi => hbyte _ (by unfold evidenceAt; omega)
  have ht : d.resetDev P code = (d.tornNvm.writeEvidence P code).resetTo P code := by
    unfold Dev.resetDev
    rw [if_neg h, if_neg h1]
  have hm : ((d.tornNvm.writeEvidence P code).resetTo P code).wdt.bMissed = d.wdt.bMissed := by
    rw [← hwdt]
    simp [Dev.resetTo, h1, Dev.writeEvidence]
  rw [ht]
  refine ⟨rfl, rfl, hm, fun i hi => ?_⟩
  refine (word_congr (d := d.tornNvm.writeEvidence P code) fun j hj => ?_).trans ?_
  · simp only [Dev.byte, Dev.resetTo, h1, decide_false]
    exact memGet_atReset_aon _ (by unfold evidenceAt; omega) (by unfold evidenceAt; omega)
  · refine word_of_store_words_aon P d.tornNvm _ evidenceAt (evidenceWords _ _ _) (by decide) (by decide) ?_ i hi
    simp only [Dev.writeEvidence, hw, if_true, hctx, hwdt, hword, fld, BitVec.extractLsb'_toNat, Nat.shiftRight_zero]

end Sys2Proof.Proofs.Words
end

section
/-!
Events as the other blocks see them: what a raised event changes (05 R117, R118, R130).
-/
namespace Sys2Proof.Proofs.Raise

open Sys2Proof.Machine Sys2Proof.Laws

/-- A raised event changes the fabric alone. -/
theorem raise_eq (d : Dev) (n : Fin 64) (w : Word) : d.raise n w = { d with ev := (d.raise n w).ev } := by
  unfold Dev.raise Dev.assert Dev.assertBy
  dsimp only
  repeat' split
  all_goals rfl

/-- While CK_CORE runs an event is asserted at once (05 R130). -/
theorem raise_awake {d : Dev} (n : Fin 64) (w : Word) (h : d.asleep = false) : d.raise n w = d.assert n w := by
  unfold Dev.raise
  unfold Dev.asleep at h
  split <;> simp_all

/-- In STANDBY an event waits in its own domain (05 R130). -/
theorem raise_standby {d : Dev} (n : Fin 64) (w : Word) (h : d.phase = .standby) :
    d.raise n w = d.updEv fun e => { e with held := e.held ++ [(n, w)] } := by
  unfold Dev.raise
  rw [h]

/-- An asserted event takes the next number of its source, and leaves the others (05 R117). -/
theorem assert_src (d : Dev) (n k : Fin 64) (w : Word) :
    ((d.assert n w).ev.src[k]).seq = (d.ev.src[k]).seq + (if k = n then 1 else 0) := by
  unfold Dev.assert Dev.assertBy
  dsimp only
  split <;>
  · simp only [updEv_fields, upd_get]
    by_cases h : k = n
    · simp [-Fin.getElem_fin, h]
    · simp [-Fin.getElem_fin, h, Ne.symm h]

/-- While CK_CORE runs a raised event takes the next number of its source, and leaves the others (05 R117). -/
theorem raise_seq {d : Dev} (n k : Fin 64) (w : Word) (h : d.asleep = false) :
    ((d.raise n w).ev.src[k]).seq = (d.ev.src[k]).seq + (if k = n then 1 else 0) := by
  rw [raise_awake n w h, assert_src]

/-- A raised event takes the next number of its source while CK_CORE runs (05 R117). -/
theorem raise_seq_self {d : Dev} (n : Fin 64) (w : Word) (h : d.asleep = false) :
    ((d.raise n w).ev.src[n]).seq = (d.ev.src[n]).seq + 1 := by
  rw [raise_seq n n w h, if_pos rfl]

/-- A raised event leaves the numbers of the other sources while CK_CORE runs (05 R117). -/
theorem raise_seq_other {d : Dev} {n k : Fin 64} (w : Word) (h : d.asleep = false) (hk : k ≠ n) :
    ((d.raise n w).ev.src[k]).seq = (d.ev.src[k]).seq := by
  rw [raise_seq n k w h, if_neg hk]
  exact BitVec.add_zero _

/-- CK_CORE runs outside STANDBY and its end (14 R325). -/
theorem asleep_of_coreOn {d : Dev} (h : d.coreOn = true) : d.asleep = false := by
  unfold Dev.coreOn at h
  unfold Dev.asleep
  cases hp : d.phase <;> simp_all

end Sys2Proof.Proofs.Raise
end

section
/-!
What the links' output changes, and what an abandoned entry to STANDBY leaves (10 R223, R247, 14 R324, R328).
-/
namespace Sys2Proof.Proofs.LinkFrame

open Sys2Proof.Machine Sys2Proof.Laws Sys2Proof.Proofs.Interconnect

/-! ### The links and the output -/

/-- A device that differs from another in its links and in what it has put out alone. -/
def LinkOnly (d t : Dev) : Prop := t = { d with kl := t.kl, out := t.out }

theorem LinkOnly.refl (d : Dev) : LinkOnly d d := rfl

theorem LinkOnly.trans {d e t : Dev} (h : LinkOnly d e) (h' : LinkOnly e t) : LinkOnly d t := by
  unfold LinkOnly at *
  rw [h'] at ⊢
  rw [h]

/-- A run of such changes is one. -/
theorem LinkOnly.foldl {α : Type} {f : Dev → α → Dev} (h : ∀ d x, LinkOnly d (f d x)) (l : List α) : ∀ d : Dev, LinkOnly d (l.foldl f d) := by
  induction l with
  | nil => exact LinkOnly.refl
  | cons x l ih => exact fun d => (h d x).trans (ih (f d x))

/-- Blocks on their way change their lanes alone. -/
theorem linkOnly_onLane (d : Dev) (bs : List TxBlock) : LinkOnly d (d.onLane bs) := LinkOnly.foldl (fun _ _ => by rfl) bs d

/-- A control block sent on a lane. -/
theorem linkOnly_sendBlock (d : Dev) (n : LaneId) (b : Block) : LinkOnly d (d.sendBlock n b) := (linkOnly_onLane d _).trans rfl

/-- Control blocks of a link's stream. -/
theorem linkOnly_sendStream (d : Dev) (k : LinkId) (bs : List Block) : LinkOnly d (d.sendStream k bs) := by
  have h : LinkOnly d (d.streamed k (d.striped k (bs.map fun b => (true, b)))) := (linkOnly_onLane d _).trans rfl
  exact h.trans (LinkOnly.foldl (fun _ _ => by rfl) _ _)

/-- WAKE on every used lane (10 R247). -/
theorem linkOnly_sendWake (d : Dev) (k : LinkId) : LinkOnly d (d.sendWake k) :=
  LinkOnly.trans (e := d.updLink k fun l => { l with wakeDue := false }) rfl (LinkOnly.foldl (fun d n => linkOnly_sendBlock d n _) _ _)

/-- A link that leaves DEEP (10 R247). -/
theorem linkOnly_linkWake (d : Dev) (k : LinkId) : LinkOnly d (d.linkWake k) := by
  unfold Dev.linkWake
  split
  · have h : LinkOnly d ((d.updLink k fun l => { l with st := .lock, resuming := true, resumeAt := d.cycle, wakeDue := true }).usedLanes k |>.foldl
        (fun d n => d.updLane n fun x => { x with woke := false, blockLock := false })
        (d.updLink k fun l => { l with st := .lock, resuming := true, resumeAt := d.cycle, wakeDue := true })) :=
      LinkOnly.trans (e := d.updLink k fun l => { l with st := .lock, resuming := true, resumeAt := d.cycle, wakeDue := true }) rfl
        (LinkOnly.foldl (fun _ _ => by rfl) _ _)
    dsimp only
    split
    · exact h.trans (linkOnly_sendWake _ k)
    · exact h
  · rfl

/-- Every link that leaves DEEP (14 R324, R327). -/
theorem linkOnly_wakeLinks (d : Dev) : LinkOnly d d.wakeLinks := LinkOnly.foldl linkOnly_linkWake _ d

/-! ### An entry to STANDBY that is abandoned -/

/-- RESUME and SYNC leave the power unit but for the counts of trace (14 R351). -/
theorem traceResume_untraced (P : Part) (d : Dev) : untraced (d.traceResume P).pwr = untraced d.pwr := by
  have hg : untraced (d.traceGlobal P 6 3 d.pwr.slept).pwr = untraced d.pwr := by
    unfold Dev.traceGlobal
    split
    · exact trcWrite_untraced P d _
    · rfl
  unfold Dev.traceResume Dev.trcSyncOn
  split
  · rw [trcSync_untraced, hg]
  · exact hg

/-- RESUME and SYNC change the trace, and what waits at the ports, alone (14 R351). -/
theorem traceResume_fields (P : Part) (d : Dev) : (d.traceResume P).phase = d.phase ∧ (d.traceResume P).regs = d.regs ∧
    (d.traceResume P).ctx = d.ctx ∧ (d.traceResume P).mem = d.mem ∧ (d.traceResume P).wdt = d.wdt := by
  unfold Dev.traceResume
  simp

/-- No link wants DEEP any more. -/
def noneWantsDeep (d : Dev) : Dev := (List.finRange 3).foldl (fun d k => Dev.updLink d k fun l => { l with deepWant := false }) d

/-- The device of an abandoned entry before its RESUME packet. -/
def abandoned (d : Dev) (code : Nat) : Dev :=
  ({ noneWantsDeep d with phase := .run }).wakeLinks.updPwr
    fun p => { p with refuse := code, abandoned := true, suspDue := false, deepWait := [] }

/-- It differs from the device that was entering STANDBY in its phase, the power unit and its links alone (14 R324, R328). -/
theorem abandoned_eq (d : Dev) (code : Nat) : abandoned d code = { d with
    phase := .run, pwr := { d.pwr with refuse := code, abandoned := true, suspDue := false, deepWait := [] }
    kl := (abandoned d code).kl, out := (abandoned d code).out } := by
  have h1 : LinkOnly d (noneWantsDeep d) := LinkOnly.foldl (fun _ _ => by rfl) _ _
  have h2 := linkOnly_wakeLinks { noneWantsDeep d with phase := .run }
  unfold abandoned
  generalize noneWantsDeep d = e at h1 h2 ⊢
  generalize Dev.wakeLinks _ = f at h2 ⊢
  unfold LinkOnly at h1 h2
  rw [h2, h1]
  rfl

/-- What an abandoned entry to STANDBY shows, and what it leaves (14 R324, R328). -/
theorem abandonEntry_fields (P : Part) {d : Dev} (code : Nat) (h : d.phase = .entering) :
    (d.abandonEntry P code).phase = .run ∧ (d.abandonEntry P code).pwr.refuse = code ∧ (d.abandonEntry P code).pwr.abandoned = true ∧
    (d.abandonEntry P code).pwr.deepWait = [] ∧ (d.abandonEntry P code).regs = d.regs ∧ (d.abandonEntry P code).ctx = d.ctx ∧
    (d.abandonEntry P code).mem = d.mem ∧ (d.abandonEntry P code).wdt = d.wdt := by
  have ha := abandoned_eq d code
  have he : d.abandonEntry P code = if d.pwr.suspDue then abandoned d code else (abandoned d code).traceResume P := by
    unfold Dev.abandonEntry
    rw [if_pos h]
    unfold abandoned noneWantsDeep
    rfl
  rw [he]
  split
  · rw [ha]
    exact ⟨rfl, rfl, rfl, rfl, rfl, rfl, rfl, rfl⟩
  · obtain ⟨hp, hr, hc, hm, hw⟩ := traceResume_fields P (abandoned d code)
    have hu := traceResume_untraced P (abandoned d code)
    have h1 := congrArg Pwr.refuse hu
    have h2 := congrArg Pwr.abandoned hu
    have h3 := congrArg Pwr.deepWait hu
    simp only [untraced] at h1 h2 h3
    rw [hp, hr, hc, hm, hw, h1, h2, h3, ha]
    exact ⟨rfl, rfl, rfl, rfl, rfl, rfl, rfl, rfl⟩

/-! ### Wake sources -/

/-- A wake source that is enabled, and whose link, if it is one's, is in DEEP (14 R326). -/
def wakes (P : Part) (d : Dev) (src : WakeSrc) : Bool :=
  d.wakeEn P src && (match src with | .link k => (d.kl.links[k]).st == .deep | _ => true)

/-- A source that is not enabled, and any source of a device that runs, does nothing (14 R326). -/
theorem wakeSource_none {P : Part} {d : Dev} {src : WakeSrc} (h : wakes P d src = false ∨ d.phase = .run) : d.wakeSource P src = d := by
  unfold Dev.wakeSource
  dsimp only
  change (if wakes P d src = true then _ else d) = d
  rcases h with h | h
  · rw [h, if_neg (by simp)]
  · rw [h]
    exact ite_self d

/-- A source abandons an entry to STANDBY (14 R328). -/
theorem wakeSource_entering {P : Part} {d : Dev} {src : WakeSrc} (h : wakes P d src = true) (hp : d.phase = .entering) :
    d.wakeSource P src = d.abandonEntry P 9 := by
  unfold Dev.wakeSource
  rw [hp]
  exact if_pos h

/-- A source wakes a sleeping device (14 R326). -/
theorem wakeSource_standby {P : Part} {d : Dev} {src : WakeSrc} (h : wakes P d src = true) (hp : d.phase = .standby) :
    d.wakeSource P src = { d with phase := .waking, pwr := { d.pwr with wakeSrc := place 1 (wakeBit src), wakeTick := d.pwr.aonEdges } } := by
  unfold Dev.wakeSource
  rw [hp]
  exact if_pos h

/-- A source is recorded with those of the AON tick of the wake (14 R326, log 40). -/
theorem wakeSource_waking {P : Part} {d : Dev} {src : WakeSrc} (h : wakes P d src = true) (hp : d.phase = .waking ∨ d.phase = .reloading) :
    d.wakeSource P src = if d.pwr.aonEdges = d.pwr.wakeTick then
      { d with pwr := { d.pwr with wakeSrc := d.pwr.wakeSrc ||| place 1 (wakeBit src) } } else d := by
  unfold Dev.wakeSource
  dsimp only
  change (if wakes P d src = true then _ else d) = _
  rw [if_pos h]
  rcases hp with hp | hp
  all_goals
    conv_lhs => rw [hp]
    rfl

/-- Before the end of the boot a source does nothing. -/
theorem wakeSource_boot {P : Part} {d : Dev} (src : WakeSrc) (hp : d.phase = .inReset ∨ d.phase = .clocks ∨ d.phase = .verify) :
    d.wakeSource P src = d := by
  unfold Dev.wakeSource
  rcases hp with hp | hp | hp <;> rw [hp] <;> exact ite_self d

/-- A wake source leaves the watchdogs (14 R326). -/
theorem wakeSource_wdt (P : Part) (d : Dev) (src : WakeSrc) : (d.wakeSource P src).wdt = d.wdt := by
  cases h : wakes P d src
  · rw [wakeSource_none (.inl h)]
  · cases hp : d.phase with
    | entering =>
      rw [wakeSource_entering h hp]
      exact (abandonEntry_fields P 9 hp).2.2.2.2.2.2.2
    | standby => rw [wakeSource_standby h hp]
    | waking =>
      rw [wakeSource_waking h (.inl hp)]
      split <;> rfl
    | reloading =>
      rw [wakeSource_waking h (.inr hp)]
      split <;> rfl
    | run => rw [wakeSource_none (.inr hp)]
    | inReset => rw [wakeSource_boot src (.inl hp)]
    | clocks => rw [wakeSource_boot src (.inr (.inl hp))]
    | verify => rw [wakeSource_boot src (.inr (.inr hp))]

end Sys2Proof.Proofs.LinkFrame
end

section
/-!
WDT-A: start, window, service, early warning and expiry (12 R276 to R281, R290, 14 R326).
-/
namespace Sys2Proof.Proofs.WdtA

open Sys2Proof.Machine Sys2Proof.Laws Sys2Proof.Proofs.Scope Sys2Proof.Proofs.Raise Sys2Proof.Proofs.Words Sys2Proof.Proofs.Interconnect
  Sys2Proof.Proofs.LinkFrame Sys2Proof.Proofs.PlainWrites

/-! ### Writes of the unit -/

/-- A crossing leaves the watchdogs. -/
@[simp] theorem crossWrite_wdt (P : Part) (d : Dev) (o : Nat) : (d.crossWrite P o).wdt = d.wdt := by
  unfold Dev.crossWrite
  split <;> rfl

/-- A service write crosses with its PC and word, and through no other crossing (01 R25, 12 R280). -/
theorem crossWrite_svc (P : Part) (d : Dev) : d.crossWrite P 0xB0008 = d := by
  have hp : P.ports < 8 := (P.caps.extractLsb' 0 3).isLt
  have h : crossOf P 0xB0008 = none := by
    unfold crossOf
    rw [if_neg (by omega), if_neg (by omega), if_neg (by omega), if_neg (by omega)]
  unfold Dev.crossWrite
  rw [h]

/-! ### The service write that arrives -/

/-- A service write that arrives in the window takes its step of the sequence (12 R279). -/
theorem svcArrive_open {P : Part} {d : Dev} {b : Byte} {pc insn : Word} {rest : List (Byte × Word × Word)}
    (hs : d.wdt.svc = (b, pc, insn) :: rest) (ho : d.wdt.aOpen = true) :
    d.svcArrive P = { d with wdt := if b = 0xA5 ∧ d.wdt.seqArm = false then { d.wdt with svc := rest, seqArm := true }
      else if b = 0x5A ∧ d.wdt.seqArm = true then P.aBegin { d.wdt with svc := rest }
      else { d.wdt with svc := rest, seqArm := false, seqErr := true } } := by
  unfold Dev.svcArrive
  rw [hs]
  dsimp only [Dev.updWdt]
  rw [if_neg (by simp [ho])]
  simp only [Bool.not_eq_true']
  split
  · rfl
  · split <;> rfl

/-- A service write that arrives before the window: the record, the freeze at the next boundary, and no step of the sequence (12 R279, R280). -/
theorem svcArrive_closed {P : Part} {d : Dev} {b : Byte} {pc insn : Word} {rest : List (Byte × Word × Word)}
    (hs : d.wdt.svc = (b, pc, insn) :: rest) (ho : d.wdt.aOpen = false) :
    d.svcArrive P = ({ d with wdt := { d.wdt with svc := rest, seqArm := false } }.ownerRecord P pc insn).atNextBoundary P 0
      fun b => { b with owner := true } := by
  unfold Dev.svcArrive
  rw [hs]
  dsimp only [Dev.updWdt]
  rw [ho]
  simp only [Bool.not_false, if_true]

/-- The owner freeze of context 0 waits for its boundary where it does not stand at one (12 R279). -/
theorem owner_boundary_later {P : Part} {d : Dev} (h : (d.ctx[(0 : CtxId)]).atBoundary = false) :
    d.atNextBoundary P 0 (fun b => { b with owner := true }) = d.updCtx 0 fun y => { y with due := { y.due with owner := true } } := by
  have hb : ((d.updCtx 0 fun y => { y with due := { y.due with owner := true } }).ctx[(0 : CtxId)]).atBoundary = false := by
    rw [(updCtx_fields d 0 _).1, upd_get_self]
    exact h
  unfold Dev.atNextBoundary
  dsimp only
  rw [hb]
  rfl

/-- The owner freeze of context 0 at once where it stands at a boundary and nothing else is due (12 R279). -/
theorem owner_boundary_now {P : Part} {d : Dev} (h : (d.ctx[(0 : CtxId)]).atBoundary = true) (hd : (d.ctx[(0 : CtxId)]).due = {}) :
    d.atNextBoundary P 0 (fun b => { b with owner := true }) = d.ownerFreeze P := by
  have hb : ((d.updCtx 0 fun y => { y with due := { y.due with owner := true } }).ctx[(0 : CtxId)]).atBoundary = true := by
    rw [(updCtx_fields d 0 _).1, upd_get_self]
    exact h
  have hk : ((d.updCtx 0 fun y => { y with due := { y.due with owner := true } }).ctx[(0 : CtxId)]).due = { owner := true } := by
    rw [(updCtx_fields d 0 _).1, upd_get_self, hd]
  unfold Dev.atNextBoundary
  dsimp only
  rw [hb, if_pos rfl]
  unfold Dev.boundary
  rw [hk]
  dsimp only
  rw [updCtx_updCtx, updCtx_self d 0 _ (by dsimp only; rw [← hd])]
  rfl

/-- What is due at a context's boundary leaves the watchdogs (03 R77). -/
theorem boundary_wdt (P : Part) (d : Dev) (c : CtxId) : (d.boundary P c).wdt = d.wdt := by
  have hr : ∀ d : Dev, (d.resetNow P c).wdt = d.wdt := fun d => by
    unfold Dev.resetNow Dev.finishReset Dev.nowIssuable
    repeat' split
    all_goals simp
  unfold Dev.boundary
  dsimp only
  repeat' split
  all_goals simp [hr, Dev.ownerFreeze, Dev.tumblerFreeze, Dev.ctxHalt]

/-- So does a change at the next boundary. -/
theorem atNextBoundary_wdt (P : Part) (d : Dev) (c : CtxId) (f : Boundary → Boundary) : (d.atNextBoundary P c f).wdt = d.wdt := by
  unfold Dev.atNextBoundary
  dsimp only
  split
  · rw [boundary_wdt]
    rfl
  · rfl

/-- What a service write before the window leaves: the watchdog disarmed, context 0 frozen at its next boundary, and the record in the ring (12 R279, 03 R81). -/
theorem svcArrive_early {P : Part} {d : Dev} {b : Byte} {pc insn : Word} {rest : List (Byte × Word × Word)}
    (hs : d.wdt.svc = (b, pc, insn) :: rest) (ho : d.wdt.aOpen = false) :
    let t := d.svcArrive P
    let x := d.ctx[(0 : CtxId)]
    let at_ := 0x3000000 + 32 * d.sys.frW.toNat
    t.wdt = { d.wdt with svc := rest, seqArm := false } ∧
    (x.atBoundary = false → t.ctx = upd d.ctx 0 (fun y => { y with due := { y.due with owner := true } })) ∧
    (x.atBoundary = true → x.due = {} → t.ctx = upd d.ctx 0 (fun y => { y with frozen := true, lastCause := 6, urgent := 0, cold := true })) ∧
    (d.recordsNow = [] → x.atBoundary = false ∨ x.due = {} → t.sys.frW = d.sys.frW + 1 ∧
      t.word at_ = 0x00010600 ∧ t.word (at_ + 4) = pc ∧ t.word (at_ + 8) = 0x080B0008 ∧ t.word (at_ + 16) = insn ∧ sameBytesBut d t at_ 32) := by
  intro t x at_
  let e : Dev := { d with wdt := { d.wdt with svc := rest, seqArm := false } }
  let r := e.ownerRecord P pc insn
  have ht : t = r.atNextBoundary P 0 fun b => { b with owner := true } := svcArrive_closed hs ho
  have hctx : r.ctx = d.ctx := by simp [r, e, Dev.ownerRecord]
  have hwdt : r.wdt = { d.wdt with svc := rest, seqArm := false } := by simp [r, e, Dev.ownerRecord]
  have hat : r.ctx[(0 : CtxId)] = x := by rw [hctx]
  have hlater (h : x.atBoundary = false) : t = r.updCtx 0 fun y => { y with due := { y.due with owner := true } } :=
    ht.trans (owner_boundary_later (by rw [hat]; exact h))
  have hnow (h : x.atBoundary = true) (hd : x.due = {}) : t = r.ownerFreeze P :=
    ht.trans (owner_boundary_now (by rw [hat]; exact h) (by rw [hat]; exact hd))
  refine ⟨?_, fun h => ?_, fun h hd => ?_, fun hrec hor => ?_⟩
  · rw [ht, atNextBoundary_wdt, hwdt]
  · rw [hlater h, (updCtx_fields r 0 _).1, hctx]
  · rw [hnow h hd, Dev.ownerFreeze, setRun_ctx, hctx]
  · have hmem : t.mem = r.mem ∧ t.sys = r.sys := by
      cases hb : x.atBoundary
      · rw [hlater hb]
        exact ⟨rfl, rfl⟩
      · rw [hnow hb (hor.resolve_left (by simp [hb])), Dev.ownerFreeze]
        simp
    have hrecs : ∀ q ∈ e.recordsNow, q.1 ≤ 0 := by
      show ∀ q ∈ d.recordsNow, q.1 ≤ 0
      simp [hrec]
    have hw (j : Nat) (hj : j < 8) : t.word (at_ + 4 * j) = (recordWords e 0 6 true pc { addr := 0x080B0008, size := 4, write := true } x.priv insn
        (stWord x))[j]'hj :=
      (word_congr (d := r) fun i _ => by rw [Dev.byte, Dev.byte, hmem.1]).trans (record_word P e hrecs j hj)
    refine ⟨by rw [hmem.2]; exact record_frW P e hrecs, hw 0 (by decide), hw 1 (by decide), hw 2 (by decide), hw 4 (by decide), fun a ha => ?_⟩
    rw [Dev.byte, hmem.1]
    exact record_byte P e _ _ _ _ _ _ _ _ a (recordsNow_above_nil hrecs) ha

/-! ### The early warning -/

/-- EARLY's own step: the count, the window and the warning, and event 48 (12 R278). -/
theorem wdtaEarly_eq {P : Part} {d : Dev} (hr : d.wdt.aRun = true) (he : d.wdt.aEarly = false) :
    d.wdtaEarlyWake P = ((d.updWdt fun w => { w with aCount := max w.aCount (P.aPeriod / 8 * 7), aOpen := true, aEarly := true }).raise 48 0).wakeSource P
      .wdtaEarly := by
  have hc : d.wdt.aRun = true ∧ (!d.wdt.aEarly) = true := ⟨hr, by rw [he]; rfl⟩
  unfold Dev.wdtaEarlyWake Dev.wdtaEarly
  dsimp only
  rw [if_pos hc, if_pos hc]

/-! ### Expiry -/

/-- The first evidence word: the cause over the count of watchdog resets (12 R290). -/
theorem evidenceWord (n code : Nat) (hn : n ≤ 0xFFFF) (hc : code < 0x10000) :
    place n 0 ||| place code 16 = (BitVec.ofNat 16 code ++ BitVec.ofNat 16 n : BitVec 32) := by
  apply BitVec.eq_of_toNat_eq
  rw [BitVec.toNat_append, ← Nat.shiftLeft_add_eq_or_of_lt (BitVec.isLt _)]
  simp only [place, BitVec.toNat_or, BitVec.toNat_shiftLeft, BitVec.toNat_ofNat]
  have h1 : (n % 2 ^ 32) <<< 0 % 2 ^ 32 = n := by
    rw [Nat.shiftLeft_zero]
    omega
  have h2 : (code % 2 ^ 32) <<< 16 % 2 ^ 32 = code <<< 16 := by
    rw [Nat.shiftLeft_eq, Nat.shiftLeft_eq]
    omega
  rw [h1, h2, Nat.or_comm, ← Nat.shiftLeft_add_eq_or_of_lt (by omega), Nat.mod_eq_of_lt (by omega), Nat.mod_eq_of_lt (by omega)]

/-- Settles O46: the writes by their acceptance, the other commands by the rules above. -/
theorem watchdogA : Obligations.WatchdogA := by
  intro s m v b pc insn rest
  have aon : ∀ {i : Instr} {f : Part → Dev → Dev} {t : Dev}, s.dev.phase ≠ .inReset → exec i s = aonStep f s → f s.part s.dev = t →
      Completes i s t := fun hp hi ht => ht ▸ aon_completes _ s _ hi hp
  refine ⟨fun hw => ⟨fun hr => ?_, fun hr => ?_⟩, fun hw => ⟨fun hr => ?_, fun hr => ?_⟩, fun hp hr => ⟨?_, fun he => ?_, ?_⟩,
    fun hp hs => ⟨fun ho => ⟨fun hb ha => ?_, fun hb ha => ?_, fun hb ha => ?_⟩, fun ho ht => ?_⟩⟩
  · refine write_effect rfl hw ?_
    show Dev.wdtAStart s.part _ = _
    rw [Dev.wdtAStart, crossWrite_wdt, hr, if_neg (by simp), Dev.updWdt, crossWrite_wdt]
    rfl
  · refine write_effect rfl hw ?_
    show Dev.wdtAStart s.part _ = _
    rw [Dev.wdtAStart, crossWrite_wdt, if_pos hr]
  · refine write_effect rfl hw ?_
    show Dev.svcSend _ _ _ _ = _
    rw [crossWrite_svc, Dev.svcSend, if_pos hr]
    rfl
  · refine write_effect rfl hw ?_
    show Dev.svcSend _ _ _ _ = _
    rw [crossWrite_svc, Dev.svcSend, hr]
    rfl
  · exact aon hp rfl (if_pos hr)
  · refine ⟨_, aon hp rfl (wdtaEarly_eq hr he), ?_, fun hph => ?_, fun hph => ?_⟩
    · rw [wakeSource_wdt, raise_eq]
      rfl
    · rw [wakeSource_none (.inr (by simpa using hph))]
      exact ⟨raise_seq_self _ _ (by simp [Dev.asleep, hph]), by rw [raise_eq]; rfl⟩
    · rw [wakeSource_standby rfl (by simpa using hph)]
      rw [raise_standby _ _ (by simpa using hph)]
      exact ⟨rfl, rfl, rfl, rfl⟩
  · obtain ⟨hph, hrc, -, hword⟩ := resetDev_evidence s.part (code := 3) hp (.inl rfl)
    refine ⟨_, aon hp rfl (if_pos hr), hph, hrc, ?_, hword 1 (by decide), hword 2 (by decide), ?_⟩
    · exact (hword 0 (by decide)).trans (evidenceWord _ 3 (by omega) (by omega))
    · exact (hword 3 (by decide)).trans (congrArg (~~~·) (hword 0 (by decide)).symm)
  · exact aon hp rfl (by rw [svcArrive_open hs ho, if_pos ⟨hb, ha⟩])
  · exact aon hp rfl (by rw [svcArrive_open hs ho, if_neg (by simp [ha]), if_pos ⟨hb, ha⟩]; rfl)
  · exact aon hp rfl (by rw [svcArrive_open hs ho, if_neg hb, if_neg ha])
  · exact ⟨_, aon hp rfl rfl, svcArrive_early hs ho⟩

end Sys2Proof.Proofs.WdtA
end

section
/-!
WDT-B: a state whose capture freezes a context that no missed slot names (12 R284, R293).
-/
namespace Sys2Proof.Proofs.WdtB

open Sys2Proof.Machine

/-- A device in RUN whose capture of slot 0, with action 1, is due; slot 0 names context 5, for which the owner freeze of context 0 waits. -/
def ownerElsewhere : Dev :=
  { phase := .run, regs := [(0xB0100, 4), (0xB0120, 5)], wdt := { captures := [1] }
    ctx := (Vector.replicate 64 {}).set 5 { run := .ready, due := { owner := true } } }

/-- The device as a state of the part. -/
def ownerElsewhereState : State := ⟨[], Part.reset, ownerElsewhere⟩

/-- Context 0, which stands at a boundary, is named by no missed slot, and has nothing due. -/
theorem ownerElsewhere_unnamed : (∀ j : Fin 8, (1#8).getLsbD j.val = true → ownerElsewhere.slotCtx j ≠ 0) ∧
    ((ownerElsewhere.ctx[(0 : CtxId)]).run ≠ .ready) ∧ (ownerElsewhere.ctx[(0 : CtxId)]).due = {} ∧ (ownerElsewhere.ctx[(0 : CtxId)]).frozen = false ∧
    fld (ownerElsewhere.reg 0xB0100) 2 2 = 1 := by
  decide

/-- The capture freezes it all the same: the boundary of context 5 takes the owner freeze. -/
theorem ownerElsewhere_freezes : ((ownerElsewhere.wdtbCapture Part.reset).ctx[(0 : CtxId)]).frozen = true := by
  decide +kernel

/-- Refutes O47: the capture freezes context 0, which no missed slot names, where the owner freeze of context 0 waits at the boundary of another context. -/
theorem not_watchdogB : ¬ Obligations.WatchdogB := by
  intro h
  obtain ⟨-, -, -, -, hcap⟩ := h ownerElsewhereState .mgmt 0 0 [] 1 [] false
  obtain ⟨t, ht, -, -, -, hact, -⟩ := hcap rfl rfl
  obtain ⟨hn, hrun, hdue, hfr, hone⟩ := ownerElsewhere_unnamed
  have h0 := hact hone 0 (.inr hrun) hdue hfr
  have hno : ¬ ∃ j : Fin 8, (1 : Byte).getLsbD j.val = true ∧ ownerElsewhereState.dev.slotCtx j = 0 := fun ⟨j, hj, hc⟩ => hn j hj hc
  rw [if_neg hno] at h0
  have hx : t = ownerElsewhere.wdtbCapture Part.reset := by
    have := State.mk.inj (Host.Outcome.next.inj ht)
    exact this.2.2.symm
  have hf := congrArg Ctx.frozen h0
  rw [hx, ownerElsewhere_freezes] at hf
  exact absurd (hf.trans hfr) (by decide)

end Sys2Proof.Proofs.WdtB
end

section
/-!
Enabling, disabling, clocks and edge tables of the sensor ports (06 R138, R141, R142, R147, R148).
-/
namespace Sys2Proof.Proofs.Ports

open Sys2Proof.Machine Sys2Proof.Laws Sys2Proof.Proofs.PlainWrites Sys2Proof.Proofs.Interconnect

/-! ### Bits of a word -/

/-- A bit that is put reads as it was put. -/
theorem bit_putBit_self (w : Word) {i : Nat} (b : Bool) (h : i < 32) : bit (putBit w i b) i = b := by
  cases b <;> simp [bit, putBit, mask, flag, place, h]

/-! ### The registers of a port -/

section Offsets

variable {P : Part} {p : PortId} {q : Nat}

/-- A port's register lies in the block of the ports. -/
theorem portOff_split (h : q < 0x1000) : portOff p q / 0x10000 = 3 ∧ portOff p q % 0x10000 = 0x1000 * (p.val + 1) + q ∧
    (0x1000 * (p.val + 1) + q) / 0x1000 = p.val + 1 ∧ (0x1000 * (p.val + 1) + q) % 0x1000 = q := by
  unfold portOff
  omega

/-- The registers of a port that the part has are present (00 R4). -/
theorem regAbsent_port (hp : portPresent P p = true) (h : q < 0x1000) : regAbsent P (portOff p q) = false := by
  obtain ⟨h1, h2, h3, h4⟩ := portOff_split (p := p) h
  have hp' : p.val < P.ports := of_decide_eq_true hp
  unfold regAbsent
  dsimp only
  rw [h1, h2]
  show (decide (_ ∧ _ ∧ _) && _) = false
  rw [h3, decide_eq_false (by omega), Bool.false_and]

/-- A write of a port's register takes up the port's crossing (01 R25). -/
theorem crossWrite_port (d : Dev) (hp : portPresent P p = true) (h : q < 0x1000) :
    d.crossWrite P (portOff p q) = d.cross ⟨p.val, by omega⟩ := by
  have hp' : p.val < P.ports := of_decide_eq_true hp
  have hf : Fin.ofNat 9 ((portOff p q - 0x31000) / 0x1000) = ⟨p.val, by omega⟩ := by
    apply Fin.ext
    simp only [Fin.val_ofNat, portOff]
    omega
  unfold Dev.crossWrite crossOf
  rw [if_pos (by unfold portOff; omega), hf]

/-- A write of a port's register is the port's own (06 R138). -/
theorem mmioWrite_port (d : Dev) (m : Master) (pc insn v : Word) (hp : portPresent P p = true) (h : q < 0x1000) :
    d.mmioWrite P m pc insn (portOff p q) v = if q = 0 then d.portCtlWrite P p v
      else if q = 0x20 then d.portStatusW1c p v
      else if 0x400 ≤ q ∧ q < 0x600 then d.edgeWrite P p ((q - 0x400) / 0x100) (q % 0x100 / 4) v
      else d.writeReg P (portOff p q) v := by
  obtain ⟨h1, h2, h3, h4⟩ := portOff_split (p := p) h
  have hid : Fin.ofNat 4 ((0x1000 * (p.val + 1) + q) / 0x1000 - 1) = p := by
    apply Fin.ext
    simp only [Fin.val_ofNat, h3]
    omega
  have ho : 0x30000 + (0x1000 * (p.val + 1) + q) = portOff p q := by
    unfold portOff
    omega
  unfold Dev.mmioWrite
  dsimp only
  rw [regAbsent_port hp h, if_neg (by simp), h1, h2]
  show Dev.portWrite P d _ v = _
  unfold Dev.portWrite
  rw [if_neg (by omega), if_neg (by omega), if_neg (by omega), if_pos (by omega)]
  dsimp only
  rw [hid, h4, ho]

end Offsets

/-- EN is not among the bits that a write of a port's control register sets by itself (06 R138). -/
theorem en_writeReg (P : Part) (d : Dev) (p : PortId) (v : Word) :
    bit ((d.writeReg P (portOff p 0) v).portReg p 0) 0 = bit (d.portReg p 0) 0 := by
  have hm : regMask P d (portOff p 0) = if d.portOn p then 0x80 else 0xFE := by fin_cases p <;> rfl
  unfold Dev.portReg
  rw [reg_writeReg_self, hm]
  split <;> simp [bit]

/-- Another register of the port stays at a write of its control register. -/
theorem portReg_writeReg (P : Part) (d : Dev) (p : PortId) (v : Word) {q : Nat} (h : q ≠ 0) :
    (d.writeReg P (portOff p 0) v).portReg p q = d.portReg p q :=
  reg_writeReg_other P d v (by unfold portOff; omega)

/-! ### Enabling -/

/-- The clock setting of a port passes, as a register's write leaves it (06 R141). -/
def clockPasses (d : Dev) (p : PortId) : Bool := clockOk (d.portReg p 0) (d.portReg p 8)

/-- The widths pass with a port enabled, as a register's write leaves them (06 R138). -/
def widthPasses (P : Part) (d : Dev) (p : PortId) : Bool :=
  decide (1 ≤ fld (d.portReg p 4) 0 14) && decide (fld (d.portReg p 4) 0 14 ≤ 12288) && decide (d.portWidth p + d.width ≤ 6144 * P.ports)

/-- Whether the clock setting passes does not depend on the crossings. -/
theorem clockPasses_cross (P : Part) (d : Dev) (p : PortId) (k : Fin 9) (o : Nat) (v : Word) :
    clockPasses ((d.cross k).writeReg P o v) p = clockPasses (d.writeReg P o v) p := rfl

/-- Nor does whether the widths pass. -/
theorem widthPasses_cross (P : Part) (d : Dev) (p : PortId) (k : Fin 9) (o : Nat) (v : Word) :
    widthPasses P ((d.cross k).writeReg P o v) p = widthPasses P (d.writeReg P o v) p := rfl

/-- A port that is off is enabled where clock and widths pass, with a pending ARM's bank; otherwise what fails is told (06 R138, R141). -/
theorem portTryEnable_effect (P : Part) (d : Dev) (p : PortId) (v : Word) (h0 : bit (d.portReg p 0) 0 = false) :
    let ck := clockPasses (d.writeReg P (portOff p 0) v) p
    let wd := widthPasses P (d.writeReg P (portOff p 0) v) p
    let t := d.portTryEnable P p v
    bit (t.portReg p 0) 0 = (ck && wd) ∧ (t.port[p]).ckErr = ((d.port[p]).ckErr || !ck) ∧ t.widthErr = (d.widthErr || !wd) ∧
    ((ck && wd) = true → (t.port[p]).actBank = (d.port[p]).arm.getD (d.port[p]).actBank ∧ (t.port[p]).arm = none) ∧
    t = { d with regs := t.regs, port := t.port, widthErr := t.widthErr } ∧ ∀ k : PortId, k ≠ p → t.port[k] = d.port[k] := by
  intro ck wd t
  have hen := en_writeReg P d p v
  have ht : t = if ck && wd then
      (((d.writeReg P (portOff p 0) v).setReg (portOff p 0) (putBit ((d.writeReg P (portOff p 0) v).portReg p 0) 0 true)).updPort p fun x => { x with
        actBank := x.arm.getD x.actBank, arm := none, running := false, ended := true, ovrRaised := false
        ckLock := bit (((d.writeReg P (portOff p 0) v).setReg (portOff p 0) (putBit ((d.writeReg P (portOff p 0) v).portReg p 0) 0 true)).portReg p 0) 6
          && x.ckLane })
    else
      let f := if ck then d.writeReg P (portOff p 0) v else (d.writeReg P (portOff p 0) v).updPort p fun x => { x with ckErr := true }
      if wd then f else { f with widthErr := true } := rfl
  rw [ht]
  clear_value ck wd
  cases ck <;> cases wd
  case true.true =>
    refine ⟨?_, ?_, ?_, fun _ => ?_, rfl, fun k hk => upd_get_ne _ _ _ _ (Ne.symm hk)⟩
    · show bit (Dev.reg (Dev.setReg _ _ _) _) 0 = _
      rw [reg_setReg, if_pos rfl, bit_putBit_self _ _ (by decide)]
      rfl
    · simp [-Fin.getElem_fin, Dev.writeReg]
    · simp [Dev.writeReg]
    · simp [-Fin.getElem_fin, Dev.writeReg]
  case true.false => exact ⟨hen.trans h0, by simp [Dev.writeReg], by simp, by simp, rfl, fun _ _ => rfl⟩
  case false.true =>
    exact ⟨hen.trans h0, by simp [-Fin.getElem_fin, Dev.writeReg], by simp [Dev.writeReg], by simp, rfl,
      fun k hk => upd_get_ne _ _ _ _ (Ne.symm hk)⟩
  case false.false =>
    exact ⟨hen.trans h0, by simp [-Fin.getElem_fin, Dev.writeReg], by simp, by simp, rfl, fun k hk => upd_get_ne _ _ _ _ (Ne.symm hk)⟩

/-! ### Disabling and enabling again -/

/-- A write of EN = 0 clears EN; the port stops at once outside a line, and at the line boundary inside one (06 R138, log 77). -/
theorem portCtlWrite_disable (P : Part) (d : Dev) (p : PortId) (v : Word) (hv : bit v 0 = false) (h1 : bit (d.portReg p 0) 0 = true) :
    bit ((d.portCtlWrite P p v).portReg p 0) 0 = false ∧
    (d.portCtlWrite P p v).port = upd d.port p (fun x => if p ∈ d.acq.ports ∧ d.acq.done = false then { x with disPend := true }
      else { x with disPend := false, outs := 0, ckLock := false }) ∧
    d.portCtlWrite P p v = { d with regs := (d.portCtlWrite P p v).regs, port := (d.portCtlWrite P p v).port } := by
  let f := (d.writeReg P (portOff p 0) v).setReg (portOff p 0) (putBit ((d.writeReg P (portOff p 0) v).portReg p 0) 0 false)
  have hf : bit (f.portReg p 0) 0 = false := by
    show bit (Dev.reg (Dev.setReg _ _ _) _) 0 = _
    rw [reg_setReg, if_pos rfl, bit_putBit_self _ _ (by decide)]
  have ht : d.portCtlWrite P p v =
      if d.acq.ports.contains p && !d.acq.done then f.updPort p fun x => { x with disPend := true } else f.portDisable p := by
    unfold Dev.portCtlWrite
    dsimp only
    rw [hv, h1]
    rfl
  rw [ht]
  by_cases hl : p ∈ d.acq.ports ∧ d.acq.done = false
  · rw [if_pos (by simp [hl.1, hl.2])]
    simp only [if_pos hl]
    exact ⟨hf, rfl, rfl⟩
  · rw [if_neg (by simpa using hl)]
    simp only [if_neg hl]
    exact ⟨hf, rfl, rfl⟩

/-- A write of EN = 1 before the line boundary takes the disabling back (06 R138, log 77). -/
theorem portCtlWrite_withdraw (P : Part) (d : Dev) (p : PortId) (v : Word) (hv : bit v 0 = true) (h0 : bit (d.portReg p 0) 0 = false)
    (hd : (d.port[p]).disPend = true) :
    bit ((d.portCtlWrite P p v).portReg p 0) 0 = true ∧
    d.portCtlWrite P p v = { d with regs := (d.portCtlWrite P p v).regs, port := upd d.port p fun x => { x with disPend := false } } := by
  have ht : d.portCtlWrite P p v = ((d.writeReg P (portOff p 0) v).setReg (portOff p 0)
      (putBit ((d.writeReg P (portOff p 0) v).portReg p 0) 0 true)).updPort p fun x => { x with disPend := false } := by
    unfold Dev.portCtlWrite
    dsimp only
    rw [hv, h0, hd]
    rfl
  rw [ht]
  refine ⟨?_, rfl⟩
  show bit (Dev.reg (Dev.setReg _ _ _) _) 0 = _
  rw [reg_setReg, if_pos rfl, bit_putBit_self _ _ (by decide)]

/-- A write of EN = 1 at a port that is off tries to enable it (06 R138). -/
theorem portCtlWrite_enable (P : Part) (d : Dev) (p : PortId) (v : Word) (hv : bit v 0 = true) (h0 : bit (d.portReg p 0) 0 = false)
    (hd : (d.port[p]).disPend = false) : d.portCtlWrite P p v = d.portTryEnable P p v := by
  unfold Dev.portCtlWrite
  dsimp only
  rw [hv, h0, hd]
  rfl

/-! ### Edge tables -/

/-- The bits of an edge-table entry (06 R142). -/
theorem regMask_edge (P : Part) (d : Dev) (p : PortId) (b : Fin 2) (i : Fin 64) :
    regMask P d (portOff p (0x400 + 0x100 * b.val + 4 * i.val)) = 0x81F7FFFF := by
  obtain ⟨h1, h2, h3, h4⟩ := portOff_split (p := p) (q := 0x400 + 0x100 * b.val + 4 * i.val) (by omega)
  unfold regMask
  dsimp only
  rw [h1, h2]
  show maskPort d _ = _
  unfold maskPort
  rw [if_neg (by omega), if_neg (by omega), dif_pos (by omega)]
  dsimp only
  rw [h4, if_neg (by omega), if_neg (by omega), if_neg (by omega), if_neg (by omega), if_neg (by omega), if_neg (by omega), if_neg (by omega),
    if_pos (by omega)]

/-- Settles O36: the register writes through the port's own rule, the clock lanes by their steps. -/
theorem portRegisterCommands : Obligations.PortRegisterCommands := by
  intro s m p b i v present hp
  have hcw : s.dev.crossWrite s.part (portOff p 0) = s.dev.cross ⟨p.val, by omega⟩ := crossWrite_port s.dev hp (by decide)
  have ctl : ∀ {j : Instr} {w : Word}, exec j s = regWrite m (portOff p 0) w s → s.mayWrite m (portOff p 0) →
      Completes j s ((s.dev.cross ⟨p.val, by omega⟩).portCtlWrite s.part p w) := fun hj hw => by
    refine write_effect hj hw ?_
    rw [hcw, mmioWrite_port _ _ _ _ _ hp (by decide), if_pos rfl]
  have h1 : bit (putBit v 0 true) 0 = true := bit_putBit_self v true (by decide)
  have h0 : bit (putBit v 0 false) 0 = false := bit_putBit_self v false (by decide)
  refine ⟨fun hw he hd => ?_, fun hw he => ?_, fun hw he hd => ?_, fun hc hon hsrc => ?_, fun hr hk => ?_, fun hw => ⟨fun ha => ?_, fun ha => ?_⟩⟩
  · refine ⟨_, ctl rfl hw, ?_⟩
    rw [portCtlWrite_enable s.part (s.dev.cross ⟨p.val, by omega⟩) p _ h1 he hd]
    have h4 : (s.dev.writeReg s.part (portOff p 0) (putBit v 0 true)).portReg p 4 = s.dev.portReg p 4 := portReg_writeReg _ _ _ _ (by decide)
    rw [← h4]
    have h := portTryEnable_effect s.part (s.dev.cross ⟨p.val, by omega⟩) p (putBit v 0 true) he
    rw [clockPasses_cross, widthPasses_cross] at h
    exact h
  · obtain ⟨hb, hport, heq⟩ := portCtlWrite_disable s.part (s.dev.cross ⟨p.val, by omega⟩) p (putBit v 0 false) h0 he
    exact ⟨_, ctl rfl hw, hb, heq, hport⟩
  · exact ⟨_, ctl rfl hw, portCtlWrite_withdraw s.part (s.dev.cross ⟨p.val, by omega⟩) p (putBit v 0 true) h1 he hd⟩
  · have hcom := core_completes (.pllpLock p) s (fun P d => d.when (portPresent P p) (fun d => d.pllpLock p)) rfl hc
    simpa [Dev.when, hp, Dev.pllpLock, hon, hsrc, Dev.updPort] using hcom
  · have hup : s.dev.up = true := by simp [Dev.up, hr, hk]
    have hcom := up_completes (.sensorClockLane p present) s (fun P d => if portPresent P p then d.clockLane p present else d) rfl hup
    rw [if_pos hp] at hcom
    exact hcom
  all_goals
    have hq : 0x400 + 0x100 * b.val + 4 * i.val < 0x1000 := by omega
    have hb : (0x400 + 0x100 * b.val + 4 * i.val - 0x400) / 0x100 = b.val := by omega
    have hi : (0x400 + 0x100 * b.val + 4 * i.val) % 0x100 / 4 = i.val := by omega
    have hedge : Completes (.portEdgeWrite m p b i v) s ((s.dev.cross ⟨p.val, by omega⟩).edgeWrite s.part p b.val i.val v) := by
      refine write_effect rfl hw ?_
      rw [crossWrite_port _ hp hq, mmioWrite_port _ _ _ _ _ hp hq, if_neg (by omega), if_neg (by omega), if_pos (by omega), hb, hi]
    unfold Dev.edgeWrite at hedge
  · rw [if_pos ⟨ha.1, congrArg Fin.val ha.2⟩] at hedge
    exact hedge
  · rw [if_neg fun h => ha ⟨h.1, Fin.ext h.2⟩] at hedge
    refine ⟨_, hedge, ?_, rfl⟩
    rw [reg_writeReg_self, regMask_edge]
    rfl

end Sys2Proof.Proofs.Ports
end

section
/-!
The housekeeping sequence, its urgent requests and the registers of its entries (11 R253 to R275).
-/
namespace Sys2Proof.Proofs.HkSequence

open Sys2Proof.Machine Sys2Proof.Laws Sys2Proof.Proofs.Reads Sys2Proof.Proofs.PlainWrites

/-! ### Starts of a conversion -/

/-- What a start of a conversion puts into the converter: its entry with the entry's setting as it stands, before any measurement (R257). -/
def freshConv (d : Dev) (e : HkEnt) (u : Option (Fin 2)) : Conv :=
  ⟨e, d.hkEnt e, u, false, false, entIcode (d.hkEnt e), .settle, false, [], 0⟩

/-- A start of a conversion changes the converter and the state of its reference alone (R257). -/
theorem startConv_fields (d : Dev) (e : HkEnt) (u : Option (Fin 2)) :
    (d.startConv e u).hk.conv = some (freshConv d e u) ∧ (d.startConv e u).hk.seq = d.hk.seq ∧ (d.startConv e u).hk.slot = d.hk.slot ∧
    (d.startConv e u).hk.abandon = d.hk.abandon ∧ (d.startConv e u).hk.redo = d.hk.redo ∧ (d.startConv e u).hk.at_ = d.hk.at_ ∧
    (d.startConv e u).hk.res = d.hk.res ∧ (d.startConv e u).hk.pass = d.hk.pass ∧ (d.startConv e u).hk.aux = d.hk.aux ∧
    d.startConv e u = { d with hk := (d.startConv e u).hk } := by
  unfold Dev.startConv
  dsimp only
  split <;> exact ⟨rfl, rfl, rfl, rfl, rfl, rfl, rfl, rfl, rfl, rfl⟩

section Next

variable {d : Dev}

/-- While a conversion runs nothing else starts. -/
theorem hkNext_busy {c : Conv} (h : d.hk.conv = some c) : d.hkNext = d := by
  unfold Dev.hkNext
  rw [h]
  rfl

/-- With the converter idle, the one urgent request that has arrived starts (R261). -/
theorem hkNext_urgent {u : Fin 2} {e : HkEnt} (hc : d.hk.conv = none) (hx : d.hk.crossing = []) (hu : d.hk.slot[u] = some e)
    (ho : ∀ w : Fin 2, w ≠ u → d.hk.slot[w] = none) : d.hkNext = d.startConv e (some u) := by
  have harr (w : Fin 2) : d.hk.arrived w = d.hk.slot[w] := by simp [Hk.arrived, hx]
  unfold Dev.hkNext
  rw [hc, harr, harr]
  fin_cases u
  · rw [show d.hk.slot[(0 : Fin 2)] = some e from hu]
    rfl
  · rw [show d.hk.slot[(1 : Fin 2)] = some e from hu, ho 0 (by decide)]
    rfl

/-- No urgent request has arrived where none holds a slot. -/
theorem arrived_none {u : Fin 2} (h : d.hk.slot[u] = none) : d.hk.arrived u = none := by
  unfold Hk.arrived
  rw [h]
  exact ite_self _

variable (hc : d.hk.conv = none) (h0 : d.hk.arrived 0 = none) (h1 : d.hk.arrived 1 = none)
include hc h0 h1

/-- With the converter idle and no urgent request, a running sequence starts its next entry (R257). -/
theorem hkNext_run (hs : d.hk.seq = .run) :
    d.hkNext = (d.startConv ⟨d.hk.at_ % 16, Nat.mod_lt _ (by decide)⟩ none).updHk fun x => { x with redo := false } := by
  unfold Dev.hkNext
  rw [hc, h0, h1, hs]
  rfl

/-- With the converter idle and no urgent request, a waiting sequence and one that is idle start nothing. -/
theorem hkNext_rest (hs : d.hk.seq = .wait ∨ d.hk.seq = .idle) : d.hkNext = d := by
  unfold Dev.hkNext
  rw [hc, h0, h1]
  rcases hs with hs | hs <;> rw [hs] <;> rfl

end Next

/-- Beginning a pass at its first entry, with the converter idle and no urgent request (R253, R257). -/
theorem pass_begins {d : Dev} (hc : d.hk.conv = none) (h0 : d.hk.slot[(0 : Fin 2)] = none) (h1 : d.hk.slot[(1 : Fin 2)] = none) {x : Hk}
    (hx : x = { d.hk with seq := .run, at_ := 0, redo := x.redo, due := false }) :
    let t := ({ d with hk := x } : Dev).hkNext
    t = { d with hk := t.hk } ∧ t.hk.seq = .run ∧ t.hk.conv = some (freshConv d 0 none) := by
  have hr : ({ d with hk := x } : Dev).hkNext = ((({ d with hk := x } : Dev).startConv ⟨x.at_ % 16, Nat.mod_lt _ (by decide)⟩ none).updHk
      fun y => { y with redo := false }) :=
    hkNext_run (by show x.conv = none; rw [hx]; exact hc) (arrived_none (by show x.slot[_] = _; rw [hx]; exact h0))
      (arrived_none (by show x.slot[_] = _; rw [hx]; exact h1)) (by show x.seq = _; rw [hx])
  obtain ⟨hconv, hseq, -, -, -, -, -, -, -, hd⟩ := startConv_fields ({ d with hk := x } : Dev) ⟨x.at_ % 16, Nat.mod_lt _ (by decide)⟩ none
  intro t
  refine ⟨?_, ?_, ?_⟩
  · show Dev.hkNext _ = { d with hk := (Dev.hkNext _).hk }
    rw [hr]
    exact congrArg (fun y => Dev.updHk y fun y => { y with redo := false }) hd
  · show (Dev.hkNext _).hk.seq = _
    rw [hr]
    exact hseq.trans (by rw [hx])
  · show (Dev.hkNext _).hk.conv = _
    rw [hr]
    refine hconv.trans ?_
    have : (⟨x.at_ % 16, Nat.mod_lt _ (by decide)⟩ : HkEnt) = 0 := by
      apply Fin.ext
      rw [hx]
      rfl
    rw [this]
    rfl

/-! ### The command register -/

section Command

variable {d : Dev}

/-- START outside IDLE does nothing (R253). -/
theorem hkCmd_start_busy (h : d.hk.seq ≠ .idle) : d.hkCmd 1 = d := by
  show (d.hkStart).2 = d
  unfold Dev.hkStart
  rw [if_neg h]

/-- STOP while a conversion runs: the sequence ends after it, or at once where it waits (R253). -/
theorem hkCmd_stop_busy {c : Conv} (h : d.hk.conv = some c) :
    (d.hk.seq = .run → d.hkCmd 2 = { d with hk := { d.hk with seq := .stopping } }) ∧
    (d.hk.seq = .wait → d.hkCmd 2 = { d with hk := { d.hk with seq := .idle } }) := by
  refine ⟨fun hs => ?_, fun hs => ?_⟩
  all_goals
    show (d.hkStop) = _
    unfold Dev.hkStop Dev.updHk
    dsimp only
    rw [hkNext_busy (c := c) (by simp only [hs]; exact h)]
    simp only [hs]

/-- STOP with the converter idle and no urgent request ends a waiting sequence and leaves one that is idle (R253). -/
theorem hkCmd_stop_rest (hc : d.hk.conv = none) (h0 : d.hk.slot[(0 : Fin 2)] = none) (h1 : d.hk.slot[(1 : Fin 2)] = none) :
    (d.hk.seq = .wait → d.hkCmd 2 = { d with hk := { d.hk with seq := .idle } }) ∧ (d.hk.seq = .idle → d.hkCmd 2 = d) := by
  have hrest (e : Dev) (he : e.hk.seq = .idle) (h : e.hk.conv = none ∧ e.hk.slot = d.hk.slot) : e.hkNext = e :=
    hkNext_rest h.1 (arrived_none (by rw [h.2]; exact h0)) (arrived_none (by rw [h.2]; exact h1)) (.inr he)
  refine ⟨fun hs => ?_, fun hs => ?_⟩
  · show d.hkStop = _
    unfold Dev.hkStop Dev.updHk
    simp only [hs]
    exact hrest _ rfl ⟨hc, rfl⟩
  · show d.hkStop = _
    unfold Dev.hkStop Dev.updHk
    simp only [hs]
    exact hrest d hs ⟨hc, rfl⟩

end Command

/-! ### The period -/

/-- The end of a period starts a waiting pass at its first entry (R257). -/
theorem hkPeriod_wait {d : Dev} (hs : d.hk.seq = .wait) :
    d.hkPeriod = Dev.hkNext { d with hk := { d.hk with seq := .run, at_ := 0, due := false } } := by
  unfold Dev.hkPeriod Dev.updHk
  simp only [hs]

/-- The end of a period during a pass falls due (R257). -/
theorem hkPeriod_run {d : Dev} (hs : d.hk.seq = .run) : d.hkPeriod = { d with hk := { d.hk with due := true } } := by
  unfold Dev.hkPeriod Dev.updHk
  simp only [hs]

/-! ### The registers of an entry -/

/-- The setting of an entry keeps its two highest bits at 0 (R272). -/
theorem regMask_entCfg (P : Part) (d : Dev) (e : HkEnt) : regMask P d (0xA0200 + 16 * e.val) = 0x3FFFFFFF := by
  fin_cases e <;> rfl

/-- A register's write in the block of the converter is the converter's (R272). -/
theorem mmioWrite_entCfg {P : Part} (d : Dev) (m : Master) (pc insn v : Word) (e : HkEnt) (hk : P.hkin ≠ 0) :
    d.mmioWrite P m pc insn (0xA0200 + 16 * e.val) v = d.hkEntWrite P e v := by
  unfold Dev.mmioWrite
  rw [regAbsent_hk hk (by omega) (by omega)]
  fin_cases e <;> rfl

/-- A word with the channel field of another, bit by bit. -/
theorem putChannel (a v : Word) : putFld v 0 4 (fld a 0 4) = (v &&& 0xFFFFFFF0) ||| (a &&& 0xF) := by
  have hm : ~~~mask 0 4 = (0xFFFFFFF0 : Word) := by decide
  have hp : place (fld a 0 4 % 2 ^ 4) 0 = a &&& 0xF := by
    apply BitVec.eq_of_toNat_eq
    have h : a.toNat &&& 15 = a.toNat % 16 := Nat.and_two_pow_sub_one_eq_mod a.toNat 4
    simp [place, fld, BitVec.toNat_and]
    omega
  rw [putFld, hm, hp]

/-- Such a word through the mask of an entry's setting keeps the channel and takes every other bit of the setting (R272). -/
theorem keptChannel (a v : Word) :
    let w := (a &&& ~~~0x3FFFFFFF) ||| (putFld v 0 4 (fld a 0 4) &&& 0x3FFFFFFF)
    fld w 0 4 = fld a 0 4 ∧ ∀ i, 4 ≤ i → i < 30 → bit w i = bit v i := by
  rw [putChannel]
  refine ⟨congrArg BitVec.toNat (BitVec.eq_of_getLsbD_eq fun i hi => ?_), fun i h4 h30 => ?_⟩
  · interval_cases i <;> simp
  · unfold bit
    interval_cases i <;> simp

/-- A write of an entry's setting, with and without the channel the part has (R256, R272). -/
theorem hkEntWrite_effect (P : Part) (d : Dev) (e : HkEnt) (v : Word) :
    let o := 0xA0200 + 16 * e.val
    let hk' := { d.hk with zone := d.hk.zone.set e .inside }
    (¬ (P.hkin ≤ fld v 0 4 ∧ fld v 0 4 < 8) → d.hkEntWrite P e v = { d.writeReg P o v with hk := hk' }) ∧
    (P.hkin ≤ fld v 0 4 → fld v 0 4 < 8 → d.hkEntWrite P e v =
      { d.writeReg P o (putFld v 0 4 (fld (d.reg o) 0 4)) with hk := hk', sys := { d.sys with absent := true } }) := by
  refine ⟨fun h => ?_, fun h1 h2 => ?_⟩ <;> unfold Dev.hkEntWrite <;> dsimp only
  · rw [decide_eq_false h]
    rfl
  · rw [decide_eq_true (And.intro h1 h2)]
    rfl

/-! ### Urgent requests -/

section Urgent

variable {d : Dev} {u : Fin 2} {rest : List (Fin 2)} {e : HkEnt} {c : Conv} (hx : d.hk.crossing = u :: rest)
include hx

/-- An urgent request that reaches an idle converter starts (R261). -/
theorem urgentArrival_idle (hc : d.hk.conv = none) (hr : rest = []) (hu : d.hk.slot[u] = some e)
    (ho : ∀ w : Fin 2, w ≠ u → d.hk.slot[w] = none) :
    d.urgentArrival = ({ d with hk := { d.hk with crossing := [] } } : Dev).startConv e (some u) := by
  have hn : d.urgentArrival = ({ d with hk := { d.hk with crossing := [] } } : Dev).hkNext := by
    unfold Dev.urgentArrival Dev.updHk
    simp only [hx, hc, hr]
  exact hn.trans (hkNext_urgent hc rfl hu ho)

/-- An urgent request that meets a conversion in DROP mode is dropped (R262). -/
theorem urgentArrival_drop (hc : d.hk.conv = some c) (hd : bit (d.reg 0xA0000) (5 + u.val) = true) :
    d.urgentArrival = { d with hk := { d.hk with crossing := rest, drop := d.hk.drop + 1, slot := d.hk.slot.set u none } } := by
  unfold Dev.urgentArrival Dev.updHk
  simp only [hx, hc]
  exact if_pos hd

/-- An urgent request that meets another one's conversion in RESUME mode waits (R262). -/
theorem urgentArrival_wait (hc : d.hk.conv = some c) (hd : bit (d.reg 0xA0000) (5 + u.val) = false) (hu : c.urgent ≠ none) :
    d.urgentArrival = { d with hk := { d.hk with crossing := rest } } := by
  unfold Dev.urgentArrival Dev.updHk
  simp only [hx, hc]
  exact (if_neg (ne_true_of_eq_false hd)).trans (if_pos (Option.isSome_iff_ne_none.mpr hu))

/-- An urgent request in RESUME mode abandons a conversion of the sequence, whose entry restarts later, and starts (R262). -/
theorem urgentArrival_abandon (hc : d.hk.conv = some c) (hd : bit (d.reg 0xA0000) (5 + u.val) = false) (hn : c.urgent = none) (hr : rest = [])
    (hu : d.hk.slot[u] = some e) (ho : ∀ w : Fin 2, w ≠ u → d.hk.slot[w] = none) :
    d.urgentArrival = ({ d with hk := { d.hk with
      crossing := [], conv := none, abandon := true, at_ := c.entry.val, redo := true } } : Dev).startConv e (some u) := by
  have hn' : d.urgentArrival = ({ d with hk := { d.hk with
      crossing := [], conv := none, abandon := true, at_ := c.entry.val, redo := true } } : Dev).hkNext := by
    unfold Dev.urgentArrival Dev.updHk
    simp only [hx, hc, hr]
    exact (if_neg (ne_true_of_eq_false hd)).trans (if_neg (by simp [hn]))
  exact hn'.trans (hkNext_urgent rfl rfl hu ho)

end Urgent

/-! ### The obligation -/

/-- A housekeeping command written to its register (R253). -/
theorem hkCmd_completes {i : Instr} {s : State} {m : Master} {v : Word} {t : Dev} (h : exec i s = regWrite m 0xA0004 v s)
    (hk : s.part.hkin ≠ 0) (hw : s.mayWrite m 0xA0004) (ht : (s.dev.crossWrite s.part 0xA0004).hkCmd v = t) : Completes i s t := by
  refine write_effect h hw ?_
  unfold Dev.mmioWrite
  rw [regAbsent_hk hk (by omega) (by omega)]
  exact ht

/-- A step of the housekeeping converter completes where the part has one. -/
theorem hkStep_completes {i : Instr} {s : State} {f : Part → Dev → Dev} (h : exec i s = hkStep f s) (hup : s.dev.up = true) (hk : s.part.hkin ≠ 0) :
    Completes i s (f s.part s.dev) := by
  have := up_completes i s (fun P d => d.when (P.hkin != 0) (f P)) h hup
  rwa [show Dev.when _ (s.part.hkin != 0) _ = _ from if_pos (by simpa using hk)] at this

/-- The arrival of an urgent request completes where the part has a converter (R261). -/
theorem urgentArrival_completes {s : State} (hon : s.dev.coreOn = true) (hk : s.part.hkin ≠ 0) {t : Dev} (ht : s.dev.urgentArrival = t) :
    Completes .urgentRequestArrival s t := by
  have := core_completes .urgentRequestArrival s (fun P d => d.when (P.hkin != 0) Dev.urgentArrival) rfl hon
  rwa [show Dev.when _ (s.part.hkin != 0) _ = _ from if_pos (by simpa using hk), ht] at this

/-- The registers of the converter share a crossing (01 R25). -/
theorem crossWrite_entCfg (P : Part) (d : Dev) (e : HkEnt) : d.crossWrite P (0xA0200 + 16 * e.val) = d.crossWrite P 0xA0004 := by
  have hports : P.ports < 8 := (P.caps.extractLsb' 0 3).isLt
  have hc (o : Nat) (h0 : 0xA0000 ≤ o) (h1 : o < 0xB0000) : crossOf P o = if P.hkin ≠ 0 then some 4 else none := by
    unfold crossOf
    rw [if_neg (by omega)]
    by_cases hk : P.hkin ≠ 0
    · rw [if_pos ⟨by omega, hk⟩, if_pos hk]
    · rw [if_neg (fun h => hk h.2), if_neg (by omega), if_neg (by omega), if_neg hk]
  unfold Dev.crossWrite
  rw [hc _ (by omega) (by omega), hc 0xA0004 (by omega) (by omega)]

/-- A write of an entry's setting completes with the entry's own rule (R272). -/
theorem hkEntCfgWrite_completes {s : State} {m : Master} {e : HkEnt} {v : Word} {t : Dev} (hk : s.part.hkin ≠ 0)
    (hw : s.mayWrite m (0xA0200 + 16 * e.val)) (ht : (s.dev.crossWrite s.part 0xA0004).hkEntWrite s.part e v = t) :
    Completes (.hkEntCfgWrite m e v) s t := by
  refine write_effect rfl hw ?_
  rw [mmioWrite_entCfg _ m _ _ v e hk, crossWrite_entCfg]
  exact ht

/-- Settles O44: the sequence's commands, the registers of an entry, the period and the urgent requests, each by its own lemma. -/
theorem housekeepingSequence : Obligations.HousekeepingSequence := by
  intro s m v e u rest c d hk only w took starts o mk
  have hwe : w = { d with fifo := w.fifo, free := w.free } := crossWrite_eq _ _ _
  have hwhk : w.hk = d.hk := by rw [hwe]
  have hwsys : w.sys = d.sys := by rw [hwe]
  have hreg (o' : Nat) : w.reg o' = d.reg o' := reg_crossWrite ..
  have hmask : regMask s.part w o = mk := regMask_crossWrite ..
  have fresh (t : Dev) (k : HkEnt) (y : Option (Fin 2)) (d' : Dev) (hd : d'.regs = d.regs) (ht : t.hk.conv = some (freshConv d' k y)) :
      starts t k.val y :=
    ⟨_, ht, rfl, rfl, by
      show tabGet _ d'.regs _ = tabGet _ d.regs _
      rw [hd], rfl, rfl, rfl, rfl⟩
  refine ⟨fun hin => ⟨fun hw => ⟨?_, ?_, ?_, ?_, ?_⟩, fun hw => ⟨?_, ?_⟩⟩, fun hup hin => ⟨?_, ?_⟩, fun hon hin hx => ⟨?_, ?_, ?_, ?_⟩⟩
  · intro hs hc h0 h1
    obtain ⟨ho, hseq, hconv⟩ := pass_begins (d := w) (hwhk ▸ hc) (hwhk ▸ h0) (hwhk ▸ h1)
      (x := { w.hk with seq := .run, at_ := 0, redo := false, due := false }) rfl
    refine ⟨_, hkCmd_completes rfl hin hw ?_, ho, hseq, fresh _ _ _ w (by rw [hwe]) hconv⟩
    show (Dev.hkStart _).2 = _
    unfold Dev.hkStart
    exact congrArg Prod.snd (if_pos (by rw [hwhk]; exact hs))
  · exact fun hs => hkCmd_completes rfl hin hw (hkCmd_start_busy (by rwa [hwhk]))
  · intro hc
    obtain ⟨hr, hwait⟩ := hkCmd_stop_busy (d := w) (c := c) (by rwa [hwhk])
    rw [hwhk] at hr hwait
    exact ⟨fun hs => hkCmd_completes rfl hin hw (hr hs), fun hs => hkCmd_completes rfl hin hw (hwait hs)⟩
  · intro hc h0 h1
    obtain ⟨hwait, hi⟩ := hkCmd_stop_rest (d := w) (by rwa [hwhk]) (by rwa [hwhk]) (by rwa [hwhk])
    rw [hwhk] at hwait hi
    exact ⟨fun hs => hkCmd_completes rfl hin hw (hwait hs), fun hs => hkCmd_completes rfl hin hw (hi hs)⟩
  · refine hkCmd_completes (v := 4) rfl hin hw ?_
    show w.updHk (fun x => { x with drop := 0 }) = _
    unfold Dev.updHk
    rw [hwhk]
  · exact fun hch => ⟨_, hkEntCfgWrite_completes hin hw ((hkEntWrite_effect _ w e v).1 hch),
      (reg_writeReg_self _ w o v).trans (by rw [hmask, hreg]), fun o' ho' => (reg_writeReg_other _ w v ho').trans (hreg o'),
      by rw [hwhk], rfl⟩
  · intro h1 h2
    have hself : (w.writeReg s.part o (putFld v 0 4 (fld (w.reg o) 0 4))).reg o = _ := reg_writeReg_self _ w o _
    rw [hmask, hreg o, show mk = _ from regMask_entCfg _ d e] at hself
    have hkept := keptChannel (d.reg o) v
    refine ⟨_, hkEntCfgWrite_completes hin hw ((hkEntWrite_effect _ w e v).2 h1 h2), ?_, ?_, by rw [hwsys], by rw [hwhk], rfl⟩
    · show fld (Dev.reg (Dev.writeReg _ w o (putFld v 0 4 (fld (w.reg o) 0 4))) o) 0 4 = _
      rw [hreg o, hself]
      exact hkept.1
    · show ∀ i, _ → _ → bit (Dev.reg (Dev.writeReg _ w o (putFld v 0 4 (fld (w.reg o) 0 4))) o) i = _
      rw [hreg o, hself]
      exact hkept.2
  · intro hs hc h0 h1
    obtain ⟨ho, hseq, hconv⟩ := pass_begins (d := d) hc h0 h1 (x := { hk with seq := .run, at_ := 0, due := false }) rfl
    refine ⟨_, ?_, ho, hseq, fresh _ _ _ d rfl hconv⟩
    exact hkPeriod_wait (d := d) hs ▸ hkStep_completes (f := fun _ d => d.hkPeriod) rfl hup hin
  · exact fun hs => hkPeriod_run (d := d) hs ▸ hkStep_completes (f := fun _ d => d.hkPeriod) rfl hup hin
  · intro hc hr hu ho
    obtain ⟨hconv, hseq, hslot, -, -, -, -, -, -, hd⟩ := startConv_fields ({ d with hk := { d.hk with crossing := [] } } : Dev) e (some u)
    exact ⟨_, urgentArrival_completes hon hin (urgentArrival_idle hx hc hr hu ho), hd, hslot, hseq, fresh _ _ _ _ rfl hconv⟩
  · exact fun hc hd => ⟨_, urgentArrival_completes hon hin (urgentArrival_drop hx hc hd), rfl⟩
  · exact fun hc hd hu => urgentArrival_completes hon hin (urgentArrival_wait hx hc hd hu)
  · intro hc hd hn hr hu ho
    obtain ⟨hconv, hseq, -, hab, hredo, hat, hres, -, -, hd'⟩ := startConv_fields ({ d with hk := { d.hk with
      crossing := [], conv := none, abandon := true, at_ := c.entry.val, redo := true } } : Dev) e (some u)
    exact ⟨_, urgentArrival_completes hon hin (urgentArrival_abandon hx hc hd hn hr hu ho), hd', hab, hredo, hat, hres, hseq,
      fresh _ _ _ _ rfl hconv⟩

end Sys2Proof.Proofs.HkSequence
end

section
/-!
A housekeeping conversion from the settling of its reference to its published result (11 R252 to R268).
-/
namespace Sys2Proof.Proofs.HkConversion

open Sys2Proof.Machine Sys2Proof.Laws Sys2Proof.Proofs.Raise Sys2Proof.Proofs.LinkFrame Sys2Proof.Proofs.HkSequence

/-! ### What the steps of a publication leave -/

/-- The sequence number of an event source. -/
def seqOf (d : Dev) (k : Fin 64) : Half := (d.ev.src[k]).seq

/-- What a publication reads again of the converter after a result is shown, with the contexts and the memory beside it (R259). -/
def view (d : Dev) : Phase × Vector Ctx 64 × Mem × Tab Word × Vector Word 16 × Vector Word 16 × Vector (Option HkEnt) 2 × Word × Nat × HkSeq :=
  (d.phase, d.ctx, d.mem, d.regs, d.hk.res, d.hk.aux, d.hk.slot, d.hk.pass, d.hk.at_, d.hk.seq)

/-- Two devices with the same view, part by part. -/
theorem view_eq {d t : Dev} (h : view t = view d) : t.phase = d.phase ∧ t.ctx = d.ctx ∧ t.mem = d.mem ∧ t.regs = d.regs ∧
    t.hk.res = d.hk.res ∧ t.hk.aux = d.hk.aux ∧ t.hk.slot = d.hk.slot ∧ t.hk.pass = d.hk.pass ∧ t.hk.at_ = d.hk.at_ ∧ t.hk.seq = d.hk.seq := by
  simpa only [view, Prod.mk.injEq] using h

/-- A step that moves no event source but that of a limit (R265). -/
def Quiet (d t : Dev) : Prop := ∀ k : Fin 64, k ≠ 34 → seqOf t k = seqOf d k

theorem Quiet.trans {d e t : Dev} (h : Quiet d e) (h' : Quiet e t) : Quiet d t := fun k hk => (h' k hk).trans (h k hk)

/-- A step that leaves the fabric moves no source. -/
theorem Quiet.of_ev {d t : Dev} (h : t.ev = d.ev) : Quiet d t := fun k _ => by
  unfold seqOf
  rw [h]

/-- A raised event keeps the view. -/
theorem view_raise (d : Dev) (n : Fin 64) (w : Word) : view (d.raise n w) = view d := by
  rw [raise_eq]
  rfl

/-- The filter of the shading takes a result without a trace in the converter (R268). -/
theorem shadeResult_pix (P : Part) (d : Dev) (e : HkEnt) (c : Word) (valid : Bool) (v : Int) :
    d.shadeResult P e c valid v = { d with pix := (d.shadeResult P e c valid v).pix } := by
  unfold Dev.shadeResult
  dsimp only
  split
  · split <;> rfl
  · rfl

/-- The limits of an entry move its zone and the event of a limit alone (R265). -/
theorem limitResult_view (d : Dev) (e : HkEnt) (c : Word) (v : Int) (h : d.asleep = false) :
    view (d.limitResult e c v) = view d ∧ Quiet d (d.limitResult e c v) := by
  unfold Dev.limitResult
  split
  · extract_lets lim
    split
    · exact ⟨rfl, Quiet.of_ev rfl⟩
    · split
      · exact ⟨rfl, Quiet.of_ev rfl⟩
      · exact ⟨view_raise _ _ _, fun k hk => raise_seq_other _ h hk⟩
  · exact ⟨rfl, Quiet.of_ev rfl⟩

/-- The analog output changes its own code alone (R267). -/
theorem aoutResult_view (d : Dev) (e : HkEnt) (valid : Bool) (v : Int) :
    view (d.aoutResult e valid v) = view d ∧ (d.aoutResult e valid v).ev = d.ev := by
  unfold Dev.aoutResult
  dsimp only
  split
  · split
    · exact ⟨rfl, rfl⟩
    · split
      · exact ⟨rfl, rfl⟩
      · split <;> exact ⟨rfl, rfl⟩
  · exact ⟨rfl, rfl⟩

/-- A result is shown in its entry, whose crossing it takes up (R259). -/
theorem resVisible_fields (d : Dev) (e : HkEnt) (res aux : Word) :
    let t := d.resVisible e res aux
    t.hk.res = d.hk.res.set e res ∧ t.hk.aux = d.hk.aux.set e aux ∧ t.hk.slot = d.hk.slot ∧ t.hk.pass = d.hk.pass ∧ t.hk.at_ = d.hk.at_ ∧
    t.hk.seq = d.hk.seq ∧ t.phase = d.phase ∧ t.ctx = d.ctx ∧ t.mem = d.mem ∧ t.regs = d.regs ∧ t.ev = d.ev := by
  unfold Dev.resVisible Dev.resNote
  dsimp only [Dev.updHk]
  split
  · split <;> exact ⟨rfl, rfl, rfl, rfl, rfl, rfl, rfl, rfl, rfl, rfl, rfl⟩
  · exact ⟨rfl, rfl, rfl, rfl, rfl, rfl, rfl, rfl, rfl, rfl, rfl⟩

/-! ### A published result -/

/-- The result word of a conversion (R259). -/
def resWord (d : Dev) (e : Nat × Int × Bool) : Word :=
  flag (e.1 == 0) 31 ||| flag true 30 ||| place e.1 27 ||| place (d.hk.pass.toNat % 8) 24 ||| (iword e.2.1 &&& 0xFFFFFF)

/-- The companion of a result (R259). -/
def auxWord (c : Conv) (fault : Nat) : Word :=
  (iword (exMeas c.cfg c.meas) &&& 0xFFFFF) ||| flag (c.again && fault == 0) 20 ||| place (if byCurrent (entWire c.cfg) then c.icode else 0) 21

/-- A result shown, before the fault's event (R259, R268). -/
def shown (P : Part) (d : Dev) (c : Conv) (e : Nat × Int × Bool) : Dev :=
  (((if e.2.2 then d.hkCfgErr else d).resVisible c.entry (resWord d e) (auxWord c e.1)).updHk fun x => { x with conv := none }).shadeResult P
    c.entry c.cfg (e.1 == 0) e.2.1

/-- A result shown with its fault, limits and analog output (R265, R267). -/
def reported (P : Part) (d : Dev) (c : Conv) (e : Nat × Int × Bool) : Dev :=
  let t := if e.1 == 0 then shown P d c e else (shown P d c e).raise 33 (place c.entry.val 0 ||| place e.1 4)
  (if e.1 == 0 then t.limitResult c.entry c.cfg e.2.1 else t).aoutResult c.entry (e.1 == 0) e.2.1

/-- What follows a published result: the urgent conversion's slot and event, or the sequence's next entry (R259, R261). -/
def followed (d : Dev) (c : Conv) : Dev :=
  match c.urgent with
  | some u => (d.updHk fun x => { x with slot := x.slot.set u none }).raise 32 (place u.val 0 ||| place c.entry.val 4)
  | none => d.seqAfter c.entry.val

/-- A COMPLIANCE that AUTOSTEP repeats (R254). -/
def stepsDown (d : Dev) (c : Conv) : Prop := (d.evaluate c).1 = 3 ∧ bit c.cfg 20 = true ∧ 0 < c.icode ∧ c.again = false

section Publish

variable {P : Part} {d : Dev} {c : Conv} (hp : d.phase = .run) (hc : d.hk.conv = some c) (hs : c.stage = .comp)
include hc hs

/-- A COMPLIANCE with AUTOSTEP repeats with the next lower current (R254). -/
theorem resultPublish_again (h : stepsDown d c) : d.resultPublish P = { d with hk := { d.hk with
    conv := some { c with phaseB := false, again := true, icode := c.icode - 1, stage := .settle, meas := [] } } } := by
  obtain ⟨h1, h2, h3, h4⟩ := h
  unfold Dev.resultPublish Dev.updHk
  simp only [hc]
  rw [if_neg (by simp [hs]), if_pos ⟨h1, h2, h3, by simp [h4]⟩]

include hp

/-- A result waits for its crossing and for those kept over STANDBY (01 R25, R274). -/
theorem resultPublish_waits (h : ¬ stepsDown d c) (hr : d.crossRoom 7 = false ∨ ∃ k : HkEnt, d.hk.kept[k] ≠ none) : d.resultPublish P = d := by
  have ha : d.asleep = false := by simp [Dev.asleep, hp]
  have hk : (∃ k : HkEnt, d.hk.kept[k] ≠ none) → d.hk.kept.toList.any Option.isSome = true := fun ⟨k, hk⟩ =>
    List.any_eq_true.mpr ⟨d.hk.kept[k], by simp, Option.isSome_iff_ne_none.mpr hk⟩
  unfold Dev.resultPublish
  simp only [hc]
  rw [if_neg (by simp [hs]), if_neg (by simpa [stepsDown] using h), if_pos ⟨by simp [ha], hr.imp (by simp) hk⟩]

/-- A result is shown where its crossing has room and none is kept (R259). -/
theorem resultPublish_shown (h : ¬ stepsDown d c) (hr : d.crossRoom 7 = true) (hk : ∀ k : HkEnt, d.hk.kept[k] = none) :
    d.resultPublish P = (followed (reported P d c (d.evaluate c)) c).hkNext := by
  have ha : d.asleep = false := by simp [Dev.asleep, hp]
  have hn : ¬ d.hk.kept.toList.any Option.isSome = true := by
    rw [List.any_eq_true]
    rintro ⟨x, hx, hs⟩
    obtain ⟨i, hi, rfl⟩ := Vector.mem_iff_getElem.mp (Vector.mem_toList_iff.mp hx)
    exact Option.isSome_iff_ne_none.mp hs (hk ⟨i, hi⟩)
  unfold Dev.resultPublish
  simp only [hc]
  rw [if_neg (by simp [hs]), if_neg (by simpa [stepsDown] using h), if_neg (by simp [hr, hn])]
  unfold followed reported shown resWord auxWord
  generalize d.evaluate c = e
  obtain ⟨fault, v, bad⟩ := e
  have ha' : (if bad then d.hkCfgErr else d).asleep = false := by split <;> exact ha
  simp only [ha', Bool.false_eq_true, if_false]
  cases bad <;> rfl

end Publish

/-! ### The steps of a publication, one by one -/

/-- A result shown changes its entry's result and companion, and moves no source (R259). -/
theorem shown_fields (P : Part) (d : Dev) (c : Conv) (e : Nat × Int × Bool) :
    let t := shown P d c e
    t.hk.res = d.hk.res.set c.entry (resWord d e) ∧ t.hk.aux = d.hk.aux.set c.entry (auxWord c e.1) ∧ t.hk.slot = d.hk.slot ∧
    t.hk.pass = d.hk.pass ∧ t.hk.seq = d.hk.seq ∧ t.phase = d.phase ∧ t.ctx = d.ctx ∧ t.mem = d.mem ∧ t.regs = d.regs ∧ t.ev = d.ev := by
  intro t
  have hs : t = { Dev.updHk _ _ with pix := t.pix } := shadeResult_pix P _ c.entry c.cfg (e.1 == 0) e.2.1
  obtain ⟨hres, haux, hslot, hpass, -, hseq, hph, hctx, hmem, hregs, hev⟩ :=
    resVisible_fields (if e.2.2 then d.hkCfgErr else d) c.entry (resWord d e) (auxWord c e.1)
  have hv : view (if e.2.2 then d.hkCfgErr else d) = view d := by split <;> rfl
  have he : (if e.2.2 then d.hkCfgErr else d).ev = d.ev := by split <;> rfl
  obtain ⟨vph, vctx, vmem, vregs, vres, vaux, vslot, vpass, -, vseq⟩ := view_eq hv
  rw [vres] at hres
  rw [vaux] at haux
  rw [hs]
  exact ⟨hres, haux, hslot.trans vslot, hpass.trans vpass, hseq.trans vseq, hph.trans vph, hctx.trans vctx, hmem.trans vmem, hregs.trans vregs,
    hev.trans he⟩

/-- The fault, the limits and the analog output keep the view; a fault raises its event (R265, R267). -/
theorem reported_view (P : Part) (d : Dev) (c : Conv) (e : Nat × Int × Bool) (h : d.asleep = false) :
    view (reported P d c e) = view (shown P d c e) ∧
    ∀ k : Fin 64, k ≠ 34 → seqOf (reported P d c e) k = seqOf d k + if k = 33 ∧ e.1 ≠ 0 then 1 else 0 := by
  obtain ⟨-, -, -, -, -, hph, -, -, -, hev⟩ := shown_fields P d c e
  have hs : (shown P d c e).asleep = false := by rwa [Dev.asleep, hph]
  have hq : Quiet d (shown P d c e) := Quiet.of_ev hev
  unfold reported
  by_cases h0 : e.1 = 0
  · simp only [h0, beq_self_eq_true, if_true]
    obtain ⟨hlv, hlq⟩ := limitResult_view (shown P d c e) c.entry c.cfg e.2.1 hs
    obtain ⟨hav, haq⟩ := aoutResult_view ((shown P d c e).limitResult c.entry c.cfg e.2.1) c.entry true e.2.1
    refine ⟨hav.trans hlv, fun k hk => ?_⟩
    rw [if_neg (by simp)]
    exact ((hq.trans hlq).trans (Quiet.of_ev haq) k hk).trans (BitVec.add_zero _).symm
  · have hf : (e.1 == 0) = false := by simpa using h0
    simp only [hf, Bool.false_eq_true, if_false]
    obtain ⟨hav, haq⟩ := aoutResult_view ((shown P d c e).raise 33 (place c.entry.val 0 ||| place e.1 4)) c.entry false e.2.1
    refine ⟨hav.trans (view_raise _ _ _), fun k hk => ?_⟩
    rw [(Quiet.of_ev haq k hk : seqOf _ k = seqOf _ k), seqOf, raise_seq 33 k _ hs]
    simp only [h0, ne_eq, not_false_eq_true, and_true]
    exact congrArg (· + _) (hq k hk)

/-- A pass completed, with its event (R257). -/
def passed (d : Dev) : Dev :=
  let p := d.updHk fun x => { x with pass := x.pass + 1, at_ := 0 }
  p.raise 31 p.hk.pass

/-- After the last entry of a pass the sequence begins again, waits for its period or ends (R253, R257). -/
theorem seqAfter_last {d : Dev} {e : Nat} (h : d.asleep = false) (hs : d.hk.seq = .run) (hl : fld (d.reg 0xA0000) 0 4 ≤ e) :
    ∃ y b o, d.seqAfter e = (passed d).updHk (fun x => { x with seq := y, due := b, overrun := o }) ∧ y ≠ .stopping := by
  have hr : (passed d).hk.seq = .run := by
    unfold passed
    dsimp only
    rw [raise_eq]
    exact hs
  have hu (f : Hk → Hk) : (d.updHk f).asleep = false := h
  unfold Dev.seqAfter
  simp only [hs, h, Bool.false_eq_true, if_false]
  rw [if_neg (Nat.not_lt.mpr hl)]
  simp only [hu, Bool.false_eq_true, if_false]
  generalize hq : Dev.raise _ 31 _ = q
  obtain rfl : passed d = q := hq
  split
  · exact ⟨_, _, _, rfl, by decide⟩
  · split
    · exact ⟨_, _, _, rfl, by rw [hr]; decide⟩
    · exact ⟨_, _, _, rfl, by decide⟩

/-- The sequence after one of its results (R257): it ends, goes on, or completes a pass with event 31. -/
theorem seqAfter_fields (d : Dev) (e : Nat) (h : d.asleep = false) :
    let t := d.seqAfter e
    let last := fld (d.reg 0xA0000) 0 4
    t.phase = d.phase ∧ t.ctx = d.ctx ∧ t.mem = d.mem ∧ t.hk.res = d.hk.res ∧ t.hk.aux = d.hk.aux ∧ t.hk.slot = d.hk.slot ∧
    (∀ k : Fin 64, k ≠ 31 → seqOf t k = seqOf d k) ∧ (d.hk.seq = .stopping → t.hk.seq = .idle) ∧
    (d.hk.seq = .run → last ≤ e → t.hk.seq ≠ .stopping ∧ t.hk.pass = d.hk.pass + 1 ∧ seqOf t 31 = seqOf d 31 + 1) ∧
    (d.hk.seq = .run → e < last → t.hk.seq ≠ .stopping ∧ t.hk.pass = d.hk.pass ∧ t.hk.at_ = e + 1) := by
  intro t last
  have hquiet (k : Fin 64) : seqOf d k = seqOf d k + 0 := (BitVec.add_zero _).symm
  cases hs : d.hk.seq with
  | stopping =>
    have ht : t = d.updHk fun x => { x with seq := .idle } := by
      show Dev.seqAfter d e = _
      unfold Dev.seqAfter
      simp only [hs]
    rw [ht]
    exact ⟨rfl, rfl, rfl, rfl, rfl, rfl, fun _ _ => rfl, fun _ => rfl, nofun, nofun⟩
  | run =>
    by_cases hl : e < last
    · have ht : t = d.updHk fun x => { x with at_ := e + 1 } := by
        show Dev.seqAfter d e = _
        unfold Dev.seqAfter
        simp only [hs, h, Bool.false_eq_true, if_false]
        exact if_pos hl
      rw [ht]
      exact ⟨rfl, rfl, rfl, rfl, rfl, rfl, fun _ _ => rfl, nofun, fun _ h => absurd hl (Nat.not_lt.mpr h),
        fun _ _ => ⟨by show d.hk.seq ≠ _; rw [hs]; decide, rfl, rfl⟩⟩
    · obtain ⟨y, b, o, ht, hy⟩ := seqAfter_last h hs (Nat.not_lt.mp hl)
      have hp : passed d = { d with hk := { d.hk with pass := d.hk.pass + 1, at_ := 0 }, ev := (passed d).ev } := raise_eq _ _ _
      have hk (k : Fin 64) : seqOf (passed d) k = seqOf d k + if k = 31 then 1 else 0 := raise_seq 31 k _ h
      have hk31 : ∀ k : Fin 64, k ≠ 31 → seqOf (passed d) k = seqOf d k := fun k h31 => (hk k).trans (by rw [if_neg h31]; exact BitVec.add_zero _)
      have ht' : t = _ := ht
      rw [ht', hp]
      exact ⟨rfl, rfl, rfl, rfl, rfl, rfl, hk31, nofun, fun _ _ => ⟨hy, rfl, hk 31⟩, fun _ h => absurd h hl⟩
  | wait | idle =>
    have ht : t = d := by
      show Dev.seqAfter d e = _
      unfold Dev.seqAfter
      simp only [hs]
    rw [ht]
    exact ⟨rfl, rfl, rfl, rfl, rfl, rfl, fun _ _ => rfl, nofun, nofun, nofun⟩

/-- What a start in the converter leaves: the results, the slots, the pass and the sources, and a sequence that does not stop (R257, R261). -/
def Started (d t : Dev) : Prop :=
  t = { d with hk := t.hk } ∧ t.hk.res = d.hk.res ∧ t.hk.aux = d.hk.aux ∧ t.hk.slot = d.hk.slot ∧ t.hk.pass = d.hk.pass ∧
  t.hk.at_ = d.hk.at_ ∧ (d.hk.seq ≠ .stopping → t.hk.seq = d.hk.seq)

/-- A conversion's start is such a start. -/
theorem started_startConv (d : Dev) (e : HkEnt) (u : Option (Fin 2)) : Started d (d.startConv e u) := by
  obtain ⟨-, hseq, hslot, -, -, hat, hres, hpass, haux, hd⟩ := startConv_fields d e u
  exact ⟨hd, hres, haux, hslot, hpass, hat, fun _ => hseq⟩

/-- What starts after a conversion (R257, R261). -/
theorem started_hkNext (d : Dev) : Started d d.hkNext := by
  have keep : Started d d := ⟨rfl, rfl, rfl, rfl, rfl, rfl, fun _ => rfl⟩
  unfold Dev.hkNext
  split
  · exact keep
  · split
    · exact started_startConv d _ _
    · exact started_startConv d _ _
    · split
      · obtain ⟨hd, hres, haux, hslot, hpass, hat, hseq⟩ := started_startConv d ⟨d.hk.at_ % 16, Nat.mod_lt _ (by decide)⟩ none
        exact ⟨congrArg (Dev.updHk · fun x => { x with redo := false }) hd, hres, haux, hslot, hpass, hat, hseq⟩
      · split
        · next hs => exact ⟨rfl, rfl, rfl, rfl, rfl, rfl, fun h => absurd hs h⟩
        · exact keep

/-- A result shown and reported, as the next step finds it (R259, R265, R267). -/
theorem reported_fields (P : Part) (d : Dev) (c : Conv) (e : Nat × Int × Bool) (h : d.asleep = false) :
    let r := reported P d c e
    r.asleep = false ∧ r.phase = d.phase ∧ r.ctx = d.ctx ∧ r.mem = d.mem ∧ r.regs = d.regs ∧ r.hk.res = d.hk.res.set c.entry (resWord d e) ∧
    r.hk.aux = d.hk.aux.set c.entry (auxWord c e.1) ∧ r.hk.slot = d.hk.slot ∧ r.hk.pass = d.hk.pass ∧ r.hk.seq = d.hk.seq := by
  obtain ⟨hres, haux, hslot, hpass, hseq, hph, hctx, hmem, hregs, -⟩ := shown_fields P d c e
  obtain ⟨vph, vctx, vmem, vregs, vres, vaux, vslot, vpass, -, vseq⟩ := view_eq (reported_view P d c e h).1
  have hr : (reported P d c e).phase = d.phase := vph.trans hph
  exact ⟨by rwa [Dev.asleep, hr], hr, vctx.trans hctx, vmem.trans hmem, vregs.trans hregs, vres.trans hres, vaux.trans haux,
    vslot.trans hslot, vpass.trans hpass, vseq.trans hseq⟩

/-- After an urgent conversion its slot is free and event 32 is raised (R261). -/
theorem followed_urgent {d : Dev} {c : Conv} {u : Fin 2} (hu : c.urgent = some u) (h : d.asleep = false) :
    let f := followed d c
    f.ctx = d.ctx ∧ f.mem = d.mem ∧ f.phase = d.phase ∧ f.hk = { d.hk with slot := d.hk.slot.set u none } ∧
    ∀ k : Fin 64, seqOf f k = seqOf d k + if k = 32 then 1 else 0 := by
  intro f
  have hf : f = (d.updHk fun x => { x with slot := x.slot.set u none }).raise 32 (place u.val 0 ||| place c.entry.val 4) := by
    show followed d c = _
    unfold followed
    rw [hu]
  have hq (k : Fin 64) : seqOf f k = seqOf d k + if k = 32 then 1 else 0 := by
    rw [hf]
    exact raise_seq 32 k _ h
  refine ⟨?_, ?_, ?_, ?_, hq⟩ <;>
  · rw [hf, raise_eq]
    rfl

/-- After a conversion of the sequence the sequence goes on (R257). -/
theorem followed_sequence {d : Dev} {c : Conv} (hu : c.urgent = none) : followed d c = d.seqAfter c.entry.val := by
  unfold followed
  rw [hu]

/-- The wake that a limit asks for does nothing in a device that runs (14 R326). -/
theorem publishWake_run {P : Part} {d : Dev} (h : (d.resultPublish P).phase = .run) : d.publishWake P = d.resultPublish P := by
  unfold Dev.publishWake
  dsimp only
  rw [wakeSource_none (.inr h)]
  exact ite_self _

/-! ### Values and faults -/

/-- Without a settled reference the conversion ends with its fault (R254). -/
theorem evaluate_refFault (d : Dev) {c : Conv} (h : c.refFault = true) : d.evaluate c = (4, 0, d.tableBad c) := by
  unfold Dev.evaluate
  simp [h]

/-- The code of a VOLT entry: the rounded quotient of R252 within its range, beyond it the nearest code with its fault. -/
theorem evaluate_volt (d : Dev) {c : Conv} {x : HkMeas} (hf : c.refFault = false) (hch : entCh c.cfg < 8) (hw : entWire c.cfg = 0)
    (hr : entRef c.cfg = 0) (hv : entCurve c.cfg = 0) (hm : c.meas = [x]) :
    let code := rdiv (x.vin * 2 ^ fld c.cfg 4 3 * 2 ^ 23) 2500000000
    d.evaluate c = if code = clampCode code then (0, code, false) else (5, clampCode code, false) := by
  intro code
  have hraw : rawCode c.cfg x = code := by
    unfold rawCode inputNv refNv
    rw [hw, hr]
    rfl
  have hbad : d.tableBad c = false := by
    unfold Dev.tableBad
    rw [hv]
    rfl
  have hcode : convCode c.cfg [x] = clampCode code := by rw [convCode, hraw]
  have hcurve : d.curveValue c = some (clampCode code) := by
    unfold Dev.curveValue
    simp only [hv, hm, hcode]
  have hby : byCurrent 0 = false := rfl
  unfold Dev.evaluate
  simp only [hf, hw, hby, hbad, hcode, hcurve, hm, List.any_cons, List.any_nil, hraw]
  by_cases h : code = clampCode code
  · simp [← h, Nat.not_le.mpr hch]
  · simp [h, Nat.not_le.mpr hch]

/-! ### The obligation -/

/-- What a published result shows (R259, R261, R265). -/
theorem published_effect (P : Part) {d : Dev} {c : Conv} (hp : d.phase = .run) :
    let e := d.evaluate c
    let t := (followed (reported P d c e) c).hkNext
    t.phase = .run ∧ t.hk.res = d.hk.res.set c.entry (resWord d e) ∧ (∀ k : HkEnt, k ≠ c.entry → t.hk.aux[k] = d.hk.aux[k]) ∧ t.ctx = d.ctx ∧ sameBytes d t ∧
    (e.1 ≠ 0 → seqOf t 33 = seqOf d 33 + 1) ∧ (e.1 = 0 → seqOf t 33 = seqOf d 33) ∧
    (∀ u, c.urgent = some u → t.hk.slot = d.hk.slot.set u none ∧ seqOf t 32 = seqOf d 32 + 1 ∧ t.hk.pass = d.hk.pass) ∧
    (c.urgent = none → t.hk.slot = d.hk.slot ∧ seqOf t 32 = seqOf d 32 ∧ (d.hk.seq = .stopping → t.hk.seq = .idle) ∧
      (d.hk.seq = .run → fld (d.reg 0xA0000) 0 4 ≤ c.entry.val → t.hk.pass = d.hk.pass + 1 ∧ seqOf t 31 = seqOf d 31 + 1) ∧
      (d.hk.seq = .run → c.entry.val < fld (d.reg 0xA0000) 0 4 → t.hk.pass = d.hk.pass ∧ t.hk.at_ = c.entry.val + 1)) := by
  intro e t
  have ha : d.asleep = false := by simp [Dev.asleep, hp]
  obtain ⟨ra, rph, rctx, rmem, rregs, rres, raux, rslot, rpass, rseq⟩ := reported_fields P d c e ha
  have rq := (reported_view P d c e ha).2
  generalize hr : reported P d c e = r at *
  obtain ⟨hd, hres, haux, hslot, hpass, hat, hseq⟩ := started_hkNext (followed r c)
  have ht : t = (followed r c).hkNext := by rw [← hr]
  clear_value t
  subst ht
  have h33 : e.1 ≠ 0 → seqOf r 33 = seqOf d 33 + 1 := fun h => (rq 33 (by decide)).trans (by rw [if_pos ⟨rfl, h⟩])
  have h33' : e.1 = 0 → seqOf r 33 = seqOf d 33 := fun h => (rq 33 (by decide)).trans (by rw [if_neg (fun h' => h'.2 h)]; exact BitVec.add_zero _)
  have h32 : seqOf r 32 = seqOf d 32 := (rq 32 (by decide)).trans (BitVec.add_zero _)
  have h31 : seqOf r 31 = seqOf d 31 := (rq 31 (by decide)).trans (BitVec.add_zero _)
  have hset (k : HkEnt) (hk : k ≠ c.entry) : r.hk.aux[k] = d.hk.aux[k] := by
    rw [raux]
    exact Vector.getElem_set_ne _ _ (fun h => hk (Fin.ext h.symm))
  have hctx : (followed r c).hkNext.ctx = (followed r c).ctx := by rw [hd]
  have hph : (followed r c).hkNext.phase = (followed r c).phase := by rw [hd]
  have hmem : (followed r c).hkNext.mem = (followed r c).mem := by rw [hd]
  have hev (k : Fin 64) : seqOf (followed r c).hkNext k = seqOf (followed r c) k := by rw [hd]; rfl
  clear hd hr
  cases hu : c.urgent with
  | some u =>
    obtain ⟨fctx, fmem, fph, fhk, fq⟩ := followed_urgent hu ra
    generalize followed r c = f at *
    rw [fhk] at hres haux hslot hpass
    refine ⟨hph.trans (fph.trans (rph.trans hp)), hres.trans rres, fun k hk => ?_,
      hctx.trans (fctx.trans rctx), fun a => ?_, fun h => ?_, fun h => ?_, fun v hv => ?_, nofun⟩
    · rw [haux]
      exact hset k hk
    · rw [Dev.byte, hmem, fmem, rmem, Dev.byte]
    · rw [hev, fq, if_neg (by decide), h33 h]
      exact BitVec.add_zero _
    · rw [hev, fq, if_neg (by decide), h33' h]
      exact BitVec.add_zero _
    · obtain rfl : u = v := Option.some.inj hv
      exact ⟨hslot.trans (by rw [rslot]), (hev 32).trans ((fq 32).trans (by rw [h32, if_pos rfl])), hpass.trans rpass⟩
  | none =>
    obtain ⟨sph, sctx, smem, sres, saux, sslot, sq, sstop, slast, snext⟩ := seqAfter_fields r c.entry.val ra
    rw [followed_sequence hu] at *
    generalize r.seqAfter c.entry.val = f at *
    have hreg : r.reg 0xA0000 = d.reg 0xA0000 := by rw [Dev.reg, rregs, Dev.reg]
    rw [rseq, hreg, rpass] at slast snext
    refine ⟨hph.trans (sph.trans (rph.trans hp)), hres.trans (sres.trans rres), fun k hk => ?_,
      hctx.trans (sctx.trans rctx), fun a => ?_, fun h => ?_, fun h => ?_, nofun, fun _ => ?_⟩
    · rw [haux, saux]
      exact hset k hk
    · rw [Dev.byte, hmem, smem, rmem, Dev.byte]
    · rw [hev, sq 33 (by decide), h33 h]
    · rw [hev, sq 33 (by decide), h33' h]
    · refine ⟨hslot.trans (sslot.trans rslot), (hev 32).trans ((sq 32 (by decide)).trans h32), fun h => ?_, fun h hl => ?_, fun h hl => ?_⟩
      · have hi := sstop (rseq.trans h)
        exact (hseq (by rw [hi]; decide)).trans hi
      · obtain ⟨-, hp1, hs1⟩ := slast h hl
        exact ⟨hpass.trans hp1, (hev 31).trans (hs1.trans (by rw [h31]))⟩
      · obtain ⟨-, hp1, ha1⟩ := snext h hl
        exact ⟨hpass.trans hp1, hat.trans ha1⟩

/-- A publication completes as the state of the result says (R259). -/
theorem resultPublish_completes {s : State} (hp : s.dev.phase = .run) (hk : s.part.hkin ≠ 0) {t : Dev} (h : s.dev.resultPublish s.part = t)
    (ht : t.phase = .run) : Completes .resultPublish s t := by
  refine (publishWake_run (P := s.part) (h ▸ ht)).trans h ▸ hkStep_completes (f := fun P d => d.publishWake P) rfl ?_ hk
  simp [Dev.up, hp]

/-- The end of an integration keeps what it met; the first of a 3-wire conversion exchanges the sources (R254). -/
theorem integrationEnd_effect {d : Dev} {c : Conv} (x : HkMeas) (hc : d.hk.conv = some c) (hs : c.stage = .integrate) :
    let y := { c with meas := c.meas ++ [x], cj := d.pwr.dieTemp.toInt }
    d.integrationEnd x = { d with hk := { d.hk with
      conv := some (if entWire c.cfg = 2 ∧ !c.phaseB then { y with phaseB := true, stage := .settle } else { y with stage := .comp }) } } := by
  unfold Dev.integrationEnd Dev.updHk
  simp only [hc]
  exact if_pos hs

/-- A step of the converter completes with its effect. -/
theorem hkStep_effect {i : Instr} {s : State} {f : Part → Dev → Dev} {t : Dev} (h : exec i s = hkStep f s) (hup : s.dev.up = true)
    (hk : s.part.hkin ≠ 0) (ht : f s.part s.dev = t) : Completes i s t := ht ▸ hkStep_completes h hup hk

/-- Settles O45: the converter's steps by their own lemmas; a published result as what is shown, what follows it and what starts next. -/
theorem housekeepingConversion : Obligations.HousekeepingConversion := by
  intro s c x hp hk hc d hk' set e word seq repeats
  have hup : s.dev.up = true := by simp [Dev.up, hp]
  refine ⟨hkStep_completes (f := fun _ d => d.hkRefSettled) rfl hup hk, fun hs => ⟨fun hr => ?_, fun hr => ?_⟩, fun hs => ⟨fun h => ?_, fun h => ?_⟩,
    fun hs => ⟨fun hr => ?_, fun hr hw => ?_, fun hr hw hk0 => ?_⟩, evaluate_refFault d, fun hf hch hw hr hv hm => ?_⟩
  · refine hkStep_effect (f := fun _ d => d.integrationStart) rfl hup hk ?_
    show Dev.integrationStart d = _
    unfold Dev.integrationStart Dev.updHk
    simp only [show d.hk.conv = _ from hc]
    exact if_pos ⟨hs, hr⟩
  · refine hkStep_effect (f := fun _ d => d.hkRefUnsettled) rfl hup hk ?_
    show Dev.hkRefUnsettled d = _
    unfold Dev.hkRefUnsettled Dev.updHk
    simp only [show d.hk.conv = _ from hc]
    exact if_pos ⟨hs, by simpa using hr⟩
  · refine hkStep_effect (f := fun _ d => d.integrationEnd x) rfl hup hk ((integrationEnd_effect x hc hs).trans ?_)
    rw [if_pos ⟨h.1, by simp [h.2]⟩]
  · refine hkStep_effect (f := fun _ d => d.integrationEnd x) rfl hup hk ((integrationEnd_effect x hc hs).trans ?_)
    rw [if_neg fun h' => h.elim (fun h => h h'.1) fun h => by simp [h] at h']
  · exact resultPublish_completes hp hk (resultPublish_again hc hs hr) hp
  · exact resultPublish_completes hp hk (resultPublish_waits hp hc hs hr hw) hp
  · obtain ⟨hph, h⟩ := published_effect s.part (d := s.dev) (c := c) hp
    exact ⟨_, resultPublish_completes hp hk (resultPublish_shown hp hc hs hr hw hk0) hph, h⟩
  · have he := evaluate_volt d hf hch hw hr hv hm
    intro code
    refine ⟨fun h1 h2 => ?_, fun h => ?_, fun h => ?_⟩
    · exact he.trans (if_pos (by unfold clampCode clampI; omega))
    · refine he.trans ((if_neg (by unfold clampCode clampI; omega)).trans ?_)
      rw [show clampCode _ = 8388607 by unfold clampCode clampI; omega]
    · refine he.trans ((if_neg (by unfold clampCode clampI; omega)).trans ?_)
      rw [show clampCode _ = -8388607 by unfold clampCode clampI; omega]

end Sys2Proof.Proofs.HkConversion
end

section
/-!
STANDBY: the request, the entry, its abandonment, the wake and the kept housekeeping results (14 R323 to R328, 11 R274).
-/
namespace Sys2Proof.Proofs.Standby

open Sys2Proof.Machine Sys2Proof.Laws Sys2Proof.Proofs.Scope Sys2Proof.Proofs.Interconnect Sys2Proof.Proofs.LinkFrame Sys2Proof.Proofs.Raise Sys2Proof.Proofs.Words
  Sys2Proof.Proofs.HkSequence Sys2Proof.Proofs.HkConversion

/-! ### Kept results after the wake -/

/-- A device whose crossings, converter and pixel pipeline alone differ from another's. -/
def HkFrame (d t : Dev) : Prop := t = { d with fifo := t.fifo, free := t.free, hk := t.hk, pix := t.pix }

theorem HkFrame.trans {d e t : Dev} (h : HkFrame d e) (h' : HkFrame e t) : HkFrame d t := by
  unfold HkFrame at *
  rw [h'] at ⊢
  rw [h]

/-- The entries of the crossing that shows results (01 R25). -/
def resUsed (d : Dev) : Nat := d.crossUsed 7

/-- They are those still on their way. -/
theorem resUsed_eq (d : Dev) : resUsed d = ((d.fifo[(7 : Fin 9)]).filter fun t => decide (d.cycle < t)).length := rfl

/-- It has room for four (01 R25). -/
theorem crossRoom_res (d : Dev) : d.crossRoom 7 = decide (resUsed d < 4) := rfl

/-- An entry taken in that crossing counts at once. -/
theorem resUsed_cross (d : Dev) : resUsed (d.cross 7) = resUsed d + 1 := by
  have hf : (d.cross 7).fifo[(7 : Fin 9)] = ((d.fifo[(7 : Fin 9)]).filter fun t => decide (d.cycle < t)) ++
      [d.cycle + 1 + Config.crossTime d.free % crossMost 7] := upd_get_self d.fifo 7 _
  have hc : (d.cross 7).cycle = d.cycle := rfl
  rw [resUsed_eq, resUsed_eq, hf, hc, List.filter_append, List.filter_filter, List.length_append]
  simp [show d.cycle < d.cycle + 1 + Config.crossTime d.free % crossMost 7 by omega]

/-- A result that is shown takes an entry of its crossing, and leaves the pass and the kept results (R259). -/
theorem resVisible_frame (d : Dev) (e : HkEnt) (res aux : Word) :
    let t := d.resVisible e res aux
    HkFrame d t ∧ t.hk.pass = d.hk.pass ∧ t.hk.kept = d.hk.kept ∧ resUsed t = resUsed d + 1 := by
  intro t
  have h : HkFrame d t ∧ t.hk.pass = d.hk.pass ∧ t.hk.kept = d.hk.kept ∧ t.fifo = (d.cross 7).fifo ∧ t.cycle = d.cycle := by
    show HkFrame d (d.resVisible ..) ∧ (d.resVisible ..).hk.pass = _ ∧ (d.resVisible ..).hk.kept = _ ∧ (d.resVisible ..).fifo = _ ∧
      (d.resVisible ..).cycle = _
    unfold Dev.resVisible Dev.resNote
    dsimp only [Dev.updHk]
    split
    · split <;> exact ⟨rfl, rfl, rfl, rfl, rfl⟩
    · exact ⟨rfl, rfl, rfl, rfl, rfl⟩
  obtain ⟨hf, hpass, hkept, hfifo, hcyc⟩ := h
  refine ⟨hf, hpass, hkept, ?_⟩
  rw [← resUsed_cross, resUsed_eq, resUsed_eq, hfifo, hcyc]
  rfl

/-- A result of STANDBY as it is shown after the wake (R274). -/
def wokenWord (d : Dev) (r : Word) : Word := putFld r 24 3 (d.hk.pass.toNat % 8) ||| 0x40000000

/-- A kept result waits while its crossing has no room, and is shown otherwise (R274, 01 R25). -/
theorem hkKept1_fields (P : Part) (d : Dev) (e : HkEnt) :
    let t := d.hkKept1 P e
    HkFrame d t ∧ t.hk.pass = d.hk.pass ∧ (d.hk.kept[e] = none ∨ 4 ≤ resUsed d → t = d) ∧
    (∀ r a, d.hk.kept[e] = some (r, a) → resUsed d < 4 → resUsed t = resUsed d + 1 ∧ t.hk.kept = d.hk.kept.set e none ∧
      t.hk.res = d.hk.res.set e (wokenWord d r) ∧ t.hk.aux = d.hk.aux.set e a) := by
  cases hk : d.hk.kept[e] with
  | none =>
    have ht : d.hkKept1 P e = d := by
      unfold Dev.hkKept1
      rw [hk]
    rw [ht]
    exact ⟨rfl, rfl, fun _ => rfl, nofun⟩
  | some ra =>
    obtain ⟨r, a⟩ := ra
    by_cases hr : 4 ≤ resUsed d
    · have ht : d.hkKept1 P e = d := by
        unfold Dev.hkKept1
        rw [hk]
        exact if_neg (by simpa [crossRoom_res] using hr)
      rw [ht]
      exact ⟨rfl, rfl, fun _ => rfl, fun _ _ _ h => absurd hr (Nat.not_le.mpr h)⟩
    · let v := d.resVisible e (wokenWord d r) a
      have ht : d.hkKept1 P e = (v.updHk fun x => { x with kept := x.kept.set e none }).shadeResult P e (d.hkEnt e) (bit r 31) (sfld r 0 24) := by
        unfold Dev.hkKept1
        rw [hk]
        exact if_pos (by simpa [crossRoom_res] using hr)
      obtain ⟨hf, hpass, hkept, hused⟩ := resVisible_frame d e (wokenWord d r) a
      obtain ⟨hres, haux, -⟩ := resVisible_fields d e (wokenWord d r) a
      rw [ht, shadeResult_pix]
      refine ⟨hf.trans rfl, hpass, fun h => (h.elim (by simp) (absurd · hr)), fun r' a' he _ => ?_⟩
      obtain ⟨rfl, rfl⟩ := Prod.mk.inj (Option.some.inj he)
      exact ⟨hused, congrArg (Vector.set · e none) hkept, hres, haux⟩

/-- An entry that shows and keeps the same. -/
def SameEntry (d t : Dev) (e : HkEnt) : Prop := t.hk.kept[e] = d.hk.kept[e] ∧ t.hk.res[e] = d.hk.res[e] ∧ t.hk.aux[e] = d.hk.aux[e]

theorem SameEntry.trans {d v t : Dev} {e : HkEnt} (h : SameEntry d v e) (h' : SameEntry v t e) : SameEntry d t e :=
  ⟨h'.1.trans h.1, h'.2.1.trans h.2.1, h'.2.2.trans h.2.2⟩

/-- A kept result leaves the other entries. -/
theorem hkKept1_other (P : Part) (d : Dev) {e k : HkEnt} (h : k ≠ e) : SameEntry d (d.hkKept1 P e) k := by
  obtain ⟨-, -, hsame, hshow⟩ := hkKept1_fields P d e
  by_cases hw : d.hk.kept[e] = none ∨ 4 ≤ resUsed d
  · rw [hsame hw]
    exact ⟨rfl, rfl, rfl⟩
  · rw [not_or, Nat.not_le] at hw
    obtain ⟨⟨r, a⟩, hk⟩ := Option.ne_none_iff_exists'.mp hw.1
    obtain ⟨-, hkept, hres, haux⟩ := hshow r a hk hw.2
    have hne : e.val ≠ k.val := fun h' => h (Fin.ext h'.symm)
    rw [SameEntry, hkept, hres, haux]
    exact ⟨Vector.getElem_set_ne _ _ hne, Vector.getElem_set_ne _ _ hne, Vector.getElem_set_ne _ _ hne⟩

/-- The entries of a list before one of it whose results are kept. -/
def keptBefore (d : Dev) (l : List HkEnt) (e : HkEnt) : Nat := (l.filter fun k => decide (k < e) && (d.hk.kept[k]).isSome).length

/-- The kept results of rising entries are shown in their order as far as the crossing has room (R274, 01 R25). -/
theorem hkKept_foldl (P : Part) (l : List HkEnt) : l.Pairwise (· < ·) → ∀ d : Dev,
    let t := l.foldl (fun d e => d.hkKept1 P e) d
    HkFrame d t ∧ t.hk.pass = d.hk.pass ∧ (∀ e, e ∉ l ∨ d.hk.kept[e] = none → SameEntry d t e) ∧
    ∀ e r a, e ∈ l → d.hk.kept[e] = some (r, a) →
      (keptBefore d l e + resUsed d < 4 → t.hk.kept[e] = none ∧ t.hk.res[e] = wokenWord d r ∧ t.hk.aux[e] = a) ∧
      (4 ≤ keptBefore d l e + resUsed d → SameEntry d t e) := by
  induction l with
  | nil => exact fun _ d => ⟨rfl, rfl, fun _ _ => ⟨rfl, rfl, rfl⟩, nofun⟩
  | cons x xs ih =>
    intro hl d t
    obtain ⟨hx, hxs⟩ := List.pairwise_cons.mp hl
    obtain ⟨f1, p1, same1, show1⟩ := hkKept1_fields P d x
    obtain ⟨f2, p2, same2, show2⟩ := ih hxs (d.hkKept1 P x)
    have hxm : x ∉ xs := fun h => lt_irrefl x (hx x h)
    have hother {k : HkEnt} (hk : k ≠ x) : SameEntry d (d.hkKept1 P x) k := hkKept1_other P d hk
    have hstill (h : d.hk.kept[x] = none ∨ 4 ≤ resUsed d) : SameEntry d (d.hkKept1 P x) x := by
      rw [same1 h]
      exact ⟨rfl, rfl, rfl⟩
    have hword (r : Word) : wokenWord (d.hkKept1 P x) r = wokenWord d r := by rw [wokenWord, p1, wokenWord]
    refine ⟨f1.trans f2, p2.trans p1, fun e he => ?_, fun e r a he hk => ?_⟩
    · by_cases hex : e = x
      · have hn : d.hk.kept[x] = none := by simpa [hex] using he
        rw [hex]
        exact (hstill (.inl hn)).trans (same2 x (.inl hxm))
      · exact (hother hex).trans (same2 e (he.imp (fun h hm => h (List.mem_cons_of_mem x hm)) fun h => (hother hex).1.trans h))
    · by_cases hex : e = x
      · subst hex
        have hb : keptBefore d (e :: xs) e = 0 := by
          unfold keptBefore
          rw [List.length_eq_zero_iff, List.filter_eq_nil_iff]
          intro k hk h
          have hlt : k < e := of_decide_eq_true (Bool.and_eq_true_iff.mp h).1
          exact (List.mem_cons.mp hk).elim (fun h => lt_irrefl e (h ▸ hlt)) fun h => lt_asymm hlt (hx k h)
        obtain ⟨h2k, h2r, h2a⟩ := same2 e (.inl hxm)
        rw [hb, Nat.zero_add]
        refine ⟨fun hr => ?_, fun hr => ?_⟩
        · obtain ⟨-, hkept, hres, haux⟩ := show1 r a hk hr
          exact ⟨h2k.trans (by rw [hkept]; exact Vector.getElem_set_self _), h2r.trans (by rw [hres]; exact Vector.getElem_set_self _),
            h2a.trans (by rw [haux]; exact Vector.getElem_set_self _)⟩
        · exact (hstill (.inr hr)).trans ⟨h2k, h2r, h2a⟩
      · have hes : e ∈ xs := (List.mem_cons.mp he).resolve_left hex
        have hb : keptBefore d (x :: xs) e = keptBefore (d.hkKept1 P x) xs e + if (d.hk.kept[x]).isSome then 1 else 0 := by
          have hf : (xs.filter fun k => decide (k < e) && (d.hk.kept[k]).isSome) =
              xs.filter fun k => decide (k < e) && ((d.hkKept1 P x).hk.kept[k]).isSome :=
            List.filter_congr fun k hk => by rw [(hother fun h => hxm (h ▸ hk)).1]
          unfold keptBefore
          rw [List.filter_cons, hf]
          cases (d.hk.kept[x]).isSome
          · simp
          · simp [hx e hes]
        obtain ⟨hshow, hsame⟩ := show2 e r a hes ((hother hex).1.trans hk)
        have hcount : keptBefore (d.hkKept1 P x) xs e + resUsed (d.hkKept1 P x) < 4 ↔ keptBefore d (x :: xs) e + resUsed d < 4 := by
          rw [hb]
          cases hkx : d.hk.kept[x] with
          | none =>
            rw [same1 (.inl hkx)]
            simp
          | some ra =>
            by_cases hr : 4 ≤ resUsed d
            · rw [same1 (.inr hr)]
              simp
              omega
            · rw [(show1 ra.1 ra.2 hkx (Nat.not_le.mp hr)).1]
              simp
              omega
        exact ⟨fun h => hword r ▸ hshow (hcount.mpr h), fun h => (hother hex).trans (hsame (by omega))⟩

/-! ### The request -/

/-- The conditions that refuse STANDBY, in the order of their codes (14 R323). -/
def refusals (P : Part) (d : Dev) : List Bool :=
  [decide (d.hng.st ≠ .off), decide (∃ k : DmaId, dmaPresent P k = true ∧ (d.dma[k]).st ≠ .idle),
    decide (∃ p : PortId, bit (d.portReg p 0) 0 = true ∨ (d.port[p]).disPend = true), d.motBusy 0 || d.motBusy 1, d.pwr.nvmOp.isSome,
    d.wdt.attached, d.wakeNow]

/-- The first of seven conditions that holds, by its place. -/
theorem firstOf_seven : ∀ b1 b2 b3 b4 b5 b6 b7 : Bool,
    (if b1 then 1 else if b2 then 2 else if b3 then 3 else if b4 then 4 else if b5 then 5 else if b6 then 6 else if b7 then 7 else 0) =
      (if [b1, b2, b3, b4, b5, b6, b7].findIdx id + 1 ≤ 7 then [b1, b2, b3, b4, b5, b6, b7].findIdx id + 1 else 0) := by
  decide

/-- STANDBY is refused with the code of the first condition that fails (14 R323). -/
theorem standbyRefusal_eq (P : Part) (d : Dev) :
    d.standbyRefusal P = if (refusals P d).findIdx id + 1 ≤ 7 then (refusals P d).findIdx id + 1 else 0 := by
  have h2 : ((List.finRange 16).any fun n => dmaPresent P n && (d.dma[n]).st != .idle) =
      decide (∃ k : DmaId, dmaPresent P k = true ∧ (d.dma[k]).st ≠ .idle) := by
    rw [Bool.eq_iff_iff]
    simp [-Fin.getElem_fin]
  have h3 : ((List.finRange 4).any fun p => bit (d.portReg p 0) 0 || (d.port[p]).disPend) =
      decide (∃ p : PortId, bit (d.portReg p 0) 0 = true ∨ (d.port[p]).disPend = true) := by
    rw [Bool.eq_iff_iff]
    simp [-Fin.getElem_fin]
  unfold refusals
  rw [← firstOf_seven]
  unfold Dev.standbyRefusal
  rw [h2, h3]
  simp only [decide_eq_true_eq]

/-- With empty store buffers nothing is drained (04 R400). -/
theorem drainAll_empty {P : Part} {d : Dev} (h : ∀ k : CtxId, (d.ctx[k]).sbuf = []) : d.drainAll P = d :=
  List.foldl_fixed' (fun k => by rw [h k]; rfl) _

/-- Accepting the beats that engines have put out leaves the registers and the links. -/
theorem lateAll_regs (P : Part) (d : Dev) : (d.lateAll P).regs = d.regs ∧ (d.lateAll P).kl = d.kl := by
  unfold Dev.lateAll
  exact ⟨foldl_keeps (fun d => d.regs) _ (fun _ _ => by simp) _ _, foldl_keeps (fun d => d.kl) _ (fun _ _ => by simp) _ _⟩

/-- With trace off and no link ACTIVE an entry waits for nothing (14 R324, R351). -/
theorem entryGo_quiet {P : Part} {d : Dev} (hp : d.phase = .entering) (hs : d.pwr.suspDue = true) (hq : bit (d.reg 0xF0000) 0 = false)
    (hl : ∀ k : LinkId, (d.kl.links[k]).st ≠ .active) : d.entryGo P = { d with pwr := { d.pwr with suspDue := false, deepWait := [] } } := by
  have hf : ((List.finRange 3).filter fun k => (d.kl.links[k]).st == .active) = [] :=
    List.filter_eq_nil_iff.mpr fun k _ h => hl k (beq_iff_eq.mp h)
  unfold Dev.entryGo
  rw [if_pos ⟨hp, hs⟩, trcSuspend_off hq]
  dsimp only
  rw [hf]
  rfl

/-- An accepted entry with trace off and no link ACTIVE writes no packet and waits for no link (14 R324). -/
theorem standbyReq_accepted {P : Part} {d : Dev} (h : d.standbyRefusal P = 0) (hq : bit (d.reg 0xF0000) 0 = false)
    (hs : ∀ k : CtxId, (d.ctx[k]).sbuf = []) (hl : ∀ k : LinkId, (d.kl.links[k]).st ≠ .active) :
    d.standbyReq P = (true, { d.lateAll P with phase := .entering, pwr := { d.pwr with deepWait := [], suspDue := false } }) := by
  obtain ⟨hregs, hkl⟩ := lateAll_regs P d
  obtain ⟨-, -, hpwr⟩ := lateAll_fields P d
  unfold Dev.standbyReq
  dsimp only
  rw [if_neg (by simp [h]), drainAll_empty hs, entryGo_quiet rfl rfl]
  · show (true, { d.lateAll P with phase := Phase.entering, pwr := { (d.lateAll P).pwr with suspDue := false, deepWait := [] } }) = _
    rw [hpwr]
  · show bit (tabGet _ (d.lateAll P).regs _) 0 = false
    rw [hregs]
    exact hq
  · show ∀ k : LinkId, ((d.lateAll P).kl.links[k]).st ≠ _
    rw [hkl]
    exact hl

/-- A context in S privilege comes to the body of its command (04 R114). -/
theorem supInsn_of (s : State) (c : CtxId) (w : Word) (f : Dev → Dev) (h : s.issues c) (hp : (s.dev.ctx[c]).priv = true) :
    s.dev.supInsn s.part c true w f = f (s.issued c) := by
  unfold Dev.supInsn
  exact (issueWhen_of s c w _ _ h (Bool.true_or _)).trans (if_pos (by simp [-Fin.getElem_fin, hp]))

/-! ### The entry -/

/-- The entry to STANDBY leaves every byte outside LS (14 R325). -/
theorem memGet_loseLs (m : Mem) {a : Nat} (h : a < 0x2000000 ∨ 0x2300000 ≤ a) : memGet m.loseLs a = memGet m a := by
  have hd : memDflt m.loseLs a = memDflt m a := by
    unfold memDflt Mem.loseLs Mem.keep
    dsimp only
    rw [if_neg (show ¬ (0x2000000 ≤ a ∧ a < 0x2300000) by omega), if_neg (show ¬ (0x2000000 ≤ a ∧ a < 0x2300000) by omega)]
  unfold memGet
  rw [hd]
  unfold Mem.loseLs Mem.keep
  dsimp only
  exact tabGet_filter _ (fun a => decide (a < 0x2000000 ∨ 0x2300000 ≤ a)) (decide_eq_true h) _

/-- The addresses of LS are those of its region (00 R9). -/
theorem outside_ls {P : Part} {a : Nat} (h1 : regionOf P a ≠ .ls) (h2 : regionOf P a ≠ .lsAbsent) : a < 0x2000000 ∨ 0x2300000 ≤ a := by
  by_contra hc
  have hl := lsBytes_le P
  unfold regionOf at h1 h2
  rw [if_neg (by omega), if_neg (by omega)] at h1 h2
  split at h1
  · exact h1 rfl
  · rw [if_neg (by assumption), if_pos (by omega)] at h2
    exact h2 rfl

/-- What the entry to STANDBY changes, once SUSPEND is written and every link is in DEEP (14 R324, R325). -/
theorem standbyEntry_effect {P : Part} {d : Dev} (hp : d.phase = .entering) (hs : d.pwr.suspDue = false) (hw : d.pwr.deepWait = []) :
    let t := d.standbyEntry P
    t.phase = .standby ∧ t.pwr = { d.pwr with sEntry := d.stb, aonEdges := 0 } ∧ t.kl = { d.kl with pll := false } ∧
    (∀ a, regionOf P a ≠ .ls → regionOf P a ≠ .lsAbsent → t.byte a = d.byte a) ∧ t.hk.res = d.hk.res ∧
    (∀ k : Fin 256, t.ls.slots[k] = { d.ls.slots[k] with st := .free, hold := 0 }) ∧
    t.ls = { d.ls with slots := t.ls.slots, lowArmed := t.ls.lowArmed } ∧ (∀ k : DmaId, t.dma[k] = { d.dma[k] with list := [] }) ∧
    t = { d with
      phase := t.phase, pwr := t.pwr, kl := t.kl, hk := t.hk, ls := t.ls, dma := t.dma, mem := t.mem, ecc := t.ecc
      cas := { d.cas with lholdKept := d.lholdPulled P } } := by
  let e : Dev := { d with
    phase := .standby, mem := d.mem.loseLs, ecc := d.ecc.filter (fun c => !(regionOf P c.1 == .ls || regionOf P c.1 == .lsAbsent))
    pwr := { d.pwr with sEntry := d.stb, aonEdges := 0 }, kl := { d.kl with pll := false }, cas := { d.cas with lholdKept := d.lholdPulled P } }
  have ht : d.standbyEntry P = e.emptySlots.hkStandby := by
    unfold Dev.standbyEntry
    exact if_pos ⟨hp, by simp [hs], hw⟩
  have hh : e.emptySlots.hkStandby = { e.emptySlots with hk := e.emptySlots.hkStandby.hk } ∧ e.emptySlots.hkStandby.hk.res = d.hk.res := by
    unfold Dev.hkStandby
    obtain ⟨h1, h2, -⟩ := started_hkNext (e.emptySlots.updHk fun x => { x with
      conv := none, slot := Vector.replicate 2 none, crossing := [], at_ := 0, redo := false, due := false, kept := Vector.replicate 16 none
      seq := if bit (e.emptySlots.reg 0xA0000) 7 then .run else .idle })
    exact ⟨h1, h2⟩
  obtain ⟨hf, hres⟩ := hh
  intro t
  have ht' : t = { e.emptySlots with hk := t.hk } := by
    show d.standbyEntry P = { e.emptySlots with hk := (d.standbyEntry P).hk }
    rw [ht]
    exact hf
  have hr : t.hk.res = d.hk.res := by
    show (d.standbyEntry P).hk.res = _
    rw [ht]
    exact hres
  clear_value t
  rw [ht']
  refine ⟨rfl, rfl, rfl, fun a h1 h2 => memGet_loseLs d.mem (outside_ls h1 h2), hr, fun k => ?_, rfl, fun k => ?_, rfl⟩
  · exact Vector.getElem_map _ _
  · exact Vector.getElem_map _ _

/-! ### The wake -/

/-- RESUME and SYNC leave the converter, its crossings and the cycle (14 R351). -/
theorem traceResume_hk (P : Part) (d : Dev) : (d.traceResume P).hk = d.hk ∧ (d.traceResume P).fifo = d.fifo ∧ (d.traceResume P).cycle = d.cycle ∧
    (d.traceResume P).stb = d.stb := by
  unfold Dev.traceResume
  simp

/-- Asserted events change the fabric, and neither the held ones nor what the destinations have still to see (05 R117). -/
theorem foldl_assert (l : List (Fin 64 × Word)) : ∀ d : Dev, let t := l.foldl (fun d h => d.assert h.1 h.2) d
    t = { d with ev := t.ev } ∧ t.ev.held = d.ev.held ∧ t.ev.resync = d.ev.resync := by
  induction l with
  | nil => exact fun d => ⟨rfl, rfl, rfl⟩
  | cons x xs ih =>
    intro d t
    obtain ⟨h1, h2, h3⟩ := ih (d.assert x.1 x.2)
    have h4 : (d.assert x.1 x.2).ev.held = d.ev.held ∧ (d.assert x.1 x.2).ev.resync = d.ev.resync ∧
        d.assert x.1 x.2 = { d with ev := (d.assert x.1 x.2).ev } := by
      unfold Dev.assert Dev.assertBy
      dsimp only
      split <;> exact ⟨rfl, rfl, rfl⟩
    obtain ⟨hh, hr, he⟩ := h4
    refine ⟨?_, h2.trans hh, h3.trans hr⟩
    show xs.foldl _ (d.assert x.1 x.2) = { d with ev := (xs.foldl _ (d.assert x.1 x.2)).ev }
    rw [h1]
    generalize Dev.ev (List.foldl _ _ _) = e
    rw [he]

/-- RESUME and SYNC leave the fabric (14 R351). -/
theorem traceResume_ev (P : Part) (d : Dev) : (d.traceResume P).ev = d.ev := by
  unfold Dev.traceResume
  simp

/-- The device with STB reloaded, as its links are woken (14 R327). -/
def reloaded (d : Dev) (n : Nat) : Dev :=
  { d with
    phase := .run, stb := (stbReloaded d.pwr.sEntry d.pwr.frac n).1
    pwr := { d.pwr with frac := (stbReloaded d.pwr.sEntry d.pwr.frac n).2, slept := nword n } }

/-- The device with its links woken and its RESUME packet (14 R327, R351). -/
def resumed (P : Part) (d : Dev) (n : Nat) : Dev := Dev.traceResume P (Dev.wakeLinks (reloaded d n))

/-- What the wake leaves and shows at once (14 R327). -/
theorem resumed_fields (P : Part) (d : Dev) (n : Nat) :
    let t := resumed P d n
    t.phase = .run ∧ t.stb = (stbReloaded d.pwr.sEntry d.pwr.frac n).1 ∧ t.pwr.frac = (stbReloaded d.pwr.sEntry d.pwr.frac n).2 ∧
    t.pwr.slept = nword n ∧ t.pwr.sEntry = d.pwr.sEntry ∧ t.ev = d.ev ∧ t.hk = d.hk ∧ t.fifo = d.fifo ∧ t.cycle = d.cycle ∧
    t.ctx = d.ctx ∧ t.mem = d.mem := by
  have hw : LinkOnly (reloaded d n) (reloaded d n).wakeLinks := linkOnly_wakeLinks _
  obtain ⟨hp, -, hc, hm, -⟩ := traceResume_fields P (reloaded d n).wakeLinks
  obtain ⟨hh, hf, hy, hs⟩ := traceResume_hk P (reloaded d n).wakeLinks
  have he := traceResume_ev P (reloaded d n).wakeLinks
  have hu := traceResume_untraced P (reloaded d n).wakeLinks
  have h1 := congrArg Pwr.frac hu
  have h2 := congrArg Pwr.slept hu
  have h3 := congrArg Pwr.sEntry hu
  simp only [untraced] at h1 h2 h3
  unfold LinkOnly at hw
  unfold resumed
  dsimp only
  rw [hp, hc, hm, hh, hf, hy, hs, he, h1, h2, h3, hw]
  exact ⟨rfl, rfl, rfl, rfl, rfl, rfl, rfl, rfl, rfl, rfl, rfl⟩

/-- The device with the held events delivered, before its kept results (05 R130, 14 R327). -/
def woken (P : Part) (d : Dev) (n : Nat) : Dev :=
  d.ev.held.foldl (fun (d : Dev) h => d.assert h.1 h.2) { resumed P d n with ev := { d.ev with held := [], resync := List.range 65 } }

/-- The delivered events change the fabric alone (05 R130). -/
theorem woken_eq (P : Part) (d : Dev) (n : Nat) : woken P d n = { resumed P d n with ev := (woken P d n).ev } ∧ (woken P d n).ev.held = [] ∧
    (woken P d n).ev.resync = List.range 65 := by
  obtain ⟨h1, h2, h3⟩ := foldl_assert d.ev.held { resumed P d n with ev := { d.ev with held := [], resync := List.range 65 } }
  exact ⟨h1, h2, h3⟩

/-- The reload of STB, with the kept results after it (14 R327, 11 R274). -/
theorem stbReload_eq {P : Part} {d : Dev} {n : Nat} (hp : d.phase = .reloading) (hn : d.pwr.aonEdges < n) :
    d.stbReload P n = ((woken P d n).hkWake P).updCas fun c => { c with heardAt := d.cycle } := by
  obtain ⟨-, -, -, -, -, hev, -, -, hcyc, -, -⟩ := resumed_fields P d n
  have h : d.stbReload P n = (((resumed P d n).ev.held.foldl (fun (d : Dev) h => d.assert h.1 h.2)
      { resumed P d n with ev := { (resumed P d n).ev with held := [], resync := List.range 65 } }).hkWake P).updCas
        fun c => { c with heardAt := (resumed P d n).cycle } := by
    unfold Dev.stbReload
    rw [if_pos ⟨hp, hn⟩]
    dsimp only [resumed, reloaded, stbReloaded, Dev.updPwr, Dev.updEv]
  rw [h, hev, hcyc, woken]

/-- The wake shows the kept results as far as their crossing has room, and stops the converter (11 R274). -/
theorem hkWake_fields (P : Part) {d : Dev} (ha : d.asleep = false) :
    let t := d.hkWake P
    HkFrame d t ∧ t.hk.seq = .idle ∧ t.hk.conv = none ∧ (∀ e, d.hk.kept[e] = none → SameEntry d t e) ∧
    ∀ e r a, d.hk.kept[e] = some (r, a) →
      (keptBefore d (List.finRange 16) e + resUsed d < 4 → t.hk.kept[e] = none ∧ t.hk.res[e] = wokenWord d r ∧ t.hk.aux[e] = a) ∧
      (4 ≤ keptBefore d (List.finRange 16) e + resUsed d → SameEntry d t e) := by
  have ht : d.hkKept P = (List.finRange 16).foldl (fun d e => d.hkKept1 P e) d := by
    unfold Dev.hkKept
    rw [ha]
    exact if_neg Bool.false_ne_true
  have hmem (e : HkEnt) : e ∈ List.finRange 16 := List.mem_finRange e
  have hsort : (List.finRange 16).Pairwise (· < ·) := List.pairwise_lt_finRange 16
  generalize List.finRange 16 = l at *
  obtain ⟨hf, -, hn, hs⟩ := hkKept_foldl P l hsort d
  rw [← ht] at hf hn hs
  unfold Dev.hkWake
  generalize d.hkKept P = v at *
  exact ⟨hf.trans rfl, rfl, rfl, fun e he => hn e (.inr he), fun e r a he => hs e r a (hmem e) he⟩

/-- What such a device keeps. -/
theorem HkFrame.fields {d t : Dev} (h : HkFrame d t) :
    t.phase = d.phase ∧ t.stb = d.stb ∧ t.pwr = d.pwr ∧ t.ev = d.ev ∧ t.ctx = d.ctx ∧ t.mem = d.mem := by
  rw [h]
  exact ⟨rfl, rfl, rfl, rfl, rfl, rfl⟩

/-- The device before its kept results (05 R130, 14 R327). -/
theorem woken_fields (P : Part) (d : Dev) (n : Nat) :
    let t := woken P d n
    t.phase = .run ∧ t.stb = (stbReloaded d.pwr.sEntry d.pwr.frac n).1 ∧ t.pwr.frac = (stbReloaded d.pwr.sEntry d.pwr.frac n).2 ∧
    t.pwr.slept = nword n ∧ t.pwr.sEntry = d.pwr.sEntry ∧ t.ev.held = [] ∧ t.ev.resync = List.range 65 ∧ t.hk = d.hk ∧
    resUsed t = resUsed d ∧ t.ctx = d.ctx ∧ t.mem = d.mem := by
  obtain ⟨rph, rstb, rfrac, rslept, rentry, -, rhk, rfifo, rcyc, rctx, rmem⟩ := resumed_fields P d n
  obtain ⟨hw, hheld, hres⟩ := woken_eq P d n
  have hused : resUsed (resumed P d n) = resUsed d := by rw [resUsed_eq, resUsed_eq, rfifo, rcyc]
  refine ⟨?_, ?_, ?_, ?_, ?_, hheld, hres, ?_, ?_, ?_, ?_⟩ <;> rw [hw]
  exacts [rph, rstb, rfrac, rslept, rentry, rhk, hused, rctx, rmem]

/-- What the wake shows (14 R327, 11 R274). -/
theorem stbReload_effect {P : Part} {d : Dev} {n : Nat} (hp : d.phase = .reloading) (hn : d.pwr.aonEdges < n) :
    let t := d.stbReload P n
    t.phase = .run ∧ t.stb = d.pwr.sEntry + BitVec.ofNat 48 ((n * 390625 + d.pwr.frac) / 32) ∧
    t.pwr.frac = (n * 390625 + d.pwr.frac) % 32 ∧ t.pwr.slept = BitVec.ofNat 32 n ∧ t.pwr.sEntry = d.pwr.sEntry ∧ t.ev.held = [] ∧
    t.ev.resync = List.range 65 ∧ t.hk.seq = .idle ∧ t.hk.conv = none ∧ (∀ e, d.hk.kept[e] = none → SameEntry d t e) ∧
    (∀ e r a, d.hk.kept[e] = some (r, a) →
      (keptBefore d (List.finRange 16) e + resUsed d < 4 → t.hk.kept[e] = none ∧ t.hk.res[e] = wokenWord d r ∧ t.hk.aux[e] = a) ∧
      (4 ≤ keptBefore d (List.finRange 16) e + resUsed d → SameEntry d t e)) ∧
    t.cas.heardAt = d.cycle ∧ t.ctx = d.ctx ∧ t.mem = d.mem := by
  obtain ⟨wph, wstb, wfrac, wslept, wentry, wheld, wres, whk, wused, wctx, wmem⟩ := woken_fields P d n
  have ha : (woken P d n).asleep = false := by
    rw [Dev.asleep, wph]
    rfl
  obtain ⟨hf, hseq, hconv, hnone, hsome⟩ := hkWake_fields P ha
  obtain ⟨fph, fstb, fpwr, fev, fctx, fmem⟩ := hf.fields
  rw [stbReload_eq hp hn]
  dsimp only
  generalize List.finRange 16 = l at *
  have hword (r : Word) : wokenWord (woken P d n) r = wokenWord d r := by rw [wokenWord, whk, wokenWord]
  simp only [SameEntry, keptBefore, whk, wused, hword] at hnone hsome
  generalize Dev.hkWake P (woken P d n) = t at *
  rw [← fph] at wph
  rw [← fstb] at wstb
  rw [← fpwr] at wfrac wslept wentry
  rw [← fev] at wheld wres
  exact ⟨wph, wstb, wfrac, wslept, wentry, wheld, wres, hseq, hconv, hnone, hsome, rfl, fctx.trans wctx, fmem.trans wmem⟩

/-! ### The obligation -/

/-- A wake source wakes as R326 says exactly where it is enabled and its link, if it is one's, is in DEEP. -/
theorem wakes_iff (P : Part) (d : Dev) (src : WakeSrc) :
    wakes P d src = true ↔ d.wakeEn P src = true ∧ ∀ k, src = .link k → (d.kl.links[k]).st = .deep := by
  unfold wakes
  cases src <;> simp [-Fin.getElem_fin]

/-- SYS STANDBY completes with what its request answers (04 R114, 14 R323). -/
theorem sysStandby_completes {s : State} {c : CtxId} {t : Dev} (hi : s.issues c) (hp : (s.dev.ctx[c]).priv = true)
    (ht : ((s.issued c).standbyReq s.part).2.devDone c ((s.issued c).standbyReq s.part).1 = t) : Completes (.sysStandby c) s t :=
  ht ▸ supInsn_of s c (fmtA 0x1F 0 0 0 2) (fun d => (d.standbyReq s.part).2.devDone c (d.standbyReq s.part).1) hi hp ▸ rfl

/-- Settles O53: the request by its first refusal, the entry, its abandonment and the wake each by its own lemma. -/
theorem standbyAndWake : Obligations.StandbyAndWake := by
  intro s c src n d i quiet wks frees
  have hfrees (code : Nat) (h : d.phase = .entering) : frees (d.abandonEntry s.part code) code := by
    obtain ⟨h1, h2, h3, h4, h5, h6, h7, -⟩ := abandonEntry_fields s.part code h
    exact ⟨h1, h2, h3, h4, h5, fun _ => ⟨h6, fun a => by rw [Dev.byte, h7, Dev.byte]⟩⟩
  have hwk : wks ↔ wakes s.part d src = true := (wakes_iff s.part d src).symm
  have cw : Completes (.wakeSource src) s (d.wakeSource s.part src) := rfl
  have ce : Completes .standbyEntry s (d.standbyEntry s.part) := rfl
  have cl : Completes .pllcLock s d.pllcLock := rfl
  have cr : Completes (.stbReload n) s (d.stbReload s.part n) := rfl
  refine ⟨fun hi hpriv => ⟨fun hc => ?_, fun hc hq hb hl => ?_⟩, fun hp => ⟨fun h => ?_, fun h1 h2 => ?_, fun h => ?_, fun h => ?_⟩,
    fun hp hw => wakeSource_standby (hwk.mp hw) hp ▸ cw, fun hp hw => wakeSource_waking (hwk.mp hw) hp ▸ cw, fun h => ?_, fun hp => ?_, fun hp => ?_,
    fun hp hn => ?_, fun hp hn => ?_⟩
  · have hr : i.standbyRefusal s.part = (refusals s.part i).findIdx id + 1 := (standbyRefusal_eq s.part i).trans (if_pos hc)
    have hreq : i.standbyReq s.part = (false, { i with pwr := { i.pwr with refuse := (refusals s.part i).findIdx id + 1 } }) := by
      unfold Dev.standbyReq
      rw [hr]
      exact if_pos (Nat.succ_ne_zero _)
    exact sysStandby_completes hi hpriv (by rw [show State.issued s c = i from rfl, hreq]; rfl)
  · have hr : i.standbyRefusal s.part = 0 := (standbyRefusal_eq s.part i).trans (if_neg (Nat.not_le.mpr hc))
    have hreg : i.reg 0xF0000 = d.reg 0xF0000 := by simp [i, d, Dev.reg]
    have hreq := standbyReq_accepted hr (by rw [hreg]; exact hq) hb hl
    exact sysStandby_completes hi hpriv (by rw [show State.issued s c = i from rfl, hreq]; rfl)
  · have hn : ¬ (d.phase = .entering ∧ (!d.pwr.suspDue) = true ∧ d.pwr.deepWait = []) := fun ⟨_, h1, h2⟩ =>
      h.elim (fun h => by simp [h] at h1) fun h => h h2
    exact (if_neg hn : d.standbyEntry s.part = d) ▸ ce
  · exact ⟨_, ce, standbyEntry_effect hp h1 h2⟩
  · refine ⟨_, ?_, hfrees 8 hp⟩
    have hw : (d.phase == .entering && !d.pwr.deepWait.isEmpty) = true := by simp [hp, h]
    show Host.Outcome.next { s with dev := Dev.when d _ _ } = _
    rw [Dev.when, if_pos hw]
  · exact ⟨_, wakeSource_entering (hwk.mp h) hp ▸ cw, hfrees 9 hp⟩
  · have hn : wakes s.part d src = false ∨ d.phase = .run := h.imp_left fun h => Bool.eq_false_iff.mpr fun h' => h (hwk.mpr h')
    exact wakeSource_none hn ▸ cw
  · have h : d.pllcLock = { d with phase := .verify, stb := 0 } := by rw [Dev.pllcLock, hp]
    exact h ▸ cl
  · have h : d.pllcLock = { d with phase := .reloading } := by rw [Dev.pllcLock, hp]
    exact h ▸ cl
  · exact (if_neg fun h => Nat.not_lt.mpr hn h.2 : d.stbReload s.part n = d) ▸ cr
  · obtain ⟨h1, h2, h3, h4, h5, h6, h7, h8, h9, hnone, hsome, h12, h13, h14⟩ := stbReload_effect (P := s.part) hp hn
    refine ⟨_, cr, h1, h2, h3, h4, h5, h6, h7, h8, h9, fun e he => (hnone e he).2, fun e r a he => ?_, h12,
      fun _ => ⟨h13, fun a => by rw [Dev.byte, h14, Dev.byte]⟩⟩
    obtain ⟨hshow, hwait⟩ := hsome e r a he
    exact ⟨hshow, fun h => ⟨(hwait h).1.trans he, (hwait h).2⟩⟩

end Sys2Proof.Proofs.Standby
end

section
/-!
The correlator in GUARD and the closing of a stream by its configuration (02 R43, R59, 07 R174).
-/
namespace Sys2Proof.Proofs.Correlation

open Sys2Proof.Machine Sys2Proof.Laws Sys2Proof.Proofs.PlainWrites Sys2Proof.Proofs.Raise Sys2Proof.Proofs.LinkFrame

/-! ### What a read of the correlator leaves -/

/-- The Hinge, the contexts, the phase and the registers of a device. -/
def hingeView (d : Dev) : Hinge × Vector Ctx 64 × Phase × Tab Word := (d.hng, d.ctx, d.phase, d.regs)

/-- The pixel pipeline is not among them. -/
theorem hingeView_updPix (d : Dev) (f : Pix → Pix) : hingeView (d.updPix f) = hingeView d := rfl

/-- A beat of the correlator leaves them (07 R174). -/
theorem hingeView_corrBeat (P : Part) (d : Dev) (b : Nat) : hingeView (d.corrBeat P b) = hingeView d := by
  have h : hingeView ((eccWords P b 16).foldl (fun d w => d.eccRead1 P w) d) = hingeView d :=
    foldl_keeps hingeView _ (fun d w => by simp [hingeView]) _ _
  unfold Dev.corrBeat
  split
  · rfl
  · extract_lets ws e
    have he : hingeView e = hingeView d := (hingeView_updPix _ _).trans h
    clear_value e
    split
    · rw [← he]
      simp [hingeView, Dev.freezeMst]
    · exact he

/-- So do the beats that a grant reads (01 R17). -/
theorem hingeView_corrRead (P : Part) (g : Dev → Nat → Bool) (d : Dev) : hingeView (d.corrRead P g) = hingeView d := by
  have beats (l : List Nat) (d : Dev) : hingeView (l.foldl (Dev.corrBeat P) d) = hingeView d := foldl_keeps hingeView _ (hingeView_corrBeat P) l d
  have h : hingeView (d.corrBurst P) = hingeView d := beats _ _
  unfold Dev.corrRead
  split
  · dsimp only
    split
    · exact (beats _ _).trans h
    · exact h
  · rfl

/-! ### What ends a correlation -/

/-- The Hinge, the contexts and the count of the weak seams' event. -/
def seamView (d : Dev) : Hinge × Vector Ctx 64 × Half := (d.hng, d.ctx, (d.ev.src[(16 : Fin 64)]).seq)

/-- A raised event moves no other source. -/
theorem raise_seq_ne (d : Dev) {n k : Fin 64} (w : Word) (h : k ≠ n) : ((d.raise n w).ev.src[k]).seq = (d.ev.src[k]).seq := by
  unfold Dev.raise
  split
  · rfl
  · rfl
  · rfl
  · rw [assert_src, if_neg h]
    exact BitVec.add_zero _

/-- A slot that moves leaves them (08 R179). -/
theorem seamView_moveSlot (d : Dev) (n : Fin 256) (f : Slot → Slot) : seamView (d.moveSlot n f) = seamView d := by
  unfold Dev.moveSlot Dev.lowCheck
  dsimp only
  split
  · unfold seamView
    rw [raise_seq_ne _ _ (by decide), raise_eq]
    rfl
  · split <;> rfl

/-- So do the overlap slots that fall free (02 R59). -/
theorem seamView_freeOverlaps (d : Dev) : seamView d.freeOverlaps = seamView d :=
  foldl_keeps seamView _ (fun d n => by split; exacts [seamView_moveSlot _ _ _, rfl]) _ _

/-- So do the slots that are pinned no more. -/
theorem seamView_unpin (P : Part) (d : Dev) : seamView (d.unpin P) = seamView d :=
  foldl_keeps seamView _ (fun d n => by split; exacts [seamView_moveSlot _ _ _, rfl]) _ _

/-- A message put up for the members leaves them (13 R309). -/
theorem seamView_stageMsg (d : Dev) (k : LinkId) (t : Nat) (tag : Word) (body : List Word) (a : Bool) :
    seamView (d.stageMsg k t tag body a) = seamView d := by
  have hl (d : Dev) : seamView (d.linkWake k) = seamView d := by
    have h := linkOnly_linkWake d k
    unfold LinkOnly at h
    rw [h]
    rfl
  unfold Dev.stageMsg Dev.stage
  dsimp only
  split
  · exact hl _
  · rfl

/-- Loading offsets sets them, and tells the members (02 R59). -/
theorem seamView_loadOffsets (P : Part) (d : Dev) (v h : Byte) :
    seamView (d.loadOffsets P v h) = ({ d.hng with voff := v, hoff := h }, d.ctx, (d.ev.src[(16 : Fin 64)]).seq) := by
  unfold Dev.loadOffsets
  dsimp only
  split
  · exact seamView_stageMsg _ _ _ _ _ _
  · rfl

/-- The end of the guard lines (02 R59). -/
theorem seamView_guardEnd (P : Part) (d : Dev) (hs : d.hng.st = .guard) (hc : d.hng.corr = .loaded) :
    seamView (d.guardEnd P) = (if d.hng.grd = 3 then { d.hng with st := .run, newLine := true, corr := .idle, reached := [], fullRaised := 0 } else d.hng,
      d.ctx, (d.ev.src[(16 : Fin 64)]).seq) := by
  unfold Dev.guardEnd
  by_cases hg : d.hng.grd = 3
  · rw [if_pos ⟨hs, hg, hc⟩, if_pos hg]
    exact seamView_unpin _ _
  · rw [if_neg (fun h => hg h.2.1), if_neg hg]
    rfl

/-- A result that is accepted: not at the edge of the search, a mean that is not 0, and the score at SEAM_MIN or above (07 R174). -/
def seamGood (d : Dev) (x : CorrRes) : Bool := !x.edge && !x.flat && decide (fld d.hngCtl 24 8 ≤ x.score)

/-- A run of the correlator sets results of its own alone (07 R174). -/
theorem corrRun_pix (d : Dev) : d.corrRun.2 = { d with pix := d.corrRun.2.pix } := by
  unfold Dev.corrRun
  split
  · rfl
  · dsimp only
    split <;> rfl

/-- The Hinge with the offsets of a seam loaded, back in RUN when the three guard captures have fired (02 R59). -/
def seamHinge (h : Hinge) (ok : Bool) (score : Nat) (v x : Byte) : Hinge :=
  let h := { h with corr := .loaded, weak := !ok, score := BitVec.ofNat 8 score, voff := v, hoff := x }
  if h.grd = 3 then { h with st := .run, newLine := true, corr := .idle, reached := [], fullRaised := 0 } else h

/-- A seam's offsets are loaded, its overlap slots freed and GUARD ended (02 R59). -/
def seamLoaded (P : Part) (d : Dev) (ok : Bool) (score : Nat) (v x : Byte) : Dev :=
  ((d.updHng fun h => { h with corr := .loaded, weak := !ok, score := BitVec.ofNat 8 score }).loadOffsets P v x).freeOverlaps.guardEnd P

/-- That changes the Hinge so, and neither the contexts nor the count of the weak seams' event (02 R59). -/
theorem seamView_seamLoaded (P : Part) (d : Dev) (ok : Bool) (score : Nat) (v x : Byte) (hs : d.hng.st = .guard) :
    seamView (seamLoaded P d ok score v x) = (seamHinge d.hng ok score v x, d.ctx, (d.ev.src[(16 : Fin 64)]).seq) := by
  let f := ((d.updHng fun h => { h with corr := .loaded, weak := !ok, score := BitVec.ofNat 8 score }).loadOffsets P v x).freeOverlaps
  have hf : seamView f = ({ d.hng with corr := .loaded, weak := !ok, score := BitVec.ofNat 8 score, voff := v, hoff := x }, d.ctx,
      (d.ev.src[(16 : Fin 64)]).seq) := (seamView_freeOverlaps _).trans (seamView_loadOffsets _ _ _ _)
  obtain ⟨hh, hctx, hseq⟩ : f.hng = _ ∧ f.ctx = _ ∧ (f.ev.src[(16 : Fin 64)]).seq = _ := by
    simpa only [seamView, Prod.mk.injEq] using hf
  have hg := seamView_guardEnd P f (by rw [hh]; exact hs) (by rw [hh])
  rw [hh, hctx, hseq] at hg
  exact hg

/-- The end of a correlation by its result (02 R59, 07 R174). -/
theorem corrEnd_eq (P : Part) {d : Dev} (hs : d.hng.st = .guard) (hc : d.hng.corr = .running) :
    (∀ x, d.corrRun.1 = some x → seamGood d x = true → ∃ p : Pix,
      d.corrEnd P = seamLoaded P { d with pix := p } true x.score (BitVec.ofInt 8 (max x.mv 0)) (BitVec.ofInt 8 x.mh)) ∧
    ((∀ x, d.corrRun.1 = some x → seamGood d x = false) → ∃ (p : Pix) (n : Nat),
      d.corrEnd P = seamLoaded P (({ d with pix := p } : Dev).raise 16 (nword n)) false n 0 0) := by
  have hd := corrRun_pix d
  have hgood (x : CorrRes) : (!x.edge && !x.flat && decide (fld d.corrRun.2.hngCtl 24 8 ≤ x.score)) = seamGood d x := by
    rw [hd]
    rfl
  unfold Dev.corrEnd
  rw [if_pos ⟨hs, hc⟩]
  generalize d.corrRun = q at *
  obtain ⟨r, e⟩ := q
  dsimp only at hd hgood ⊢
  refine ⟨fun x hx hx' => ?_, fun hw => ?_⟩
  · subst hx
    simp only [hgood, hx', if_true]
    split
    · rw [hd]
      exact ⟨_, rfl⟩
    · rw [hd]
      exact ⟨_, rfl⟩
  · cases r with
    | none =>
      rw [hd]
      exact ⟨_, 0, rfl⟩
    | some x =>
      simp only [hgood, hw x rfl, Bool.false_eq_true, if_false]
      rw [hd]
      exact ⟨_, x.score, rfl⟩

/-- The end of a correlation: an accepted result loads its offsets, every other outcome zero ones with event 16 (02 R59). -/
theorem corrEnd_effect (P : Part) (d : Dev) (hs : d.hng.st = .guard) (hc : d.hng.corr = .running) (ha : d.asleep = false) :
    let t := d.corrEnd P
    t.hng.st = (if d.hng.grd = 3 then .run else .guard) ∧ t.hng.lineNo = d.hng.lineNo ∧ t.ctx = d.ctx ∧
    (∀ x, d.corrRun.1 = some x → seamGood d x = true → t.hng.weak = false ∧ t.hng.voff = BitVec.ofInt 8 (max x.mv 0) ∧
      t.hng.hoff = BitVec.ofInt 8 x.mh ∧ t.hng.score = BitVec.ofNat 8 x.score) ∧
    ((d.corrRun.1 = none ∨ ∃ x, d.corrRun.1 = some x ∧ seamGood d x = false) → t.hng.weak = true ∧ t.hng.voff = 0 ∧ t.hng.hoff = 0 ∧
      (t.ev.src[(16 : Fin 64)]).seq = (d.ev.src[(16 : Fin 64)]).seq + 1) := by
  have eq := corrEnd_eq P hs hc
  have view {t : Dev} {u : Hinge × Vector Ctx 64 × Half} (h : seamView t = u) :
      t.hng = u.1 ∧ t.ctx = u.2.1 ∧ (t.ev.src[(16 : Fin 64)]).seq = u.2.2 := by
    rw [← h]
    exact ⟨rfl, rfl, rfl⟩
  have hst (ok : Bool) (n : Nat) (v x : Byte) : (seamHinge d.hng ok n v x).st = (if d.hng.grd = 3 then .run else .guard) ∧
      (seamHinge d.hng ok n v x).lineNo = d.hng.lineNo ∧ (seamHinge d.hng ok n v x).weak = !ok ∧ (seamHinge d.hng ok n v x).voff = v ∧
      (seamHinge d.hng ok n v x).hoff = x ∧ (seamHinge d.hng ok n v x).score = BitVec.ofNat 8 n := by
    unfold seamHinge
    dsimp only
    split
    · exact ⟨rfl, rfl, rfl, rfl, rfl, rfl⟩
    · exact ⟨hs, rfl, rfl, rfl, rfl, rfl⟩
  intro t
  by_cases hg : ∃ x, d.corrRun.1 = some x ∧ seamGood d x = true
  · obtain ⟨x, hx, hx'⟩ := hg
    obtain ⟨p, ht⟩ := eq.1 x hx hx'
    obtain ⟨hh, hctx, -⟩ := view (seamView_seamLoaded P { d with pix := p } true x.score (BitVec.ofInt 8 (max x.mv 0)) (BitVec.ofInt 8 x.mh) hs)
    rw [← ht] at hh hctx
    obtain ⟨h1, h2, h3, h4, h5, h6⟩ := hst true x.score (BitVec.ofInt 8 (max x.mv 0)) (BitVec.ofInt 8 x.mh)
    rw [show t.hng = _ from hh]
    refine ⟨h1, h2, hctx, fun y hy _ => ?_, fun h => ?_⟩
    · obtain rfl : x = y := Option.some.inj (hx.symm.trans hy)
      exact ⟨h3, h4, h5, h6⟩
    · rcases h with h | ⟨y, hy, hy'⟩
      · simp [hx] at h
      · obtain rfl : x = y := Option.some.inj (hx.symm.trans hy)
        simp [hx'] at hy'
  · have hw (x : CorrRes) (hx : d.corrRun.1 = some x) : seamGood d x = false := Bool.eq_false_iff.mpr fun h => hg ⟨x, hx, h⟩
    obtain ⟨p, n, ht⟩ := eq.2 hw
    have hr : ({ d with pix := p } : Dev).raise 16 (nword n) = { d with pix := p, ev := (({ d with pix := p } : Dev).raise 16 (nword n)).ev } := raise_eq _ _ _
    have hseq := raise_seq_self (d := { d with pix := p }) 16 (nword n) ha
    obtain ⟨hh, hctx, hs16⟩ := view (seamView_seamLoaded P (({ d with pix := p } : Dev).raise 16 (nword n)) false n 0 0 (by rw [hr]; exact hs))
    rw [← ht] at hh hctx hs16
    have hng : (({ d with pix := p } : Dev).raise 16 (nword n)).hng = d.hng := by rw [hr]
    rw [hng] at hh
    obtain ⟨h1, h2, h3, h4, h5, -⟩ := hst false n 0 0
    rw [show t.hng = _ from hh]
    refine ⟨h1, h2, hctx.trans (by rw [hr]), fun y hy hy' => absurd hy' (by simp [hw y hy]), fun _ => ⟨h3, h4, h5, hs16.trans hseq⟩⟩

/-! ### Streams -/

/-- The check of the credits changes the Hinge's watch of them and the fabric alone (02 R42). -/
theorem creditCheck_fields (d : Dev) (b : Option Nat) :
    d.creditCheck b = { d with hng := { d.hng with lowArmed := (d.creditCheck b).hng.lowArmed }, ev := (d.creditCheck b).ev } := by
  unfold Dev.creditCheck
  dsimp only
  split
  · rfl
  · split
    · rfl
    · generalize (d.hng.lowArmed && _ && _) = b
      cases b
      · rfl
      · show Dev.raise _ _ _ = { d with hng := { d.hng with lowArmed := (Dev.raise _ _ _).hng.lowArmed }, ev := (Dev.raise _ _ _).ev }
        rw [raise_eq]
        rfl

/-- A configuration with OPEN = 0 closes an open stream: its credits outstanding are withdrawn (02 R43). -/
theorem strCfgWrite_close (P : Part) (d : Dev) (k : Fin 64) (v : Word) (hv : bit v 0 = false) (ho : (d.hng.streams[k]).opened = true) :
    ∃ pace : Bool → Bool, let t := d.strCfgWrite P k v
      t.hng.streams = upd d.hng.streams k (fun x => { x with
        owner := v.extractLsb' 8 6, pace := pace x.pace, opened := false, granted := x.granted - x.avail, avail := 0, after := [] }) ∧
      t = { d with hng := t.hng, ev := t.ev } := by
  let d1 := d.updStream k fun x => { x with owner := v.extractLsb' 8 6, pace := if d.running then x.pace else bit v 1 }
  let d2 := d1.updStream k fun x => { x with opened := false, granted := x.granted - x.avail, avail := 0, after := [] }
  have ho1 : (d1.hng.streams[k]).opened = true := by
    show ((upd d.hng.streams k _)[k]).opened = true
    rw [upd_get_self]
    exact ho
  have hcl : d1.closeStream k = (true, d2.creditCheck d1.cNow) := by
    unfold Dev.closeStream
    exact if_pos ho1
  have ht : d.strCfgWrite P k v = (d2.creditCheck d1.cNow).creditCheck d.cNow := by
    unfold Dev.strCfgWrite
    dsimp only
    rw [if_neg (fun h => by simp [hv] at h), if_neg (by simp [hv])]
    exact congrArg (fun p => p.2.creditCheck d.cNow) hcl
  have hs := upd_upd d.hng.streams k (fun x => { x with owner := v.extractLsb' 8 6, pace := if d.running then x.pace else bit v 1 })
    fun x => { x with opened := false, granted := x.granted - x.avail, avail := 0, after := [] }
  have h1 := creditCheck_fields d2 d1.cNow
  have h2 := creditCheck_fields (d2.creditCheck d1.cNow) d.cNow
  rw [← ht] at h2
  refine ⟨fun b => if d.running then b else bit v 1, ?_, ?_⟩
  · rw [h2, h1]
    exact hs
  · rw [h2, h1]
    rfl

/-- A write of a stream's configuration is the Hinge's (02 R43). -/
theorem mmioWrite_strCfg (P : Part) (d : Dev) (m : Master) (pc insn v : Word) (k : Fin 64) :
    d.mmioWrite P m pc insn (0x50400 + 16 * k.val) v = d.strCfgWrite P k v := by
  have ha : regAbsent P (0x50400 + 16 * k.val) = false := by
    have : (0x50400 + 16 * k.val) / 0x10000 = 5 := by omega
    simp [regAbsent, this]
  have hd : (0x50400 + 16 * k.val) / 0x10000 = 5 ∧ (0x50400 + 16 * k.val) % 0x10000 = 0x400 + 16 * k.val := by omega
  have hk : Fin.ofNat 64 ((0x400 + 16 * k.val - 0x400) / 16) = k := by
    apply Fin.ext
    simp only [Fin.val_ofNat]
    omega
  unfold Dev.mmioWrite
  dsimp only
  rw [ha, if_neg (by simp), hd.1, hd.2]
  show Dev.hngWrite P d _ v = _
  unfold Dev.hngWrite
  rw [if_neg (by omega), if_neg (by omega), if_pos (by omega), if_pos (by omega), hk]

/-- It takes up no crossing (01 R25). -/
theorem crossWrite_strCfg (P : Part) (d : Dev) (k : Fin 64) : d.crossWrite P (0x50400 + 16 * k.val) = d := by
  have hports : P.ports < 8 := (P.caps.extractLsb' 0 3).isLt
  have hc : crossOf P (0x50400 + 16 * k.val) = none := by
    unfold crossOf
    rw [if_neg (by omega), if_neg (by omega), if_neg (by omega), if_neg (by omega)]
  unfold Dev.crossWrite
  rw [hc]

/-- The correlator's step completes while CK_CORE runs (07 R174). -/
theorem correlationDone_completes {s : State} {t : Dev} (hon : s.dev.coreOn = true)
    (ht : s.dev.correlationDone s.part (fun d age => d.grantable s.part .ls age .corr) = t) : Completes .correlationDone s t :=
  ht ▸ core_completes .correlationDone s (fun P d => d.correlationDone P fun d age => d.grantable P .ls age .corr) rfl hon

/-- Settles O34: a grant reads on, the end of a correlation by its result; a stream closes as CRED CLOSE closes it. -/
theorem correlationAndStreamConfig : Obligations.CorrelationAndStreamConfig := by
  intro s m k v d e r good
  have he : hingeView e = hingeView d := hingeView_corrRead _ _ _
  obtain ⟨hhng, hctx, hph, hregs⟩ : e.hng = d.hng ∧ e.ctx = d.ctx ∧ e.phase = d.phase ∧ e.regs = d.regs := by
    simpa only [hingeView, Prod.mk.injEq] using he
  have hgood (x : CorrRes) : good x ↔ seamGood e x = true := by
    have : e.hngCtl = d.hngCtl := by rw [Dev.hngCtl, Dev.reg, hregs, Dev.hngCtl, Dev.reg]
    simp only [good, seamGood, this, Bool.and_eq_true, Bool.not_eq_true', decide_eq_true_eq, and_assoc]
  have stays (h : ¬ (d.corrAsks && d.grantable s.part .ls d.pix.corrAsk .corr) = true) : e = d := if_neg h
  refine ⟨fun hon hs hc => ⟨fun ha => ?_, fun ha hg => stays (by simp [hg]), fun ha => stays (by simp [ha]), fun ha => ?_⟩, fun hw hv ho => ?_⟩
  · exact correlationDone_completes hon (if_pos ha)
  · have hdone : Completes .correlationDone s (e.corrEnd s.part) := correlationDone_completes hon (if_neg (ne_true_of_eq_false ha))
    have hasl : e.asleep = false := by
      rw [Dev.asleep, hph]
      exact asleep_of_coreOn hon
    obtain ⟨h1, h2, h3, h4, h5⟩ := corrEnd_effect s.part e (by rw [hhng]; exact hs) (by rw [hhng]; exact hc) hasl
    rw [hhng] at h1 h2
    refine ⟨_, hdone, h1, h2, h3.trans hctx, fun x hx hg => h4 x hx ((hgood x).mp hg), fun h => h5 (h.imp_right fun ⟨x, hx, hg⟩ => ?_)⟩
    exact ⟨x, hx, Bool.eq_false_iff.mpr fun h => hg ((hgood x).mpr h)⟩
  · obtain ⟨pace, hstr, hd⟩ := strCfgWrite_close s.part d k v hv ho
    refine ⟨_, write_effect rfl hw (by rw [crossWrite_strCfg, mmioWrite_strCfg]), ?_, ?_, ?_, ?_, ?_, fun j hj => ?_, hd⟩
    all_goals rw [hstr]
    exacts [by rw [upd_get_self], by rw [upd_get_self], by rw [upd_get_self], by rw [upd_get_self], by rw [upd_get_self],
      upd_get_ne _ _ _ _ (Ne.symm hj)]

end Sys2Proof.Proofs.Correlation
end

section
/-!
Words that the management executor reads and writes in PD (01 R17, 16 R367, R371).
-/
namespace Sys2Proof.Proofs.MgmtWords

open Sys2Proof.Machine Sys2Proof.Laws Sys2Proof.Proofs.Raise Sys2Proof.Proofs.Words Sys2Proof.Proofs.Correlation Sys2Proof.Proofs.Interconnect

/-! ### What an access in PD changes -/

/-- A device whose memory, marks, events and receive buffer alone differ from another's. -/
def PdFrame (d t : Dev) : Prop := t = { d with mem := t.mem, ecc := t.ecc, ev := t.ev, kl := { d.kl with inbox := t.kl.inbox } }

theorem PdFrame.refl (d : Dev) : PdFrame d d := rfl

theorem PdFrame.trans {d e t : Dev} (h : PdFrame d e) (h' : PdFrame e t) : PdFrame d t := by
  unfold PdFrame at *
  exact h'.trans (by rw [h])

/-- A run of such changes is one. -/
theorem PdFrame.foldl {α : Type} {f : Dev → α → Dev} (h : ∀ d x, PdFrame d (f d x)) (l : List α) : ∀ d : Dev, PdFrame d (l.foldl f d) := by
  induction l with
  | nil => exact PdFrame.refl
  | cons x l ih => exact fun d => (h d x).trans (ih (f d x))

/-- A raised event. -/
theorem pdFrame_raise (d : Dev) (n : Fin 64) (w : Word) : PdFrame d (d.raise n w) := by
  unfold PdFrame
  rw [raise_eq]

/-- A beat read with what its words' errors tell (01 R22). -/
theorem pdFrame_eccRead (d : Dev) (P : Part) (a n : Nat) : PdFrame d (d.eccRead P a n) :=
  PdFrame.foldl (fun d w => by
    unfold Dev.eccRead1
    split
    · dsimp only
      split
      · exact pdFrame_raise d _ _
      · exact (pdFrame_raise d _ _).trans rfl
    · exact pdFrame_raise d _ _
    · exact PdFrame.refl d) _ d

/-- A store whose bytes are all present changes memory, its marks and the events alone (01 R22). -/
theorem store_frame (P : Part) (d : Dev) {a : Nat} (bs : List Byte) (hr : regionOf P a ≠ .lsAbsent) (hp : presentLen P a bs.length = bs.length) :
    d.store P a bs = { d with mem := (d.store P a bs).mem, ecc := (d.store P a bs).ecc, ev := (d.store P a bs).ev } := by
  have hw (d : Dev) (w : Nat) : d.eccWrite1 P a bs.length w = { d with ecc := (d.eccWrite1 P a bs.length w).ecc, ev := (d.eccWrite1 P a bs.length w).ev } := by
    unfold Dev.eccWrite1
    split
    · rfl
    · split
      · split
        · rfl
        · rw [raise_eq]
          rfl
      · rw [raise_eq]
      · rfl
  have hfold (l : List Nat) : ∀ e : Dev, l.foldl (fun d w => d.eccWrite1 P a bs.length w) e =
      { e with ecc := (l.foldl (fun d w => d.eccWrite1 P a bs.length w) e).ecc, ev := (l.foldl (fun d w => d.eccWrite1 P a bs.length w) e).ev } := by
    induction l with
    | nil => exact fun _ => rfl
    | cons w l ih =>
      intro e
      rw [List.foldl_cons]
      exact (ih _).trans (by rw [hw])
  have hs : d.store P a bs = d.storeAll P a bs := by
    unfold Dev.store
    rw [if_neg hr, if_neg (by rw [hp]; omega)]
  rw [hs]
  unfold Dev.storeAll
  dsimp only
  rw [hfold]
  rfl

/-- A store in PD. -/
theorem pdFrame_store (P : Part) (d : Dev) {a : Nat} (bs : List Byte) (h : a < 0x100000) : PdFrame d (d.store P a bs) := by
  have hr : regionOf P a = .pd := if_pos h
  have hs := store_frame P d bs (by rw [hr]; decide) (if_neg (by omega))
  unfold PdFrame
  rw [hs]

/-! ### The grant -/

/-- A fetch asks for its port whatever errors its word has (01 R19, 03 R66). -/
theorem fetchPort_eq (P : Part) (d : Dev) (c : CtxId) : d.fetchPort P c =
    match firstCause ((d.ctx[c]).pc.toNat % 4 != 0) (regionOf P (d.ctx[c]).pc.toNat != .pd && regionOf P (d.ctx[c]).pc.toNat != .nvm) with
    | some k => if k = 9 then some (portOf (regionOf P (d.ctx[c]).pc.toNat)) else none
    | none => if !(d.ctx[c]).may 2 (d.ctx[c]).pc.toNat then none else some (portOf (regionOf P (d.ctx[c]).pc.toNat)) := by
  unfold Dev.fetchPort Dev.fetchCause
  dsimp only
  generalize firstCause _ _ = f
  cases f with
  | none => cases (d.ctx[c]).may 2 (d.ctx[c]).pc.toNat <;> cases d.eccBad P (d.ctx[c]).pc.toNat 4 <;> rfl
  | some k =>
    by_cases hk : k = 9
    · subst hk
      rfl
    · dsimp only
      rw [if_neg hk]
      split <;> simp_all

/-- A device with other memory, marks, events and receive buffers of the executor and of cascade ingress. -/
def pdChange (d : Dev) (m : Mem) (e : Tab EccMark) (v : Fabric) (b c : List RxMsg) : Dev :=
  { d with mem := m, ecc := e, ev := v, kl := { d.kl with inbox := b, casIn := c } }

/-- A master's own bursts do not keep it waiting (01 R17). -/
theorem own_burst_passes (m : Master) (age : Nat) {α : Type} (f : α → Nat) (l : List α) :
    ((l.map fun r => (f r, m, ReqKind.burst)).all fun r =>
      (r.2.1 == m && r.2.2 != .late) || decide (age < r.1 ∨ (age = r.1 ∧ mnum m < mnum r.2.1))) = true := by
  simp

/-- A grant at a port does not depend on memory, its marks or the events, nor on the master's own requests (01 R17). -/
theorem grantable_pdChange (P : Part) (d : Dev) (m : Mem) (e : Tab EccMark) (v : Fabric) (b c : List RxMsg) (p : Port) (age : Nat) {w : Master}
    (hw : w = .mgmt ∧ c = d.kl.casIn ∨ w = .cascIn ∧ b = d.kl.inbox) :
    (pdChange d m e v b c).grantable P p age w = d.grantable P p age w := by
  have hfetch (x : CtxId) : (pdChange d m e v b c).fetching P x p = d.fetching P x p := by
    have hp : (pdChange d m e v b c).fetchPort P x = d.fetchPort P x := by
      rw [fetchPort_eq, fetchPort_eq]
      rfl
    unfold Dev.fetching
    rw [hp]
    rfl
  have hroom (o : Nat) : (pdChange d m e v b c).writeRoom P o = d.writeRoom P o := by
    have hk (k : Fin 9) : (pdChange d m e v b c).crossRoom k = d.crossRoom k := rfl
    unfold Dev.writeRoom
    simp only [hk]
  have hheld (x : CtxId) : (pdChange d m e v b c).heldAsk P x p = d.heldAsk P x p := by
    unfold Dev.heldAsk
    simp only [hroom]
    rfl
  have hdma (n : DmaId) : (pdChange d m e v b c).dmaPort P n = d.dmaPort P n := by
    unfold Dev.dmaPort
    rfl
  have hdbg (a : Word) (x : Bool) : (pdChange d m e v b c).asksPort P a x p = d.asksPort P a x p := by
    unfold Dev.asksPort
    simp only [hroom]
  have hmir : (pdChange d m e v b c).mirrorAsk P = d.mirrorAsk P := by
    unfold Dev.mirrorAsk
    rfl
  unfold Dev.grantable Dev.waiting
  rcases hw with ⟨rfl, rfl⟩ | ⟨rfl, rfl⟩
  · simp only [List.all_append, own_burst_passes, hfetch, hheld, hdma, hdbg, hmir]
    rfl
  · have hspi (a : Nat) : (pdChange d m e v d.kl.inbox c).spiWaits P a = d.spiWaits P a := by
      unfold Dev.spiWaits
      rfl
    have hvc : (pdChange d m e v d.kl.inbox c).vcAsk P = d.vcAsk P := by
      unfold Dev.vcAsk
      rfl
    have hask : (pdChange d m e v d.kl.inbox c).mgmtAsk P = d.mgmtAsk P := by
      unfold Dev.mgmtAsk
      rw [hvc]
      simp only [hspi]
      rfl
    simp only [List.all_append, own_burst_passes, hfetch, hheld, hdma, hdbg, hmir, hask]
    rfl

/-- So it stays at an access in PD. -/
theorem grantable_frame {P : Part} {d t : Dev} (h : PdFrame d t) (p : Port) (age : Nat) : t.grantable P p age .mgmt = d.grantable P p age .mgmt := by
  rw [h]
  exact grantable_pdChange P d _ _ _ _ d.kl.casIn p age (.inl ⟨rfl, rfl⟩)

/-- The executor's access to a word of PD waits for its port alone (01 R17). -/
theorem wordFree_frame {P : Part} {d t : Dev} (h : PdFrame d t) {a : Word} (ha : a.toNat < 0x100000) (age : Nat) (w : Bool) :
    t.wordFree P age a w = d.wordFree P age a w := by
  have hr : regionOf P a.toNat = .pd := if_pos ha
  have hn : ((Region.pd == Region.nvm) : Bool) = false := rfl
  have hm : decide (Region.pd = Region.mmio) = false := rfl
  unfold Dev.wordFree Dev.wordHeld Dev.nvmWaits
  rw [hr, grantable_frame h, hn, hm, Bool.false_and, Bool.false_and, Bool.false_and, Bool.false_and]

/-! ### Words read -/

/-- Another word's mark is deleted without a trace at a word. -/
theorem lookup_tabDel_ne {α : Type} {k x : Nat} (h : x ≠ k) (t : Tab α) : (tabDel k t).lookup x = t.lookup x := by
  induction t with
  | nil => rfl
  | cons p t ih =>
    obtain ⟨a, v⟩ := p
    by_cases ha : a = k
    · have hx : (x == a) = false := beq_false_of_ne (ha ▸ h)
      rw [tabDel, List.filter_cons_of_neg (by simp [ha]), List.lookup_cons, hx]
      exact ih
    · rw [tabDel, List.filter_cons_of_pos (by simp [ha]), List.lookup_cons, List.lookup_cons]
      cases x == a
      · exact ih
      · rfl

/-- A mark that is put reads at its word, and leaves the others. -/
theorem lookup_tabIns {α : Type} {k : Nat} (x : Nat) (v : α) {t : Tab α} (h : ∀ p ∈ t, p.1 ≠ k) :
    (tabIns k v t).lookup x = if x = k then some v else t.lookup x := by
  induction t with
  | nil => by_cases hx : x = k <;> simp [tabIns, List.lookup_cons, hx, beq_false_of_ne]
  | cons p t ih =>
    obtain ⟨a, w⟩ := p
    have ha : a ≠ k := h _ List.mem_cons_self
    have ih := ih fun p hp => h p (List.mem_cons_of_mem _ hp)
    unfold tabIns
    split
    · by_cases hx : x = k <;> simp [List.lookup_cons, hx, beq_false_of_ne]
    · rw [List.lookup_cons, ih, List.lookup_cons]
      by_cases hx : x = k
      · rw [hx, if_pos rfl, if_pos rfl, beq_false_of_ne ha.symm]
      · rw [if_neg hx, if_neg hx]

/-- A word's mark after one has been put. -/
theorem mark_setMark (d : Dev) (w x : Nat) (k : EccMark) : (d.setMark w (some k)).mark x = if x = w then some k else d.mark x := by
  show (tabIns w k (tabDel w d.ecc)).lookup x = _
  rw [lookup_tabIns _ _ fun p hp => by simpa using List.of_mem_filter hp]
  by_cases hx : x = w
  · rw [if_pos hx, if_pos hx]
  · rw [if_neg hx, if_neg hx, lookup_tabDel_ne hx]
    rfl

/-- A raised event leaves the marks. -/
theorem mark_raise (d : Dev) (n : Fin 64) (v : Word) (x : Nat) : (d.raise n v).mark x = d.mark x := by
  rw [raise_eq]
  rfl

/-- A read that a corrected error answers leaves the uncorrectable ones (01 R22). -/
theorem mark_eccRead1 (P : Part) (d : Dev) (w x : Nat) : ((d.eccRead1 P w).mark x == some .double) = (d.mark x == some .double) := by
  unfold Dev.eccRead1
  split
  case h_1 hm =>
    dsimp only
    split
    · rw [mark_raise]
    · rw [mark_setMark, mark_raise]
      by_cases hx : x = w
      · rw [if_pos hx, hx, hm]
        rfl
      · rw [if_neg hx]
  case h_2 => rw [mark_raise]
  case h_3 => rfl

/-- A read leaves the uncorrectable errors (01 R22). -/
theorem eccBad_eccRead (P : Part) (d : Dev) (a n b k : Nat) : (d.eccRead P a n).eccBad P b k = d.eccBad P b k := by
  have h (x : Nat) : ((d.eccRead P a n).mark x == some .double) = (d.mark x == some .double) :=
    foldl_keeps (fun d => d.mark x == some .double) _ (fun d w => mark_eccRead1 P d w x) _ d
  unfold Dev.eccBad
  simp only [h]

/-- A read moves neither memory nor the count of event 43 (01 R22). -/
theorem eccRead_keeps (P : Part) (d : Dev) (a n : Nat) : (d.eccRead P a n).mem = d.mem ∧
    ((d.eccRead P a n).ev.src[(43 : Fin 64)]).seq = (d.ev.src[(43 : Fin 64)]).seq := by
  refine ⟨foldl_keeps (fun d => d.mem) _ (fun _ _ => by simp) _ d, foldl_keeps (fun d => (d.ev.src[(43 : Fin 64)]).seq) _ (fun d w => ?_) _ d⟩
  unfold Dev.eccRead1
  split
  · dsimp only
    split
    · exact raise_seq_ne _ _ (by decide)
    · exact raise_seq_ne _ _ (by decide)
  · exact raise_seq_ne _ _ (by decide)
  · rfl

/-- What a run of accesses in PD leaves: memory aside, as `PdFrame` says, and the count of event 43. -/
def Steps43 (d t : Dev) : Prop := PdFrame d t ∧ (t.ev.src[(43 : Fin 64)]).seq = (d.ev.src[(43 : Fin 64)]).seq

/-- A word of PD without an uncorrectable error is read whole (16 R367). -/
theorem mgmtRead_pd (P : Part) (d : Dev) {a : Word} (ha : a.toNat % 4 = 0) (hb : a.toNat < 0x100000) (he : d.eccBad P a.toNat 4 = false) :
    d.mgmtRead P a = (0, d.word a.toNat, d.beatRead P a.toNat 4) := by
  have hr : regionOf P a.toNat = .pd := if_pos hb
  have hd : decodeBad P a.toNat 4 false = false := by
    unfold decodeBad
    rw [hr]
  unfold Dev.mgmtRead
  dsimp only
  rw [if_neg (by simp [ha, hd]), if_neg (by rw [hr]; decide), if_neg (by rw [hr]; decide), if_neg (by simp [he])]
  exact congrArg (fun w => (0, w, d.beatRead P a.toNat 4)) (word_congr fun i _ => by rw [Dev.byte, Dev.beatRead, (eccRead_keeps P d _ _).1, Dev.byte])

/-- The addresses of a run of words in PD. -/
theorem nextWord {a : Word} {n : Nat} (h : a.toNat + 4 * (n + 1) ≤ 0x100000) : (a + 4).toNat = a.toNat + 4 ∧
    (∀ i ≤ n, (a + nword (4 * i)).toNat = a.toNat + 4 * i) ∧ ∀ i, a + 4 + nword (4 * i) = a + nword (4 * (i + 1)) := by
  have h4 : (4 : Word).toNat = 4 := rfl
  refine ⟨?_, fun i hi => ?_, fun i => BitVec.eq_of_toNat_eq ?_⟩
  · rw [BitVec.toNat_add, h4]
    omega
  · rw [BitVec.toNat_add, nword, BitVec.toNat_ofNat]
    omega
  · simp only [BitVec.toNat_add, nword, BitVec.toNat_ofNat, h4]
    omega

/-- The words of PD that a request reads, where each is granted and none has an uncorrectable error (16 R367, R371). -/
theorem readWords_pd (P : Part) (n : Nat) : ∀ (age : Nat) (a : Word) (ws : List Word) (d : Dev), a.toNat % 4 = 0 → a.toNat + 4 * n ≤ 0x100000 →
    (∀ i < n, d.wordFree P (if i = 0 then age else d.cycle) (a + nword (4 * i)) false = true) →
    (∀ i < n, d.eccBad P (a.toNat + 4 * i) 4 = false) →
    ∃ t, Dev.readWords P n age a (0, 0) ws d = ((0, 0), ws ++ (List.range n).map fun i => d.word (a.toNat + 4 * i), 0, t) ∧
      Steps43 d t ∧ t.mem = d.mem := by
  induction n with
  | zero => exact fun age a ws d _ _ _ _ => ⟨d, by simp [Dev.readWords], ⟨PdFrame.refl d, rfl⟩, rfl⟩
  | succ n ih =>
    intro age a ws d ha hn hf he
    have hb : a.toNat < 0x100000 := by omega
    obtain ⟨h4, haddr, hstep⟩ := nextWord (a := a) (n := n) (by omega)
    have h0 : d.wordFree P age a false = true := by
      simpa [nword] using hf 0 (Nat.succ_pos n)
    have he0 : d.eccBad P a.toNat 4 = false := he 0 (Nat.succ_pos n)
    obtain ⟨hmem, h43⟩ := eccRead_keeps P d (beatBase a.toNat) (beatSpan a.toNat 4)
    have hfr : PdFrame d (d.beatRead P a.toNat 4) := pdFrame_eccRead d P _ _
    have hf' : ∀ i < n, (d.beatRead P a.toNat 4).wordFree P (if i = 0 then (d.beatRead P a.toNat 4).cycle else (d.beatRead P a.toNat 4).cycle)
        (a + 4 + nword (4 * i)) false = true := fun i hi => by
      rw [hstep, wordFree_frame hfr (by rw [haddr (i + 1) (by omega)]; omega), ite_self, hfr]
      exact hf (i + 1) (by omega)
    have he' : ∀ i < n, (d.beatRead P a.toNat 4).eccBad P ((a + 4).toNat + 4 * i) 4 = false := fun i hi => by
      rw [Dev.beatRead, eccBad_eccRead, h4, show a.toNat + 4 + 4 * i = a.toNat + 4 * (i + 1) by omega]
      exact he (i + 1) (by omega)
    obtain ⟨t, ht, ⟨htf, ht43⟩, htm⟩ := ih _ (a + 4) (ws ++ [d.word a.toNat]) (d.beatRead P a.toNat 4) (by omega) (by omega) hf' he'
    refine ⟨t, ?_, ⟨hfr.trans htf, ht43.trans h43⟩, htm.trans hmem⟩
    have hr : Dev.readWords P (n + 1) age a (0, 0) ws d =
        Dev.readWords P n (d.beatRead P a.toNat 4).cycle (a + 4) (0, 0) (ws ++ [d.word a.toNat]) (d.beatRead P a.toNat 4) := by
      rw [Dev.readWords, if_pos h0, mgmtRead_pd P d ha hb he0]
      rfl
    have hw : (List.range n).map (fun i => (d.beatRead P a.toNat 4).word ((a + 4).toNat + 4 * i)) =
        (List.range n).map fun i => d.word (a.toNat + 4 * (i + 1)) := by
      refine List.map_congr_left fun i _ => ?_
      rw [h4, show a.toNat + 4 + 4 * i = a.toNat + 4 * (i + 1) by omega]
      exact word_congr fun j _ => by rw [Dev.byte, Dev.beatRead, hmem, Dev.byte]
    rw [hr, ht, hw, List.append_assoc, List.range_succ_eq_map, List.map_cons, List.map_map]
    rfl

/-! ### Words written -/

/-- A store moves the count of event 43 not (01 R22). -/
theorem store_seq43 (P : Part) (d : Dev) (a : Nat) (bs : List Byte) :
    ((d.store P a bs).ev.src[(43 : Fin 64)]).seq = (d.ev.src[(43 : Fin 64)]).seq := by
  have hw (n : Nat) (d : Dev) (w : Nat) : ((d.eccWrite1 P a n w).ev.src[(43 : Fin 64)]).seq = (d.ev.src[(43 : Fin 64)]).seq := by
    unfold Dev.eccWrite1
    split
    · rfl
    · split
      · split
        · rfl
        · exact raise_seq_ne _ _ (by decide)
      · exact raise_seq_ne _ _ (by decide)
      · rfl
  have hs (bs : List Byte) : ((d.storeAll P a bs).ev.src[(43 : Fin 64)]).seq = (d.ev.src[(43 : Fin 64)]).seq :=
    foldl_keeps (fun d => (d.ev.src[(43 : Fin 64)]).seq) _ (hw _) _ d
  unfold Dev.store
  split
  · rfl
  · split
    · exact hs _
    · exact hs _

/-- A word of PD is written whole (16 R367). -/
theorem mgmtWrite_pd (P : Part) (d : Dev) {a : Word} (v : Word) (ha : a.toNat % 4 = 0) (hb : a.toNat < 0x100000) (hl : P.halock = false) :
    d.mgmtWrite P a v = (0, d.store P a.toNat (wordBytes v)) := by
  have hr : regionOf P a.toNat = .pd := if_pos hb
  have hd : decodeBad P a.toNat 4 true = false := by
    unfold decodeBad
    rw [hr]
  have hh : d.haLocked P a.toNat = false := by
    unfold Dev.haLocked
    rw [hl]
    rfl
  unfold Dev.mgmtWrite
  dsimp only
  rw [if_neg (by simp [hh]), if_neg (by simp [ha, hd]), if_neg (by rw [hr]; decide)]

/-- The word of PD that a store writes is read there. -/
theorem word_store_pd (P : Part) (d : Dev) {a : Nat} (v : Word) (h : a < 0x100000) : (d.store P a (wordBytes v)).word a = v :=
  word_of_memPuts_wordBytes (store_mem_whole P d a _ (by rw [show regionOf P a = .pd from if_pos h]; decide) (if_neg (by omega)))

/-- The words of PD that a request writes, where each is granted (16 R367, R371). -/
theorem writeWords_pd (P : Part) (hl : P.halock = false) (vs : List Word) : ∀ (age : Nat) (a : Word) (d : Dev), d.coreOn = true → a.toNat % 4 = 0 →
    a.toNat + 4 * vs.length ≤ 0x100000 →
    (∀ i < vs.length, d.wordFree P (if i = 0 then age else d.cycle) (a + nword (4 * i)) true = true) →
    ∃ t, Dev.writeWords P vs age a (0, 0) d = ((0, 0), [], t) ∧ Steps43 d t ∧
      (∀ i (h : i < vs.length), t.word (a.toNat + 4 * i) = vs[i]) ∧ sameBytesBut d t a.toNat (4 * vs.length) := by
  induction vs with
  | nil => exact fun age a d _ _ _ _ => ⟨d, rfl, ⟨PdFrame.refl d, rfl⟩, nofun, fun _ _ => rfl⟩
  | cons v vs ih =>
    intro age a d hon ha hn hf
    rw [List.length_cons] at hn hf
    have hb : a.toNat < 0x100000 := by omega
    let e := d.store P a.toNat (wordBytes v)
    have hfr : PdFrame d e := pdFrame_store P d _ hb
    have hcyc : e.cycle = d.cycle := by rw [hfr]
    have hon' : e.coreOn = true := by rw [hfr]; exact hon
    have h0 : d.wordFree P age a true = true := by simpa [nword] using hf 0 (Nat.succ_pos _)
    obtain ⟨h4, haddr, hstep⟩ := nextWord (a := a) (n := vs.length) (by omega)
    have hf' : ∀ i < vs.length, e.wordFree P (if i = 0 then e.cycle else e.cycle) (a + 4 + nword (4 * i)) true = true := fun i hi => by
      rw [hstep, wordFree_frame hfr (by rw [haddr (i + 1) (by omega)]; omega), ite_self, hcyc]
      exact hf (i + 1) (by omega)
    obtain ⟨t, ht, ⟨htf, ht43⟩, hw, ho⟩ := ih e.cycle (a + 4) e hon' (by omega) (by omega) hf'
    have hr : Dev.writeWords P (v :: vs) age a (0, 0) d = Dev.writeWords P vs e.cycle (a + 4) (0, 0) e := by
      rw [Dev.writeWords, if_neg (by simp [hon]), if_pos h0, mgmtWrite_pd P d v ha hb hl]
      rfl
    rw [h4] at hw ho
    refine ⟨t, hr.trans ht, ⟨hfr.trans htf, ht43.trans (store_seq43 P d _ _)⟩, fun i hi => ?_, fun x hx => ?_⟩
    · match i with
      | 0 =>
        refine (word_congr fun j hj => ho _ (.inl (by omega))).trans (word_store_pd P d v hb)
      | i + 1 =>
        rw [show a.toNat + 4 * (i + 1) = a.toNat + 4 + 4 * i by omega]
        exact hw i (Nat.lt_of_succ_lt_succ hi)
    · rw [List.length_cons] at hx
      exact (ho x (by omega)).trans (byte_store_out P d _ (by simp only [wordBytes, List.length_cons, List.length_nil]; omega))

end Sys2Proof.Proofs.MgmtWords
end

section
/-!
Requests on VC 64 that the management executor takes (16 R367 to R371, 02 R41).
-/
namespace Sys2Proof.Proofs.MgmtRequests

open Sys2Proof.Machine Sys2Proof.Laws Sys2Proof.Proofs.Raise Sys2Proof.Proofs.LinkFrame Sys2Proof.Proofs.Words
  Sys2Proof.Proofs.Correlation Sys2Proof.Proofs.MgmtWords

/-! ### Messages staged and taken -/

/-- A link that leaves DEEP leaves the staged frames (10 R247). -/
theorem staged_linkWake (d : Dev) (k : LinkId) : (d.linkWake k).kl.staged = d.kl.staged := by
  have hb (d : Dev) (n : LaneId) (b : Block) : (d.sendBlock n b).kl.staged = d.kl.staged :=
    foldl_keeps (fun d => d.kl.staged) _ (fun _ _ => by rfl) _ d
  have hw (d : Dev) : (d.sendWake k).kl.staged = d.kl.staged := foldl_keeps (fun d => d.kl.staged) _ (fun d n => hb d n _) _ _
  unfold Dev.linkWake
  split
  · dsimp only
    split
    · exact (hw _).trans (foldl_keeps (fun d => d.kl.staged) _ (fun _ _ => by rfl) _ _)
    · exact foldl_keeps (fun d => d.kl.staged) _ (fun _ _ => by rfl) _ _
  · rfl

/-- A frame staged: it stands behind the others, cut to the link's MAXPAY, and its link wakes (10 R235, R247). -/
theorem stage_fields (d : Dev) (f : Staged) :
    d.stage f = { d with kl := (d.stage f).kl, out := (d.stage f).out } ∧
    (d.stage f).kl.staged = d.kl.staged ++ Staged.recut (d.payCap f.link) f.payload.length { f with age := d.cycle } := by
  let e := d.updKl fun k => { k with staged := k.staged ++ Staged.recut (d.payCap f.link) f.payload.length { f with age := d.cycle } }
  have h : d.stage f = if e.autoWake ∧ e.phase = .run then e.linkWake f.link else e := rfl
  rw [h]
  split
  · exact ⟨linkOnly_linkWake e f.link, staged_linkWake e f.link⟩
  · exact ⟨rfl, rfl⟩

/-- The frame of a message on VC 64 (16 R370). -/
def messageFrame (d : Dev) (k : LinkId) (mt : Nat) (tag : Word) (body : List Word) (ans : Bool) : Staged :=
  { link := k, vc := 64, typ := 2, srcDst := 0, more := false, age := d.cycle, line := none, answer := ans
    payload := ([place mt 0 ||| place (4 * body.length) 16, tag] ++ body).flatMap wordBytes }

/-- A message put up (16 R370). -/
theorem stageMsg_fields (d : Dev) (k : LinkId) (mt : Nat) (tag : Word) (body : List Word) (ans : Bool) :
    let t := d.stageMsg k mt tag body ans
    t = { d with kl := t.kl, out := t.out } ∧
    t.kl.staged = d.kl.staged ++ Staged.recut (d.payCap k) (messageFrame d k mt tag body ans).payload.length (messageFrame d k mt tag body ans) :=
  stage_fields d { messageFrame d k mt tag body ans with age := 0 }

/-- The units of a message freed leave all but the links' books (10 R236). -/
theorem dequeue_fields (d : Dev) (k : LinkId) (mt : Nat) (tag : Word) (body : List Word) :
    let t := d.dequeue k mt tag body
    t = { d with kl := t.kl } ∧ t.kl.staged = d.kl.staged ∧ ∀ j : LinkId, t.payCap j = d.payCap j := by
  have hu (d : Dev) (v : Fin 65) (k : LinkId) (u : Nat) : (d.freeUnits k v u) = { d with kl := (d.freeUnits k v u).kl } ∧
      (d.freeUnits k v u).kl.staged = d.kl.staged ∧ ∀ j : LinkId, (d.freeUnits k v u).payCap j = d.payCap j := by
    unfold Dev.freeUnits
    split
    · exact ⟨rfl, rfl, fun _ => rfl⟩
    · refine ⟨rfl, rfl, fun j => ?_⟩
      have hm : (((d.updLink k fun l => if l.still then { l with parked := l.parked ++ [(v, u)] } else l.free v u).kl.links)[j]).maxPay =
          ((d.kl.links)[j]).maxPay := by
        show ((upd d.kl.links k _)[j]).maxPay = _
        rw [upd_get]
        split
        · split <;> rfl
        · rfl
      rw [Dev.payCap, hm, Dev.payCap]
  unfold Dev.dequeue Dev.asMsg Dev.withMsg
  split
  · split
    · exact hu (d.updKl _) _ _ _
    · exact ⟨rfl, rfl, fun _ => rfl⟩
  · exact ⟨rfl, rfl, fun _ => rfl⟩

/-- The count of event 43. -/
def seq43 (d : Dev) : Half := (d.ev.src[(43 : Fin 64)]).seq

/-- What the service of a request leaves before its answer: all but memory, its marks, events and the links' books; and the staged frames,
the links' MAXPAY and the count of event 43. -/
structure Served (d t : Dev) : Prop where
  frame : t = { d with mem := t.mem, ecc := t.ecc, ev := t.ev, kl := t.kl }
  staged : t.kl.staged = d.kl.staged
  cap : ∀ j : LinkId, t.payCap j = d.payCap j
  seq : seq43 t = seq43 d

theorem Served.trans {d e t : Dev} (h : Served d e) (h' : Served e t) : Served d t :=
  ⟨h'.frame.trans (by rw [h.frame]), h'.staged.trans h.staged, fun j => (h'.cap j).trans (h.cap j), h'.seq.trans h.seq⟩

/-- Accesses in PD. -/
theorem served_steps {d t : Dev} (h : Steps43 d t) : Served d t := by
  obtain ⟨hf, hs⟩ := h
  unfold PdFrame at hf
  refine ⟨?_, ?_, fun j => ?_, hs⟩ <;> rw [hf]
  rfl

/-- A request that leaves the receive buffer. -/
theorem served_dequeue (d : Dev) (k : LinkId) (mt : Nat) (tag : Word) (body : List Word) : Served d (d.dequeue k mt tag body) := by
  obtain ⟨hf, hs, hc⟩ := dequeue_fields d k mt tag body
  refine ⟨?_, hs, hc, ?_⟩ <;> rw [hf]
  rfl

/-- A request that is kept stands in the receive buffer (16 R372, log 39). -/
theorem keepRequest_eq (P : Part) (d : Dev) (k : LinkId) (mt : Nat) (tag : Word) (body : List Word) :
    ∃ b, d.keepRequest P k mt tag body = { d with kl := { d.kl with inbox := b } } := by
  unfold Dev.keepRequest
  split
  · exact ⟨_, rfl⟩
  · exact ⟨d.kl.inbox, rfl⟩

/-- The answer to a request, cut to the link's MAXPAY (10 R235, 16 R370). -/
def Answers (d : Dev) (k : LinkId) (tag : Word) (t : Dev) (mt : Nat) (body : List Word) : Prop :=
  ∃ f : Staged, t.kl.staged = d.kl.staged ++ Staged.recut (d.payCap k) f.payload.length f ∧ f.link = k ∧ f.vc = 64 ∧ f.typ = 2 ∧
    f.answer = true ∧ f.payload = ([place mt 0 ||| place (4 * body.length) 16, tag] ++ body).flatMap wordBytes

/-- What an answered request shows: the answer, and beside it only what its service changed. -/
structure Answered (d e : Dev) (k : LinkId) (tag : Word) (t : Dev) (mt : Nat) (body : List Word) : Prop where
  ctx : t.ctx = d.ctx
  mem : t.mem = e.mem
  phase : t.phase = d.phase
  sys : t.sys = d.sys
  seq : seq43 t = seq43 d
  answers : Answers d k tag t mt body

/-- A service that leaves memory. -/
theorem Answered.of_mem {d e t : Dev} {k : LinkId} {tag : Word} {mt : Nat} {body : List Word} (h : Answered d e k tag t mt body)
    (hm : e.mem = d.mem) : Answered d d k tag t mt body := { h with mem := h.mem.trans hm }

/-- An answer put up after the service of its request (16 R370). -/
theorem answered {d e : Dev} (h : Served d e) (k : LinkId) (tag : Word) (mt : Nat) (body : List Word) :
    Answered d e k tag (e.stageMsg k mt tag body true) mt body := by
  obtain ⟨hf, hs⟩ := stageMsg_fields e k mt tag body true
  rw [h.staged, h.cap] at hs
  have ha : Answers d k tag (e.stageMsg k mt tag body true) mt body := ⟨_, hs, rfl, rfl, rfl, rfl, rfl⟩
  have hseq : seq43 e = seq43 d := h.seq
  refine ⟨?_, ?_, ?_, ?_, ?_, ha⟩
  · rw [hf, h.frame]
  · rw [hf]
  · rw [hf, h.frame]
  · rw [hf, h.frame]
  · rw [hf]
    exact hseq

/-- Event 43 (16 R371). -/
theorem mgmtMsg_fields {d : Dev} (mt : Nat) (h : d.coreOn = true) :
    d.mgmtMsg mt = { d with ev := (d.mgmtMsg mt).ev } ∧ seq43 (d.mgmtMsg mt) = seq43 d + 1 := by
  have ht : d.mgmtMsg mt = d.raise 43 (nword mt) := if_pos h
  rw [ht]
  exact ⟨raise_eq _ _ _, raise_seq_self _ _ (asleep_of_coreOn h)⟩

/-- Event 43 leaves contexts, memory and links (16 R371). -/
theorem mgmtMsg_keeps {d : Dev} (mt : Nat) (h : d.coreOn = true) : (d.mgmtMsg mt).ctx = d.ctx ∧ (d.mgmtMsg mt).mem = d.mem ∧
    (d.mgmtMsg mt).kl = d.kl ∧ seq43 (d.mgmtMsg mt) = seq43 d + 1 := by
  obtain ⟨hf, hs⟩ := mgmtMsg_fields mt h
  exact ⟨by rw [hf], by rw [hf], by rw [hf], hs⟩

/-- A read of the executor waits for its port and the NVM alone (01 R17, 14 R341). -/
theorem wordFree_read {P : Part} {d t : Dev} (h : PdFrame d t) (a : Word) (age : Nat) : t.wordFree P age a false = d.wordFree P age a false := by
  have hw (d : Dev) : d.wordFree P age a false = (!d.nvmWaits P a.toNat && d.grantable P (portOf (regionOf P a.toNat)) age .mgmt) := by
    unfold Dev.wordFree
    rw [Bool.false_and, Bool.not_false, Bool.and_true]
  rw [hw, hw, grantable_frame h]
  rw [h]
  rfl

/-! ### The requests -/

section Requests

variable {P : Part} {d : Dev} {k : LinkId} {tag : Word}

/-- An MRESP answers with the receiver's own address (16 R370). -/
theorem mresp_answered {e : Dev} (h : Served d e) (status : Nat) (data : List Word) (n : Nat) :
    Answered d e k tag (e.mresp P k tag status 0 data n) 3 ([place status 0 ||| place (d.ownAddr P) 8 ||| place n 16, 0] ++ data) := by
  have ho : e.ownAddr P = d.ownAddr P := by
    rw [h.frame]
    rfl
  unfold Dev.mresp
  rw [ho]
  exact answered h k tag 3 _

/-- The words that a request asks for, once it is taken and is for this device (16 R367). -/
theorem mread_body {w0 a : Word} (ht : d.takesRequest P k 1 tag [w0, a] = true) (ho : reqDev P w0 = d.ownAddr P) (h1 : 1 ≤ reqCount w0)
    (h64 : reqCount w0 ≤ 64) (hfresh : d.reqDone = (0, (0, 0), [])) :
    let r := Dev.readWords P (reqCount w0) d.inboxAsk a (0, 0) [] (d.keepRequest P k 1 tag [w0, a])
    d.mread P k tag [w0, a] = if r.2.2.1 ≠ 0 then r.2.2.2.noteDone (reqCount w0 - r.2.2.1) r.1 r.2.1
      else (r.2.2.2.dequeue k 1 tag [w0, a]).mresp P k tag r.1.1 r.1.2 r.2.1 (reqCount w0) := by
  have hok : reqOk 1 [w0, a] = true := by
    simp [reqOk, h1, h64]
  have ha : (List.drop 1 [w0, a]).headD 0 + nword (4 * 0) = a := by simp [nword]
  unfold Dev.mread
  dsimp only [List.headD_cons, List.drop_succ_cons, List.drop_zero]
  rw [if_neg (by simp [ht]), if_neg (by simp [ho]), if_neg (by simp [hok]), hfresh]
  simp only [ha, Nat.sub_zero]

/-- An MREAD of words of PD without uncorrectable errors answers with the words (16 R367, R371). -/
theorem mread_ok {w0 a : Word} (ht : d.takesRequest P k 1 tag [w0, a] = true) (ho : reqDev P w0 = d.ownAddr P) (h1 : 1 ≤ reqCount w0)
    (h64 : reqCount w0 ≤ 64) (hfresh : d.reqDone = (0, (0, 0), [])) (ha : a.toNat % 4 = 0) (hn : a.toNat + 4 * reqCount w0 ≤ 0x100000)
    (hf : ∀ i < reqCount w0, d.wordFree P (if i = 0 then d.inboxAsk else d.cycle) (a + nword (4 * i)) false = true)
    (he : ∀ i < reqCount w0, d.eccBad P (a.toNat + 4 * i) 4 = false) :
    Answered d d k tag (d.mread P k tag [w0, a]) 3 ([place 0 0 ||| place (d.ownAddr P) 8 ||| place (reqCount w0) 16, 0] ++
      (List.range (reqCount w0)).map fun i => d.word (a.toNat + 4 * i)) := by
  have hm := mread_body ht ho h1 h64 hfresh
  generalize reqCount w0 = n at *
  obtain ⟨b, hb⟩ := keepRequest_eq P d k 1 tag [w0, a]
  generalize d.keepRequest P k 1 tag [w0, a] = e at *
  have hfr : PdFrame d e := by rw [hb]; rfl
  have haddr (i : Nat) (hi : i < n) : (a + nword (4 * i)).toNat < 0x100000 := by
    rw [BitVec.toNat_add, nword, BitVec.toNat_ofNat]
    omega
  have hfree : ∀ i < n, e.wordFree P (if i = 0 then d.inboxAsk else e.cycle) (a + nword (4 * i)) false = true := fun i hi => by
    rw [wordFree_frame hfr (haddr i hi), show e.cycle = d.cycle by rw [hb]]
    exact hf i hi
  have hecc : ∀ i < n, e.eccBad P (a.toNat + 4 * i) 4 = false := fun i hi => by
    rw [hb]
    exact he i hi
  obtain ⟨t, hr, hs, hmem⟩ := readWords_pd P n d.inboxAsk a [] e ha hn hfree hecc
  have hw : (List.range n).map (fun i => e.word (a.toNat + 4 * i)) = (List.range n).map fun i => d.word (a.toNat + 4 * i) := by
    rw [hb]
    rfl
  rw [hr, hw] at hm
  have hserved : Served d (t.dequeue k 1 tag [w0, a]) :=
    (served_steps ⟨hfr.trans hs.1, hs.2.trans (by rw [hb])⟩).trans (served_dequeue t k 1 tag [w0, a])
  have hd : (t.dequeue k 1 tag [w0, a]).mem = d.mem := by
    rw [(dequeue_fields t k 1 tag [w0, a]).1, hmem, hb]
  rw [hm]
  exact (mresp_answered hserved 0 _ n).of_mem hd

/-- A request in front with nothing done keeps its progress where nothing is done (16 R367). -/
theorem noteDone_fresh {mt : Nat} {body : List Word} (ht : d.takesRequest P k mt tag body = true) (hfresh : d.reqDone = (0, (0, 0), [])) :
    (d.keepRequest P k mt tag body).noteDone 0 (0, 0) [] = d.keepRequest P k mt tag body := by
  unfold Dev.takesRequest at ht
  simp only [Bool.and_eq_true] at ht
  obtain ⟨⟨⟨⟨hon, hl⟩, -⟩, -⟩, -⟩ := ht
  unfold Dev.reqDone at hfresh
  unfold Dev.keepRequest
  cases hb : d.kl.inbox with
  | nil =>
    rw [if_pos (by simp [hon, hl])]
    rfl
  | cons x rest =>
    rw [hb] at hfresh
    obtain ⟨h1, h2⟩ := Prod.mk.inj hfresh
    obtain ⟨h2, h3⟩ := Prod.mk.inj h2
    rw [if_neg (by simp)]
    unfold Dev.noteDone
    rw [hb]
    dsimp only
    have hx : ({ x with did := 0, fail := (0, 0), got := [], nextAt := x.nextAt } : RxMsg) = x := by
      rw [← h2, ← h3, ← h1]
    rw [if_pos h1.symm, hx, ← hb]
    rfl

/-- A request whose first word has to wait stays in front with nothing done (01 R17). -/
theorem mread_waits {w0 a : Word} (ht : d.takesRequest P k 1 tag [w0, a] = true) (ho : reqDev P w0 = d.ownAddr P) (h1 : 1 ≤ reqCount w0)
    (h64 : reqCount w0 ≤ 64) (hfresh : d.reqDone = (0, (0, 0), [])) (hf : d.wordFree P d.inboxAsk a false = false) :
    d.mread P k tag [w0, a] = d.keepRequest P k 1 tag [w0, a] := by
  have hm := mread_body ht ho h1 h64 hfresh
  have hnote := noteDone_fresh ht hfresh
  generalize reqCount w0 = n at *
  obtain ⟨b, hb⟩ := keepRequest_eq P d k 1 tag [w0, a]
  generalize d.keepRequest P k 1 tag [w0, a] = e at *
  have hfr : PdFrame d e := by rw [hb]; rfl
  have hfe : e.wordFree P d.inboxAsk a false = false := (wordFree_read hfr a _).trans hf
  obtain ⟨m, rfl⟩ : ∃ m, n = m + 1 := ⟨n - 1, by omega⟩
  have hr : Dev.readWords P (m + 1) d.inboxAsk a (0, 0) [] e = ((0, 0), [], m + 1, e) := by
    rw [Dev.readWords, if_neg (by simp [hfe])]
  rw [hr] at hm
  rw [hm]
  dsimp only
  rw [if_pos (Nat.succ_ne_zero m), Nat.sub_self]
  exact hnote

/-- A request that is not well formed is answered with FORMAT and COUNT 0 (16 R370, log 36). -/
theorem format_answered {mt : Nat} {body : List Word} :
    Answered d d k tag ((d.dequeue k mt tag body).mresp P k tag 5 0 [] 0) 3 [place 5 0 ||| place (d.ownAddr P) 8 ||| place 0 16, 0] :=
  (mresp_answered (served_dequeue d k mt tag body) 5 [] 0).of_mem (by rw [(dequeue_fields d k mt tag body).1])

/-- An MREAD that is not well formed (16 R370, log 36). -/
theorem mread_format {w0 : Word} {vs : List Word} (ht : d.takesRequest P k 1 tag (w0 :: vs) = true) (ho : reqDev P w0 = d.ownAddr P)
    (h : reqCount w0 = 0 ∨ 64 < reqCount w0 ∨ vs.length ≠ 1) :
    d.mread P k tag (w0 :: vs) = (d.dequeue k 1 tag (w0 :: vs)).mresp P k tag 5 0 [] 0 := by
  have hok : reqOk 1 (w0 :: vs) = false := by
    have hn : ¬ (1 ≤ reqCount w0 ∧ reqCount w0 ≤ 64 ∧ vs.length + 1 = 2) := by omega
    simpa [reqOk] using hn
  unfold Dev.mread
  dsimp only [List.headD_cons]
  rw [if_neg (by simp [ht]), if_neg (by simp [ho]), if_pos (by simp [hok])]

/-- An MWRITE that is not well formed (16 R370, log 36). -/
theorem mwrite_format {w0 : Word} {vs : List Word} (ht : d.takesRequest P k 2 tag (w0 :: vs) = true) (ho : reqDev P w0 = d.ownAddr P)
    (h : reqCount w0 = 0 ∨ 64 < reqCount w0 ∨ vs.length ≠ reqCount w0 + 1) :
    d.mwrite P k tag (w0 :: vs) = (d.dequeue k 2 tag (w0 :: vs)).mresp P k tag 5 0 [] 0 := by
  have hok : reqOk 2 (w0 :: vs) = false := by
    have hn : ¬ (1 ≤ reqCount w0 ∧ reqCount w0 ≤ 64 ∧ vs.length + 1 = 2 + reqCount w0) := by omega
    simpa [reqOk] using hn
  unfold Dev.mwrite
  dsimp only [List.headD_cons]
  rw [if_neg (by simp [ht]), if_neg (by simp [ho]), if_pos (by simp [hok])]

/-- The words that a request writes, once it is taken and is for this device (16 R367). -/
theorem mwrite_body {w0 a : Word} {vs : List Word} (ht : d.takesRequest P k 2 tag (w0 :: a :: vs) = true) (ho : reqDev P w0 = d.ownAddr P)
    (h1 : 1 ≤ reqCount w0) (h64 : reqCount w0 ≤ 64) (hv : vs.length = reqCount w0) (hfresh : d.reqDone = (0, (0, 0), [])) {t : Dev}
    (hr : Dev.writeWords P vs d.inboxAsk a (0, 0) (d.keepRequest P k 2 tag (w0 :: a :: vs)) = ((0, 0), [], t)) (hon : t.coreOn = true) :
    d.mwrite P k tag (w0 :: a :: vs) = Dev.mgmtMsg (if bit w0 16 = true then t.dequeue k 2 tag (w0 :: a :: vs)
      else (t.dequeue k 2 tag (w0 :: a :: vs)).mresp P k tag 0 0 [] (reqCount w0)) 2 := by
  have hok : reqOk 2 (w0 :: a :: vs) = true := by
    have hn : 1 ≤ reqCount w0 ∧ reqCount w0 ≤ 64 ∧ vs.length + 1 + 1 = 2 + reqCount w0 := by omega
    simpa [reqOk, and_assoc] using hn
  have ha : (List.drop 1 (w0 :: a :: vs)).headD 0 + nword (4 * 0) = a := by simp [nword]
  have hd : List.drop (2 + 0) (w0 :: a :: vs) = vs := rfl
  unfold Dev.mwrite
  dsimp only [List.headD_cons]
  rw [if_neg (by simp [ht]), if_neg (by simp [ho]), if_neg (by simp [hok]), hfresh]
  simp only [ha, hd, hr]
  rw [if_neg (by simp [hon]), if_neg (by simp)]
  simp only [and_true]

/-- An MWRITE of words of PD stores them, raises event 43 and answers unless NORESP is set (16 R367, R371). -/
theorem mwrite_ok {w0 a : Word} {vs : List Word} (ht : d.takesRequest P k 2 tag (w0 :: a :: vs) = true) (ho : reqDev P w0 = d.ownAddr P)
    (h1 : 1 ≤ reqCount w0) (h64 : reqCount w0 ≤ 64) (hv : vs.length = reqCount w0) (hfresh : d.reqDone = (0, (0, 0), [])) (hl : P.halock = false)
    (ha : a.toNat % 4 = 0) (hn : a.toNat + 4 * reqCount w0 ≤ 0x100000)
    (hf : ∀ i < reqCount w0, d.wordFree P (if i = 0 then d.inboxAsk else d.cycle) (a + nword (4 * i)) true = true) :
    let t := d.mwrite P k tag (w0 :: a :: vs)
    t.ctx = d.ctx ∧ (∀ i (h : i < vs.length), t.word (a.toNat + 4 * i) = vs[i]) ∧ sameBytesBut d t a.toNat (4 * reqCount w0) ∧
    seq43 t = seq43 d + 1 ∧ (bit w0 16 = true → t.kl.staged = d.kl.staged) ∧
    (bit w0 16 = false → Answers d k tag t 3 [place 0 0 ||| place (d.ownAddr P) 8 ||| place (reqCount w0) 16, 0]) := by
  have hc : d.coreOn = true := by
    simp only [Dev.takesRequest, Bool.and_eq_true] at ht
    exact ht.1.1.1.1
  have hm := fun {t} => mwrite_body (t := t) ht ho h1 h64 hv hfresh
  rw [← hv] at hm hn hf ⊢
  obtain ⟨b, hb⟩ := keepRequest_eq P d k 2 tag (w0 :: a :: vs)
  generalize d.keepRequest P k 2 tag (w0 :: a :: vs) = e at *
  have hfr : PdFrame d e := by rw [hb]; rfl
  have haddr (i : Nat) (hi : i < vs.length) : (a + nword (4 * i)).toNat < 0x100000 := by
    rw [BitVec.toNat_add, nword, BitVec.toNat_ofNat]
    omega
  have hfree : ∀ i < vs.length, e.wordFree P (if i = 0 then d.inboxAsk else e.cycle) (a + nword (4 * i)) true = true := fun i hi => by
    rw [wordFree_frame hfr (haddr i hi), show e.cycle = d.cycle by rw [hb]]
    exact hf i hi
  obtain ⟨t, hr, hs, hword, hout⟩ := writeWords_pd P hl vs d.inboxAsk a e (by rw [hb]; exact hc) ha hn hfree
  have hsd : Served d t := served_steps ⟨hfr.trans hs.1, hs.2.trans (by rw [hb])⟩
  have hq : Served d (t.dequeue k 2 tag (w0 :: a :: vs)) := hsd.trans (served_dequeue t k 2 tag _)
  have hqm : (t.dequeue k 2 tag (w0 :: a :: vs)).mem = t.mem := by rw [(dequeue_fields t k 2 tag (w0 :: a :: vs)).1]
  have hword' (u : Dev) (hu : u.mem = t.mem) : (∀ i (h : i < vs.length), u.word (a.toNat + 4 * i) = vs[i]) ∧ sameBytesBut d u a.toNat (4 * vs.length) := by
    have hbyte (x : Nat) : u.byte x = t.byte x := by rw [Dev.byte, hu, Dev.byte]
    refine ⟨fun i h => (word_congr fun j _ => hbyte _).trans (hword i h), fun x hx => (hbyte x).trans ((hout x hx).trans ?_)⟩
    rw [Dev.byte, hb, Dev.byte]
  have hph : t.phase = d.phase := by rw [hsd.frame]
  have hcore {u : Dev} (hu : u.phase = d.phase) : u.coreOn = true := by rw [Dev.coreOn, hu]; exact hc
  rw [hm hr (hcore hph)]
  dsimp only
  cases hbit : bit w0 16 with
  | true =>
    rw [if_pos rfl]
    obtain ⟨hctx, hmem, hkl, hs43⟩ := mgmtMsg_keeps (d := t.dequeue k 2 tag (w0 :: a :: vs)) 2 (hcore (by rw [hq.frame]))
    obtain ⟨hw, ho⟩ := hword' _ (hmem.trans hqm)
    exact ⟨hctx.trans (by rw [hq.frame]), hw, ho, hs43.trans (by rw [hq.seq]), fun _ => by rw [hkl]; exact hq.staged, nofun⟩
  | false =>
    rw [if_neg (by simp)]
    have hans := mresp_answered (P := P) (k := k) (tag := tag) hq 0 [] vs.length
    obtain ⟨hctx, hmem, hkl, hs43⟩ := mgmtMsg_keeps 2 (hcore hans.phase)
    obtain ⟨hw, ho⟩ := hword' _ (hmem.trans (hans.mem.trans hqm))
    refine ⟨hctx.trans hans.ctx, hw, ho, hs43.trans (by rw [hans.seq]), nofun, fun _ => ?_⟩
    unfold Answers
    rw [hkl]
    exact hans.answers

/-! ### Requests of their own -/

/-- CAPS (16 R370). -/
theorem caps_answered (ht : d.takesRequest P k 6 tag [] = true) :
    Answered d d k tag (d.capsMsg P k tag) 6
      [P.id, P.caps, d.sys.boot, 0x0102, d.sys.supId, d.sys.lnkId, place (d.ownAddr P) 0 ||| place d.cas.len 4] := by
  obtain ⟨hf, -, -⟩ := dequeue_fields d k 6 tag []
  have hm : d.capsMsg P k tag = (d.dequeue k 6 tag []).stageMsg k 6 tag ((d.dequeue k 6 tag []).capsAnswer P) true := by
    unfold Dev.capsMsg
    exact if_neg (by simp [ht])
  have hc : (d.dequeue k 6 tag []).capsAnswer P = [P.id, P.caps, d.sys.boot, 0x0102, d.sys.supId, d.sys.lnkId,
      place (d.ownAddr P) 0 ||| place d.cas.len 4] := by
    rw [hf]
    rfl
  rw [hm, hc]
  exact (answered (served_dequeue d k 6 tag []) k tag 6 _).of_mem (by rw [hf])

/-- PING with a body of at most 64 bytes gives it back and raises event 43 (16 R370, R371). -/
theorem ping_answered {vs : List Word} (ht : d.takesRequest P k 7 tag vs = true) (hv : vs.length ≤ 16) :
    let t := d.pingMsg P k tag vs
    t.ctx = d.ctx ∧ sameBytes d t ∧ Answers d k tag t 7 vs ∧ seq43 t = seq43 d + 1 := by
  have hc : d.coreOn = true := by
    simp only [Dev.takesRequest, Bool.and_eq_true] at ht
    exact ht.1.1.1.1
  have hm : d.pingMsg P k tag vs = Dev.mgmtMsg ((d.dequeue k 7 tag vs).stageMsg k 7 tag vs true) 7 := by
    unfold Dev.pingMsg
    rw [if_neg (by simp [ht])]
    exact if_neg (Nat.not_lt.mpr hv)
  have ha := (answered (served_dequeue d k 7 tag vs) k tag 7 vs).of_mem (by rw [(dequeue_fields d k 7 tag vs).1])
  rw [hm]
  generalize Dev.stageMsg _ k 7 tag vs true = u at *
  obtain ⟨hf, hs⟩ := mgmtMsg_fields 7 (show u.coreOn = true by rw [Dev.coreOn, ha.phase]; exact hc)
  refine ⟨by rw [hf]; exact ha.ctx, fun x => by rw [Dev.byte, hf]; exact congrArg (memGet · x) ha.mem, ?_, hs.trans (by rw [ha.seq])⟩
  unfold Answers
  rw [hf]
  exact ha.answers

/-- PING with a longer body is discarded and counted (16 R370, log 36). -/
theorem ping_discarded {vs : List Word} (ht : d.takesRequest P k 7 tag vs = true) (hv : 16 < vs.length) :
    let t := d.pingMsg P k tag vs
    t.ctx = d.ctx ∧ sameBytes d t ∧ t.kl.staged = d.kl.staged ∧
    t.sys.discarded = if d.sys.discarded = 255 then 255 else d.sys.discarded + 1 := by
  obtain ⟨hf, hs, -⟩ := dequeue_fields d k 7 tag vs
  have hm : d.pingMsg P k tag vs = (d.dequeue k 7 tag vs).discardMsg := by
    unfold Dev.pingMsg
    rw [if_neg (by simp [ht])]
    exact if_pos hv
  rw [hm]
  unfold Dev.discardMsg
  refine ⟨?_, fun x => ?_, hs, ?_⟩ <;> rw [hf]
  all_goals rfl

/-! ### Credits -/

/-- The check of the credits moves no count of event 43 (02 R42). -/
theorem creditCheck_seq43 (d : Dev) (b : Option Nat) : seq43 (d.creditCheck b) = seq43 d := by
  unfold Dev.creditCheck
  dsimp only
  split
  · rfl
  · split
    · rfl
    · generalize (d.hng.lowArmed && _ && _) = b
      cases b
      · rfl
      · exact raise_seq_ne _ _ (by decide)

/-- A grant within the bound of a stream's credits (02 R41). -/
theorem grant_effect (d : Dev) (q : Fin 64) (a : Word) (ho : (d.hng.streams[q]).opened = true)
    (hb : (d.hng.streams[q]).avail.toNat + a.toNat ≤ 0xFFFFFF) :
    let t := (d.grant q a.toNat).2
    t = { d with hng := t.hng, ev := t.ev } ∧ seq43 t = seq43 d ∧ (t.hng.streams[q]).granted = (d.hng.streams[q]).granted + a ∧
    (t.hng.streams[q]).avail = (d.hng.streams[q]).avail + a ∧ ∀ j : Fin 64, j ≠ q → t.hng.streams[j] = d.hng.streams[j] := by
  have hk : min a.toNat (0xFFFFFF - (d.hng.streams[q]).avail.toNat) = a.toNat := by omega
  have ha : nword a.toNat = a := (BitVec.ofNat_toNat 32 a).trans (BitVec.setWidth_eq a)
  let x : Stream := { d.hng.streams[q] with
    granted := (d.hng.streams[q]).granted + a, avail := (d.hng.streams[q]).avail + a
    recent := (d.hng.streams[q]).recent + a.toNat
    newIn := (if (d.hng.streams[q]).newAt = d.cycle then (d.hng.streams[q]).newIn else 0) + a.toNat, newAt := d.cycle }
  obtain ⟨g, hg⟩ : ∃ g : Dev, g = d.updStream q fun _ => x := ⟨_, rfl⟩
  obtain ⟨c, hc⟩ : ∃ c : Dev, c = g.creditCheck d.cNow := ⟨_, rfl⟩
  have hgrant : (d.grant q a.toNat).2 = if c.cNow = some 0 then c else c.updHng fun h => { h with stopDue := none } := by
    unfold Dev.grant
    dsimp only
    rw [if_neg (by rw [ho]; decide), hk, if_neg (Nat.lt_irrefl _), ha, hc, hg]
    rfl
  have hcf : c = { g with hng := { g.hng with lowArmed := c.hng.lowArmed }, ev := c.ev } := by
    rw [hc]
    exact creditCheck_fields g d.cNow
  have hcd : c = { d with hng := c.hng, ev := c.ev } := by rw [hcf, hg]; rfl
  have hstr : c.hng.streams = upd d.hng.streams q fun _ => x := by rw [hcf, hg]; rfl
  have hseq : seq43 c = seq43 d := by rw [hc, creditCheck_seq43, hg]; rfl
  have hend : ∀ t : Dev, t = { d with hng := t.hng, ev := t.ev } → seq43 t = seq43 d → t.hng.streams = c.hng.streams →
      t = { d with hng := t.hng, ev := t.ev } ∧ seq43 t = seq43 d ∧ (t.hng.streams[q]).granted = (d.hng.streams[q]).granted + a ∧
      (t.hng.streams[q]).avail = (d.hng.streams[q]).avail + a ∧ ∀ j : Fin 64, j ≠ q → t.hng.streams[j] = d.hng.streams[j] :=
    fun t h1 h2 h3 => ⟨h1, h2, by rw [h3, hstr, upd_get_self], by rw [h3, hstr, upd_get_self],
      fun j hj => by rw [h3, hstr, upd_get_ne _ _ _ _ hj.symm]⟩
  dsimp only
  rw [hgrant]
  split
  · exact hend c hcd hseq rfl
  · refine hend _ ?_ hseq rfl
    rw [hcd]
    rfl

/-- CREDIT grants its pair to an open stream of this device and raises event 43 (16 R370, R371). -/
theorem creditMsg_own {w0 a : Word} (q : Fin 64) (ht : d.takesRequest P k 5 tag [w0, a] = true)
    (hown : (if P.casc then fld w0 8 4 else 0) = d.ownAddr P) (hq : fld w0 0 6 = q.val) :
    d.creditMsg P k tag [w0, a] = Dev.mgmtMsg (((d.dequeue k 5 tag [w0, a]).grant q a.toNat).2) 5 := by
  have how : (d.dequeue k 5 tag [w0, a]).ownAddr P = d.ownAddr P := by rw [(dequeue_fields d k 5 tag [w0, a]).1]; rfl
  have hqf : Fin.ofNat 64 (fld w0 0 6) = q := Fin.ext (by rw [hq]; exact Nat.mod_eq_of_lt q.isLt)
  unfold Dev.creditMsg
  rw [if_neg (by simp [ht])]
  simp only [creditPairs, List.filter_cons, List.filter_nil, how, hown, beq_self_eq_true, bne_self_eq_false, if_true,
    Bool.false_eq_true, if_false, List.foldl_cons, List.foldl_nil, List.isEmpty_nil, List.length_nil, hqf,
    List.isEmpty_cons, Bool.false_and]

/-- CREDIT to an open stream of this device: its books, event 43, and nothing else that a reader sees (16 R370, R371). -/
theorem credit_granted {w0 a : Word} (q : Fin 64) (ht : d.takesRequest P k 5 tag [w0, a] = true)
    (hown : (if P.casc then fld w0 8 4 else 0) = d.ownAddr P) (hq : fld w0 0 6 = q.val) (ho : (d.hng.streams[q]).opened = true)
    (hb : (d.hng.streams[q]).avail.toNat + a.toNat ≤ 0xFFFFFF) :
    let t := d.creditMsg P k tag [w0, a]
    (t.hng.streams[q]).granted = (d.hng.streams[q]).granted + a ∧ (t.hng.streams[q]).avail = (d.hng.streams[q]).avail + a ∧
    (∀ j : Fin 64, j ≠ q → t.hng.streams[j] = d.hng.streams[j]) ∧ seq43 t = seq43 d + 1 ∧ t.kl.staged = d.kl.staged ∧
    t.ctx = d.ctx ∧ sameBytes d t := by
  have hc : d.coreOn = true := by
    simp only [Dev.takesRequest, Bool.and_eq_true] at ht
    exact ht.1.1.1.1
  have hs := served_dequeue d k 5 tag [w0, a]
  have hh : (d.dequeue k 5 tag [w0, a]).hng = d.hng := by rw [hs.frame]
  have hm : (d.dequeue k 5 tag [w0, a]).mem = d.mem := by rw [(dequeue_fields d k 5 tag [w0, a]).1]
  obtain ⟨hg, hgs, hgr, hav, hoth⟩ := grant_effect (d.dequeue k 5 tag [w0, a]) q a (by rw [hh]; exact ho) (by rw [hh]; exact hb)
  dsimp only
  rw [creditMsg_own q ht hown hq]
  generalize ((d.dequeue k 5 tag [w0, a]).grant q a.toNat).2 = g at *
  obtain ⟨hf, hs43⟩ := mgmtMsg_fields (d := g) 5 (by rw [hg]; show Dev.coreOn _ = true; rw [Dev.coreOn]; rw [hs.frame]; exact hc)
  generalize g.mgmtMsg 5 = t at *
  have hth : t.hng = g.hng := by rw [hf]
  refine ⟨by rw [hth, hgr, hh], by rw [hth, hav, hh], fun j hj => by rw [hth, hoth j hj, hh], hs43.trans (by rw [hgs, hs.seq]), ?_, ?_, fun x => ?_⟩
  · rw [hf, hg]
    exact hs.staged
  · rw [hf, hg, hs.frame]
  · rw [Dev.byte, hf, hg]
    exact congrArg (memGet · x) hm

end Requests

/-- Settles O58: each request by the lemma of its message, in the order of 16 R370. -/
theorem managementRequests : Obligations.ManagementRequests := by
  unfold Obligations.ManagementRequests
  intro s k tag w0 a vs
  refine ⟨fun ht ho h1 h64 hp hf hfree he => ?_, fun ht ho h1 h64 hf hw => ?_, fun ht ho hbad => ?_, fun ht ho hbad => ?_,
    fun ht ho h1 h64 hp hf hfree hv hl => ?_, fun q ht hown hq hop hb => ?_, fun ht => ?_, fun ht hv => ?_, fun ht hv => ?_⟩
  · have h := mread_ok ht ho h1 h64 hf hp.1 hp.2 hfree he
    exact ⟨_, rfl, h.ctx, fun x => congrArg (memGet · x) h.mem, h.answers⟩
  · rw [← mread_waits ht ho h1 h64 hf hw]
    rfl
  · have h := format_answered (P := s.part) (d := s.dev) (k := k) (tag := tag) (mt := 1) (body := w0 :: vs)
    rw [← mread_format ht ho hbad] at h
    exact ⟨_, rfl, h.ctx, fun x => congrArg (memGet · x) h.mem, h.answers, h.seq⟩
  · have h := format_answered (P := s.part) (d := s.dev) (k := k) (tag := tag) (mt := 2) (body := w0 :: vs)
    rw [← mwrite_format ht ho hbad] at h
    exact ⟨_, rfl, h.ctx, fun x => congrArg (memGet · x) h.mem, h.answers, h.seq⟩
  · obtain ⟨hctx, hword, hout, hseq, hno, hans⟩ := mwrite_ok ht ho h1 h64 hv hf hl hp.1 hp.2 hfree
    exact ⟨_, rfl, hctx, hword, hout, hseq, hno, hans⟩
  · exact ⟨_, rfl, credit_granted q ht hown hq hop hb⟩
  · have h := caps_answered ht
    exact ⟨_, rfl, h.ctx, fun x => congrArg (memGet · x) h.mem, h.seq, h.answers⟩
  · exact ⟨_, rfl, ping_answered ht hv⟩
  · exact ⟨_, rfl, ping_discarded ht hv⟩

end Sys2Proof.Proofs.MgmtRequests
end

section
/-!
Cascade ingress at a master that assembles (13 R307, R308): data written beat by beat, the frame in front of the buffer, segments that end or
are late.
-/
namespace Sys2Proof.Proofs.Cascade

open Sys2Proof.Machine Sys2Proof.Laws Sys2Proof.Proofs.Scope Sys2Proof.Proofs.Raise Sys2Proof.Proofs.Words Sys2Proof.Proofs.Correlation
  Sys2Proof.Proofs.MgmtWords

/-! ### Bytes written -/

/-- Bytes written from an address on, and no other byte changed. -/
def Wrote (d t : Dev) (a : Nat) (bs : List Byte) : Prop :=
  ∀ x : Nat, t.byte x = if a ≤ x then (bs[x - a]?).getD (d.byte x) else d.byte x

theorem Wrote.nil (d : Dev) (a : Nat) : Wrote d d a [] := fun x => by simp

theorem Wrote.append {d e t : Dev} {a : Nat} {bs cs : List Byte} (h : Wrote d e a bs) (h' : Wrote e t (a + bs.length) cs) : Wrote d t a (bs ++ cs) := by
  intro x
  rw [h' x, h x]
  by_cases hx : a ≤ x
  · by_cases hl : a + bs.length ≤ x
    · rw [if_pos hl, if_pos hx, if_pos hx, List.getElem?_append_right (by omega), List.getElem?_eq_none (l := bs) (by omega),
        show x - (a + bs.length) = x - a - bs.length by omega]
      rfl
    · rw [if_neg hl, if_pos hx, if_pos hx, List.getElem?_append_left (by omega)]
  · rw [if_neg (by omega), if_neg hx, if_neg hx]

/-- The bytes written stand there. -/
theorem Wrote.bytes {d t : Dev} {a : Nat} {bs : List Byte} (h : Wrote d t a bs) : t.bytes a bs.length = bs := by
  refine List.ext_getElem (by simp [Dev.bytes]) fun i hi hb => ?_
  have := h (a + i)
  rw [if_pos (by omega), Nat.add_sub_cancel_left, List.getElem?_eq_getElem hb] at this
  simpa [Dev.bytes] using this

/-- Every other byte stays. -/
theorem Wrote.others {d t : Dev} {a : Nat} {bs : List Byte} (h : Wrote d t a bs) : sameBytesBut d t a bs.length := by
  intro x hx
  rw [h x]
  split
  · rw [List.getElem?_eq_none (by omega)]
    rfl
  · rfl

/-- A store whose bytes are all present. -/
theorem wrote_store (P : Part) (d : Dev) {a : Nat} (bs : List Byte) (hr : regionOf P a ≠ .lsAbsent) (hp : presentLen P a bs.length = bs.length) :
    Wrote d (d.store P a bs) a bs := by
  intro x
  by_cases hx : a ≤ x ∧ x < a + bs.length
  · obtain ⟨i, rfl⟩ := Nat.exists_eq_add_of_le hx.1
    have hi : i < bs.length := by omega
    rw [if_pos hx.1, Nat.add_sub_cancel_left, List.getElem?_eq_getElem hi, Dev.byte, store_mem_whole P d a bs hr hp, memGet_memPuts_in _ _ _ _ hi]
    rfl
  · rw [byte_store_out P d bs (by omega)]
    split
    · rw [List.getElem?_eq_none (by omega)]
      rfl
    · rfl

/-! ### Beats in the line store -/

/-- What ingress changes beside its buffer: memory, its marks and the events. -/
def Stored (d t : Dev) : Prop := t = { d with mem := t.mem, ecc := t.ecc, ev := t.ev }

theorem Stored.refl (d : Dev) : Stored d d := rfl

theorem Stored.trans {d e t : Dev} (h : Stored d e) (h' : Stored e t) : Stored d t := by
  unfold Stored at *
  exact h'.trans (by rw [h])

/-- The addresses of the line store a part has (03 R68). -/
theorem regionOf_ls_iff (P : Part) (a : Nat) : regionOf P a = .ls ↔ 0x2000000 ≤ a ∧ a < 0x2000000 + P.lsBytes := by
  have := lsBytes_le P
  unfold regionOf
  repeat' split
  all_goals
    simp only [reduceCtorEq, false_iff, true_iff]
    omega

/-- A range of the line store that a store finds whole. -/
theorem store_ls (P : Part) (d : Dev) {a : Nat} {bs : List Byte} (hb : bs ≠ []) (h : ∀ i < bs.length, regionOf P (a + i) = .ls) :
    Stored d (d.store P a bs) ∧ Wrote d (d.store P a bs) a bs := by
  have hpos : 0 < bs.length := List.length_pos_iff.mpr hb
  have h0 := h 0 hpos
  have h1 := (regionOf_ls_iff P _).mp (h (bs.length - 1) (by omega))
  have hr : regionOf P a ≠ .lsAbsent := by
    rw [← Nat.add_zero a, h0]
    decide
  have hp : presentLen P a bs.length = bs.length := by
    unfold presentLen
    split
    · omega
    · rfl
  exact ⟨store_frame P d bs hr hp, wrote_store P d bs hr hp⟩

/-- A burst of beats in the line store writes what it reaches, at least one beat and up to its last (01 R17, R18, 03 R76). -/
theorem ingressBeats_ls (P : Part) (fuel : Nat) : ∀ (d : Dev) (a : Nat) (bs : List Byte), (∀ i < bs.length, regionOf P (a + i) = .ls) →
    ∃ k t, Dev.ingressBeats P fuel d a bs = (bs.drop k, t) ∧ k ≤ bs.length ∧ Stored d t ∧ Wrote d t a (bs.take k) ∧
      (bs.length ≤ 16 * fuel - a % 16 → k = bs.length) ∧ (fuel ≠ 0 → bs ≠ [] → 0 < k) := by
  induction fuel with
  | zero =>
    intro d a bs _
    exact ⟨0, d, rfl, Nat.zero_le _, Stored.refl d, Wrote.nil d a, fun h => by omega, fun h => absurd rfl h⟩
  | succ fuel ih =>
    intro d a bs h
    unfold Dev.ingressBeats
    dsimp only
    by_cases hb : bs = []
    · subst hb
      exact ⟨0, d, rfl, Nat.zero_le _, Stored.refl d, Wrote.nil d a, fun _ => rfl, fun _ h => absurd rfl h⟩
    · have hpos : 0 < bs.length := List.length_pos_iff.mpr hb
      have hls : regionOf P a = .ls := h 0 hpos
      have hl := lsBytes_le P
      have hae := (regionOf_ls_iff P a).mp hls
      have he : (egressStream a).isSome = false := by
        unfold egressStream
        rw [if_neg (by omega)]
        rfl
      rw [if_neg hb, if_neg (by simp [he]), if_pos (by rw [hls]; rfl)]
      obtain ⟨n, hn⟩ : ∃ n, n = 16 - a % 16 := ⟨_, rfl⟩
      rw [← hn]
      have htl : (bs.take n).length = min n bs.length := List.length_take
      have hst := store_ls P d (a := a) (bs := bs.take n) (List.length_pos_iff.mp (by omega)) fun i hi => h i (by omega)
      have hnext : ∀ i < (bs.drop n).length, regionOf P (a + n + i) = .ls := fun i hi => by
        rw [List.length_drop] at hi
        rw [Nat.add_assoc]
        exact h (n + i) (by omega)
      obtain ⟨k, t, hr, hk, hs, hw, hall, hsome⟩ := ih (d.store P a (bs.take n)) (a + n) (bs.drop n) hnext
      rw [List.length_drop] at hk hall
      by_cases hlast : bs.length ≤ n
      · have hd : bs.drop n = [] := List.drop_eq_nil_of_le hlast
        rw [hd] at hr hw
        rw [List.take_nil] at hw
        refine ⟨bs.length, t, ?_, Nat.le_refl _, hst.1.trans hs, ?_, fun _ => rfl, fun _ _ => hpos⟩
        · rw [hd, hr, List.drop_nil, List.drop_length]
        · have := hst.2.append (cs := []) (fun x => by rw [hw x]; simp)
          rwa [List.append_nil, List.take_of_length_le hlast, ← List.take_length (l := bs)] at this
      · refine ⟨n + k, t, ?_, by omega, hst.1.trans hs, ?_, fun hle => ?_, fun _ _ => by omega⟩
        · rw [hr, List.drop_drop]
        · rw [List.take_add]
          exact hst.2.append (by rw [htl, Nat.min_eq_left (by omega)]; exact hw)
        · have := hall (by omega)
          omega

/-! ### Bursts -/

/-- What cascade ingress asks of its port before a burst (01 R17, 03 R76). -/
def mayWrite (P : Part) (d : Dev) (age a : Nat) : Bool :=
  !d.frozen .cascIn && (!reaches .cascIn (regionOf P a) || d.grantable P (portOf (regionOf P a)) age .cascIn)

/-- Its grant does not depend on what it has written (01 R17). -/
theorem grantable_stored {P : Part} {d t : Dev} (h : Stored d t) (p : Port) (age : Nat) : t.grantable P p age .cascIn = d.grantable P p age .cascIn := by
  rw [h]
  exact grantable_pdChange P d _ _ _ _ d.kl.casIn p age (.inr ⟨rfl, rfl⟩)

/-- Nor on the frames that wait in its buffer (01 R17). -/
theorem grantable_casIn (P : Part) (d : Dev) (c : List RxMsg) (p : Port) (age : Nat) :
    ({ d with kl := { d.kl with casIn := c } } : Dev).grantable P p age .cascIn = d.grantable P p age .cascIn :=
  grantable_pdChange P d _ _ _ _ c p age (.inr ⟨rfl, rfl⟩)

/-- Bursts in the line store that are granted write the data whole (01 R17, 13 R308). -/
theorem inBursts_ls (P : Part) (fuel : Nat) : ∀ (age : Nat) (d : Dev) (a : Nat) (bs : List Byte), bs.length < fuel →
    (∀ i < bs.length, regionOf P (a + i) = .ls) → d.frozen .cascIn = false → d.grantable P .ls age .cascIn = true →
    (bs.length ≤ 256 - a % 16 ∨ d.grantable P .ls d.cycle .cascIn = true) →
    ∃ t, Dev.inBursts (mayWrite P) (Dev.ingressBeats P 16) fuel age d a bs = ([], t) ∧ Stored d t ∧ Wrote d t a bs := by
  induction fuel with
  | zero => exact fun _ _ _ _ h => absurd h (Nat.not_lt_zero _)
  | succ fuel ih =>
    intro age d a bs hf h hz hg hmore
    unfold Dev.inBursts
    by_cases hb : bs = []
    · subst hb
      exact ⟨d, rfl, Stored.refl d, Wrote.nil d a⟩
    · have hpos : 0 < bs.length := List.length_pos_iff.mpr hb
      have hls : regionOf P a = .ls := h 0 hpos
      have hgo : mayWrite P d age a = true := by
        unfold mayWrite
        rw [hz, hls, show portOf .ls = .ls from rfl, hg]
        rfl
      obtain ⟨k, t, hr, hk, hs, hw, hall, hsome⟩ := ingressBeats_ls P 16 d a bs h
      have hk0 := hsome (by decide) hb
      rw [if_neg (by simp [hb, hgo]), hr]
      dsimp only
      have hlen : (bs.drop k).length = bs.length - k := List.length_drop
      have hstep : a + (bs.length - (bs.drop k).length) = a + k := by omega
      rw [hstep]
      have hcycle : t.cycle = d.cycle := by rw [hs]
      have hgrant : k < bs.length → t.grantable P .ls t.cycle .cascIn = true := fun hlt => by
        rw [grantable_stored hs, hcycle]
        exact hmore.resolve_left fun hle => by omega
      have hjoin {u : Dev} (hu : Wrote t u (a + k) (bs.drop k)) : Wrote d u a bs := by
        have := hw.append (cs := bs.drop k) (by rw [List.length_take, Nat.min_eq_left hk]; exact hu)
        rwa [List.take_append_drop] at this
      by_cases hlt : k < bs.length
      · have hnext : ∀ i < (bs.drop k).length, regionOf P (a + k + i) = .ls := fun i hi => by
          rw [Nat.add_assoc]
          exact h (k + i) (by omega)
        have hfz : t.frozen .cascIn = false := by
          rw [hs]
          exact hz
        obtain ⟨u, hru, hsu, hwu⟩ := ih t.cycle t (a + k) (bs.drop k) (by omega) hnext hfz (hgrant hlt) (.inr (hgrant hlt))
        exact ⟨u, hru, hs.trans hsu, hjoin hwu⟩
      · have hd : bs.drop k = [] := List.drop_eq_nil_of_le (Nat.le_of_not_lt hlt)
        rw [hd] at hjoin ⊢
        refine ⟨t, ?_, hs, hjoin (Wrote.nil t _)⟩
        cases fuel <;> rfl

/-- A first burst that is not granted writes nothing (01 R17). -/
theorem inBursts_waits (P : Part) (fuel : Nat) {age : Nat} {d : Dev} {a : Nat} (bs : List Byte) (h : mayWrite P d age a = false) :
    Dev.inBursts (mayWrite P) (Dev.ingressBeats P 16) fuel age d a bs = (bs, d) := by
  cases fuel with
  | zero => rfl
  | succ fuel =>
    unfold Dev.inBursts
    rw [if_pos (by simp [h])]

/-- Beats in an egress window are appended to no line (log 89). -/
theorem ingressBeats_egress (P : Part) (fuel : Nat) : ∀ (d : Dev) (a : Nat) (bs : List Byte), (∀ i < bs.length, (egressStream (a + i)).isSome = true) →
    ∃ k ≤ bs.length, Dev.ingressBeats P fuel d a bs = (bs.drop k, d) := by
  induction fuel with
  | zero => exact fun d a bs _ => ⟨0, Nat.zero_le _, rfl⟩
  | succ fuel ih =>
    intro d a bs h
    unfold Dev.ingressBeats
    dsimp only
    by_cases hb : bs = []
    · subst hb
      exact ⟨0, Nat.le_refl _, rfl⟩
    · have he : (egressStream a).isSome = true := h 0 (List.length_pos_iff.mpr hb)
      rw [if_neg hb, if_pos he]
      obtain ⟨k, hk, hr⟩ := ih d (a + (16 - a % 16)) (bs.drop (16 - a % 16)) fun i hi => by
        rw [List.length_drop] at hi
        rw [Nat.add_assoc]
        exact h _ (by omega)
      rw [List.length_drop] at hk
      rw [hr, List.drop_drop]
      by_cases hn : 16 - a % 16 + k ≤ bs.length
      · exact ⟨_, hn, rfl⟩
      · refine ⟨bs.length, Nat.le_refl _, ?_⟩
        rw [List.drop_eq_nil_of_le (by omega), List.drop_length]

/-- Nor do bursts there change anything (log 89). -/
theorem inBursts_egress (P : Part) (fuel : Nat) : ∀ (age : Nat) (d : Dev) (a : Nat) (bs : List Byte),
    (∀ i < bs.length, (egressStream (a + i)).isSome = true) →
    ∃ rest, Dev.inBursts (mayWrite P) (Dev.ingressBeats P 16) fuel age d a bs = (rest, d) := by
  induction fuel with
  | zero => exact fun _ _ _ bs _ => ⟨bs, rfl⟩
  | succ fuel ih =>
    intro age d a bs h
    unfold Dev.inBursts
    split
    · exact ⟨bs, rfl⟩
    · obtain ⟨k, hk, hr⟩ := ingressBeats_egress P 16 d a bs h
      rw [hr]
      dsimp only
      refine ih d.cycle d _ (bs.drop k) fun i hi => ?_
      rw [List.length_drop] at hi ⊢
      rw [Nat.add_assoc]
      exact h _ (by omega)

/-- A beat that ingress cannot reach freezes it, and it writes no more (03 R76, R78). -/
theorem inBursts_freezes (P : Part) (fuel : Nat) (age : Nat) (d : Dev) (a : Nat) {bs : List Byte} (hb : bs ≠ []) (hz : d.frozen .cascIn = false)
    (he : egressStream a = none) (hr : reaches .cascIn (regionOf P a) = false)
    (hfz : (d.freezeMst P .cascIn 0x0A 0 { addr := nword a, size := 16, write := true } 0).frozen .cascIn = true) :
    ∃ rest, Dev.inBursts (mayWrite P) (Dev.ingressBeats P 16) (fuel + 1) age d a bs =
      (rest, d.freezeMst P .cascIn 0x0A 0 { addr := nword a, size := 16, write := true } 0) := by
  have hgo : mayWrite P d age a = true := by
    unfold mayWrite
    rw [hz, hr]
    rfl
  have hbeat : Dev.ingressBeats P 16 d a bs =
      (bs.drop (16 - a % 16), d.freezeMst P .cascIn 0x0A 0 { addr := nword a, size := 16, write := true } 0) := by
    unfold Dev.ingressBeats
    dsimp only
    rw [if_neg hb, if_neg (by simp [he]), if_neg (by simp [hr])]
  unfold Dev.inBursts
  rw [if_neg (by simp [hb, hgo]), hbeat]
  exact ⟨_, inBursts_waits P fuel _ (by unfold mayWrite; rw [hfz]; rfl)⟩

/-! ### The frame in front of the buffer -/

/-- Units freed change the link's books alone (10 R236). -/
theorem freeUnits_fields (d : Dev) (k : LinkId) (v : Fin 65) (u : Nat) :
    d.freeUnits k v u = { d with kl := { d.kl with links := (d.freeUnits k v u).kl.links } } := by
  unfold Dev.freeUnits
  split <;> rfl

/-- What becomes of the frame in front: what is left of it stays, or its units are freed (10 R236). -/
def leaveFront (m : RxMsg) (r : Option RxMsg × Dev) : Dev :=
  match r.1 with
  | some x => r.2.updKl fun k => { k with casIn := x :: k.casIn }
  | none => r.2.freeUnits m.link 64 m.units

/-- The device while the frame in front is served. -/
def takenFront (d : Dev) : Dev := d.updKl fun k => { k with casIn := d.kl.casIn.tail }

/-- A command of CASCADE acts on the frame in front, or on the one that arrives (10 R236, log 39). -/
theorem withCasc_front {d : Dev} {mine : RxMsg → Bool} (fresh : RxMsg) (f : RxMsg → Dev → Option RxMsg × Dev) (h : d.kl.casIn.head?.all mine = true) :
    d.withCasc mine fresh f = leaveFront (d.kl.casIn.head?.getD fresh) (f (d.kl.casIn.head?.getD fresh) (takenFront d)) := by
  unfold Dev.withCasc takenFront
  cases hc : d.kl.casIn with
  | nil => rfl
  | cons x rest =>
    rw [hc] at h
    have hx : mine x = true := h
    dsimp only
    rw [if_pos hx]
    rfl

/-- What is left of a frame, or its units, stand in the links' books alone. -/
theorem leaveFront_fields (m : RxMsg) (r : Option RxMsg × Dev) :
    leaveFront m r = { r.2 with kl := (leaveFront m r).kl } ∧ (leaveFront m r).kl.opened = r.2.kl.opened := by
  unfold leaveFront
  split
  · exact ⟨rfl, rfl⟩
  · rw [freeUnits_fields]
    exact ⟨rfl, rfl⟩

section Slotwrite

variable {P : Part} {d : Dev} {src : BitVec 4} {off line : Word} {data : List Byte} {n : Fin 256}

/-- The SLOTWRITE in front or arriving (13 R307). -/
def frontOf (d : Dev) (kind : Nat) (src : BitVec 4) (off line : Word) (data : List Byte) : RxMsg :=
  d.kl.casIn.head?.getD (cascadeMsg d kind src off line data)

/-- A frame's SLOTWRITE as the front command names it. -/
def isSlotwrite (src : BitVec 4) (off line : Word) (data : List Byte) (m : RxMsg) : Bool :=
  cascadeIs m 2 src line && cpWord m.raw 1 == off && m.raw.drop 16 == data

/-- What is left of the frame after its bursts (03 R78). -/
def slotwriteEnd (P : Part) (e : Dev) (m : RxMsg) (off : Word) (data : List Byte) (n : Fin 256) : Option RxMsg × Dev :=
  let r := Dev.inBursts (mayWrite P) (Dev.ingressBeats P 16) (data.length + 1) (max m.age m.nextAt) e (e.slotBase n.val + off.toNat + m.did) (data.drop m.did)
  let did := data.length - r.1.length
  if r.1 ≠ [] then (some { m with did := did, nextAt := if did = m.did then m.nextAt else r.2.cycle }, r.2) else (none, r.2)

/-- SLOTWRITE for a slot in FILL (13 R308). -/
theorem slotwriteRx_fill (hz : d.frozen .cascIn = false) (hm : d.kl.casIn.head?.all (isSlotwrite src off line data) = true) (hn : d.fillSlot line = some n) :
    d.slotwriteRx P (fun d age a => d.grantable P (portOf (regionOf P a)) age .cascIn) src off line data =
      leaveFront (frontOf d 2 src off line data) (slotwriteEnd P (takenFront d) (frontOf d 2 src off line data) off data n) := by
  unfold Dev.slotwriteRx
  dsimp only
  rw [if_neg (by rw [hz]; decide)]
  refine (withCasc_front _ _ hm).trans (congrArg (leaveFront _) ?_)
  show (match d.fillSlot line with | some n => _ | none => _) = _
  rw [hn]
  rfl

/-- SLOTWRITE for no such slot (13 R308). -/
theorem slotwriteRx_lost (hz : d.frozen .cascIn = false) (hm : d.kl.casIn.head?.all (isSlotwrite src off line data) = true) (hn : d.fillSlot line = none) :
    d.slotwriteRx P (fun d age a => d.grantable P (portOf (regionOf P a)) age .cascIn) src off line data =
      leaveFront (frontOf d 2 src off line data) (none, (takenFront d).segLost) := by
  unfold Dev.slotwriteRx
  dsimp only
  rw [if_neg (by rw [hz]; decide)]
  refine (withCasc_front _ _ hm).trans (congrArg (leaveFront _) ?_)
  show (match d.fillSlot line with | some n => _ | none => _) = _
  rw [hn]

/-- A granted SLOTWRITE in the line store puts its bytes there, and nothing else changes (13 R308). -/
theorem slotwrite_writes (hz : d.frozen .cascIn = false) {m : RxMsg} {a : Nat}
    (hls : ∀ i < data.length - m.did, regionOf P (a + i) = .ls) (ha : a = d.slotBase n.val + off.toNat + m.did)
    (hg : d.grantable P .ls (max m.age m.nextAt) .cascIn = true)
    (hmore : data.length - m.did ≤ 256 - a % 16 ∨ d.grantable P .ls d.cycle .cascIn = true) :
    let t := leaveFront m (slotwriteEnd P (takenFront d) m off data n)
    t.bytes a (data.length - m.did) = data.drop m.did ∧ sameBytesBut d t a (data.length - m.did) ∧ t.ls = d.ls ∧ t.ctx = d.ctx := by
  subst ha
  have hlen : (data.drop m.did).length = data.length - m.did := List.length_drop
  obtain ⟨t, hr, hs, hw⟩ := inBursts_ls P (data.length + 1) (max m.age m.nextAt) (takenFront d) (d.slotBase n.val + off.toNat + m.did)
    (data.drop m.did) (by omega) (by rw [hlen]; exact hls) hz ((grantable_casIn P d _ _ _).trans hg)
    (by rw [hlen]; exact hmore.imp_right ((grantable_casIn P d _ _ _).trans ·))
  have hend : slotwriteEnd P (takenFront d) m off data n = (none, t) := by
    unfold slotwriteEnd
    rw [show (takenFront d).slotBase n.val = d.slotBase n.val from rfl, hr]
    rfl
  rw [hend]
  obtain ⟨hf, -⟩ := leaveFront_fields m (none, t)
  rw [hf]
  rw [← hlen]
  refine ⟨hw.bytes, hw.others, ?_, ?_⟩ <;> rw [hs] <;> rfl

/-- A SLOTWRITE whose first burst is not granted stays in front as it is (01 R17). -/
theorem slotwrite_waits {m : RxMsg} {rest : List RxMsg} (hc : d.kl.casIn = m :: rest) (hdid : m.did < data.length)
    (hls : regionOf P (d.slotBase n.val + off.toNat + m.did) = .ls) (hg : d.grantable P .ls (max m.age m.nextAt) .cascIn = false) :
    leaveFront m (slotwriteEnd P (takenFront d) m off data n) = d := by
  have hgf : (takenFront d).grantable P .ls (max m.age m.nextAt) .cascIn = false := (grantable_casIn P d _ _ _).trans hg
  have hgo : mayWrite P (takenFront d) (max m.age m.nextAt) (d.slotBase n.val + off.toNat + m.did) = false := by
    unfold mayWrite
    rw [hls, show portOf .ls = .ls from rfl, hgf]
    exact Bool.and_false _
  have hlen : (data.drop m.did).length = data.length - m.did := List.length_drop
  have hend : slotwriteEnd P (takenFront d) m off data n = (some m, takenFront d) := by
    unfold slotwriteEnd
    rw [show (takenFront d).slotBase n.val = d.slotBase n.val from rfl, inBursts_waits P _ _ hgo]
    dsimp only
    rw [if_pos (List.length_pos_iff.mp (by omega)), show data.length - (data.drop m.did).length = m.did by omega, if_pos rfl]
  rw [hend]
  unfold leaveFront takenFront
  rw [hc]
  show { d with kl := { d.kl with casIn := m :: rest } } = d
  rw [← hc]

/-- A SLOTWRITE into an egress window (log 89). -/
theorem slotwrite_egress (hz : d.frozen .cascIn = false) {m : RxMsg}
    (he : ∀ i < data.length - m.did, (egressStream (d.slotBase n.val + off.toNat + m.did + i)).isSome = true) :
    let t := leaveFront m (slotwriteEnd P (takenFront d) m off data n)
    t.frozen .cascIn = false ∧ t.ls = d.ls ∧ t.ctx = d.ctx ∧ t.kl.opened = d.kl.opened ∧ sameBytes d t := by
  obtain ⟨rest, hr⟩ := inBursts_egress P (data.length + 1) (max m.age m.nextAt) (takenFront d) (d.slotBase n.val + off.toNat + m.did)
    (data.drop m.did) (by rw [List.length_drop]; exact he)
  have hend : (slotwriteEnd P (takenFront d) m off data n).2 = takenFront d := by
    unfold slotwriteEnd
    rw [show (takenFront d).slotBase n.val = d.slotBase n.val from rfl, hr]
    dsimp only
    split <;> rfl
  obtain ⟨hf, ho⟩ := leaveFront_fields m (slotwriteEnd P (takenFront d) m off data n)
  rw [hend] at hf ho
  dsimp only
  rw [hf]
  exact ⟨hz, rfl, rfl, ho, fun _ => rfl⟩

/-- A SLOTWRITE at a beat that cascade ingress cannot reach (03 R76). -/
theorem slotwrite_freezes (hz : d.frozen .cascIn = false) {m : RxMsg} (hdid : m.did < data.length)
    (he : egressStream (d.slotBase n.val + off.toNat + m.did) = none)
    (hr : reaches .cascIn (regionOf P (d.slotBase n.val + off.toNat + m.did)) = false) (hrec : ∀ r ∈ d.recordsNow, r.1 ≤ 81) :
    let t := leaveFront m (slotwriteEnd P (takenFront d) m off data n)
    t.frozen .cascIn = true ∧ t.ls = d.ls ∧ t.ctx = d.ctx ∧ sameBytesBut d t (0x3000000 + 32 * d.sys.frW.toNat) 32 := by
  have hlen : (data.drop m.did).length = data.length - m.did := List.length_drop
  have hfz (x : Access) : ((takenFront d).freezeMst P .cascIn 0x0A 0 x 0).frozen .cascIn = true ∧
      ((takenFront d).freezeMst P .cascIn 0x0A 0 x 0).ls = d.ls ∧ ((takenFront d).freezeMst P .cascIn 0x0A 0 x 0).ctx = d.ctx ∧
      sameBytesBut d ((takenFront d).freezeMst P .cascIn 0x0A 0 x 0) (0x3000000 + 32 * d.sys.frW.toNat) 32 := by
    unfold Dev.freezeMst
    refine ⟨?_, ?_, ?_, fun a ha => ?_⟩
    · unfold Dev.frozen
      simp only [record_fields, mnum]
      simp
    · simp only [record_fields]
      rfl
    · simp only [record_fields]
      rfl
    · exact record_byte P _ _ _ _ _ _ _ _ _ a (recordsNow_above_nil hrec) ha
  obtain ⟨rest, hb⟩ := inBursts_freezes P data.length (max m.age m.nextAt) (takenFront d) (d.slotBase n.val + off.toNat + m.did)
    (bs := data.drop m.did) (List.length_pos_iff.mp (by omega)) hz he hr (hfz _).1
  obtain ⟨h1, h2, h3, h4⟩ := hfz { addr := nword (d.slotBase n.val + off.toNat + m.did), size := 16, write := true }
  generalize (takenFront d).freezeMst P .cascIn 0x0A 0 _ 0 = e at *
  have hend : (slotwriteEnd P (takenFront d) m off data n).2 = e := by
    unfold slotwriteEnd
    rw [show (takenFront d).slotBase n.val = d.slotBase n.val from rfl, hb]
    dsimp only
    split <;> rfl
  obtain ⟨hf, -⟩ := leaveFront_fields m (slotwriteEnd P (takenFront d) m off data n)
  rw [hend] at hf
  dsimp only
  rw [hf]
  exact ⟨h1, h2, h3, h4⟩

end Slotwrite

/-! ### Segments lost and ended -/

/-- A segment for no slot in FILL: SEGLOST and event 45 (13 R308). -/
theorem segLost_left (d : Dev) (hc : d.coreOn = true) (m : RxMsg) :
    let t := leaveFront m (none, (takenFront d).segLost)
    t.cas.segLost = true ∧ (t.ev.src[(45 : Fin 64)]).seq = (d.ev.src[(45 : Fin 64)]).seq + 1 ∧ t.ls = d.ls ∧ t.ctx = d.ctx ∧ sameBytes d t := by
  have ha : ((takenFront d).updCas fun c => { c with segLost := true }).asleep = false := asleep_of_coreOn (d := (takenFront d).updCas _) hc
  have hs : (((takenFront d).segLost).ev.src[(45 : Fin 64)]).seq = (d.ev.src[(45 : Fin 64)]).seq + 1 := raise_seq_self 45 1 ha
  have hf : (takenFront d).segLost = { takenFront d with cas := { d.cas with segLost := true }, ev := ((takenFront d).segLost).ev } := raise_eq _ _ _
  obtain ⟨hl, -⟩ := leaveFront_fields m (none, (takenFront d).segLost)
  dsimp only at hl ⊢
  generalize leaveFront m (none, (takenFront d).segLost) = t at *
  generalize (takenFront d).segLost = e at *
  refine ⟨?_, ?_, ?_, ?_, fun x => ?_⟩
  · rw [hl, hf]
  · rw [hl]
    exact hs
  · rw [hl, hf]
    rfl
  · rw [hl, hf]
    rfl
  · rw [hl, hf]
    rfl

/-- SEGEND for no slot in FILL (13 R308). -/
theorem segendRx_lost {P : Part} {d : Dev} {src : BitVec 4} {line : Word} (hz : d.frozen .cascIn = false)
    (hm : d.kl.casIn.head?.all (fun m => cascadeIs m 3 src line) = true) (hn : d.fillSlot line = none) :
    d.segendRx P src line = leaveFront (frontOf d 3 src 0 line []) (none, (takenFront d).segLost) := by
  unfold Dev.segendRx
  rw [if_neg (by rw [hz]; decide)]
  refine (withCasc_front _ _ hm).trans (congrArg (leaveFront _) ?_)
  show (none, match d.fillSlot line with | some n => _ | none => _) = _
  rw [hn]

/-- SEGEND notes its sender; a slot whose writer has not ended is not complete (13 R308). -/
theorem segendRx_notes {P : Part} {d : Dev} {src : BitVec 4} {line : Word} {n : Fin 256} (hz : d.frozen .cascIn = false)
    (hm : d.kl.casIn.head?.all (fun m => cascadeIs m 3 src line) = true) (hn : d.fillSlot line = some n) (hw : (d.ls.slots[n]).written = false) :
    d.segendRx P src line = leaveFront (frontOf d 3 src 0 line []) (none, (takenFront d).updSlot n fun s => { s with segs := s.segs ||| (1#8 <<< src.toNat) }) := by
  have hdone (e : Dev) (he : (e.ls.slots[n]).written = false) : e.lineStoreComplete P n = e := by
    unfold Dev.lineStoreComplete
    exact if_neg fun h => by rw [he] at h; exact absurd h.2.2.1 (by decide)
  unfold Dev.segendRx
  rw [if_neg (by rw [hz]; decide)]
  refine (withCasc_front _ _ hm).trans (congrArg (leaveFront _) ?_)
  show (none, match d.fillSlot line with | some n => _ | none => _) = _
  rw [hn]
  dsimp only
  rw [hdone _ (by show ((upd d.ls.slots n _)[n]).written = false; rw [upd_get_self]; exact hw)]

/-! ### The timeout of a line's segments -/

/-- What a slot's move leaves: all but the line store and the events, and the number of event 45 (05 R117). -/
def SlotMoved (d t : Dev) : Prop :=
  (∃ l, t = { d with ls := l, ev := t.ev, dma := t.dma }) ∧ (t.ev.src[(45 : Fin 64)]).seq = (d.ev.src[(45 : Fin 64)]).seq

theorem SlotMoved.trans {d e t : Dev} (h : SlotMoved d e) (h' : SlotMoved e t) : SlotMoved d t := by
  obtain ⟨⟨l, hl⟩, hs⟩ := h
  obtain ⟨⟨l', hl'⟩, hs'⟩ := h'
  exact ⟨⟨l', hl'.trans (by rw [hl])⟩, hs'.trans hs⟩

/-- A slot's move and the check of the store's mark (07 R177). -/
theorem moveSlot_effect (d : Dev) (n : Fin 256) (f : Slot → Slot) :
    SlotMoved d (d.moveSlot n f) ∧ (d.moveSlot n f).ls.slots = upd d.ls.slots n f := by
  unfold Dev.moveSlot Dev.lowCheck
  dsimp only
  split
  · rw [raise_eq]
    exact ⟨⟨⟨_, rfl⟩, raise_seq_ne _ _ (by decide)⟩, rfl⟩
  · split
    · exact ⟨⟨⟨_, rfl⟩, rfl⟩, rfl⟩
    · exact ⟨⟨⟨_, rfl⟩, rfl⟩, rfl⟩

/-- The lists of the channels that take the line (09 R212). -/
theorem listed_fields (n : Fin 256) (h : BitVec 17) (l : List (Fin 16)) : ∀ d : Dev, ∃ q, (l.foldl (fun d c =>
    if h.getLsbD c.val && bit (d.dmaCfg c) 0 then d.updDma c fun k => { k with list := insertLine d n k.list } else d) d) = { d with dma := q } := by
  induction l with
  | nil => exact fun d => ⟨d.dma, rfl⟩
  | cons c l ih =>
    intro d
    rw [List.foldl_cons]
    obtain ⟨q, hq⟩ := ih (if h.getLsbD c.val && bit (d.dmaCfg c) 0 then d.updDma c fun k => { k with list := insertLine d n k.list } else d)
    refine ⟨q, hq.trans ?_⟩
    split <;> rfl

/-- A slot that nothing holds any more goes on to PINNED or FREE (07 R176). -/
theorem settleSlot_effect (P : Part) (d : Dev) (n : Fin 256) (h : (d.ls.slots[n]).st ≠ .fill) :
    SlotMoved d (d.settleSlot P n) ∧ ((d.settleSlot P n).ls.slots[n]).st ≠ .fill ∧ ((d.settleSlot P n).ls.slots[n]).hold = (d.ls.slots[n]).hold := by
  by_cases hc : (d.ls.slots[n]).kind = .numbered ∧ ((d.ls.slots[n]).st = .full ∨ (d.ls.slots[n]).st = .drain) ∧ (d.ls.slots[n]).hold = 0
  · have ht : d.settleSlot P n = d.moveSlot n fun s => { s with st := if d.kept P s then .pinned else .free } := if_pos hc
    obtain ⟨hm, hs⟩ := moveSlot_effect d n fun s => { s with st := if d.kept P s then .pinned else .free }
    rw [ht]
    refine ⟨hm, ?_, ?_⟩ <;> simp only [hs, upd_get_self]
    split <;> decide
  · have ht : d.settleSlot P n = d := if_neg hc
    rw [ht]
    exact ⟨⟨⟨d.ls, rfl⟩, rfl⟩, h, rfl⟩

/-- A numbered line that is complete leaves FILL with the holders of its streams (07 R176, 09 R212). -/
theorem slotDone_numbered (P : Part) (d : Dev) (n : Fin 256) (hk : (d.ls.slots[n]).kind = .numbered) :
    let t := d.slotDone P n
    SlotMoved d t ∧ (t.ls.slots[n]).st ≠ .fill ∧ (t.ls.slots[n]).hold = d.holdMask P d.ls.slots[n] := by
  unfold Dev.slotDone
  dsimp only
  rw [hk]
  dsimp only
  generalize d.holdMask P d.ls.slots[n] = h
  obtain ⟨hm, hs⟩ := moveSlot_effect d n fun s => { s with st := .full, hold := h }
  generalize d.moveSlot n (fun s => { s with st := .full, hold := h }) = e at *
  have hslot : e.ls.slots[n] = { d.ls.slots[n] with st := .full, hold := h } := by rw [hs, upd_get_self]
  have hr : SlotMoved e (e.raise 8 (place n.val 0 ||| ((d.ls.slots[n]).line <<< 8))) :=
    ⟨⟨e.ls, by rw [raise_eq]⟩, raise_seq_ne _ _ (by decide)⟩
  have hrl : (e.raise 8 (place n.val 0 ||| ((d.ls.slots[n]).line <<< 8))).ls = e.ls := by rw [raise_eq]
  generalize e.raise 8 _ = r at *
  obtain ⟨q, hq⟩ := listed_fields n h (List.finRange 16) r
  generalize (List.finRange 16).foldl _ r = g at *
  have hg : SlotMoved d g := (hm.trans hr).trans ⟨⟨r.ls, by rw [hq]⟩, by rw [hq]⟩
  have hgs : g.ls.slots[n] = { d.ls.slots[n] with st := .full, hold := h } := by rw [hq, ← hslot, ← hrl]
  obtain ⟨hset, hfill, hhold⟩ := settleSlot_effect P g n (by rw [hgs]; exact SlotState.noConfusion)
  exact ⟨hg.trans hset, hfill, by rw [hhold, hgs]⟩

/-- SEGMENT_TIMEOUT of a written line that still misses segments (13 R308). -/
theorem segTimeout_effect (P : Part) (d : Dev) (n : Fin 256) (hc : d.coreOn = true) (hn : n.val < d.ls.geom.nslot) (hst : (d.ls.slots[n]).st = .fill)
    (hk : (d.ls.slots[n]).kind = .numbered) (hw : (d.ls.slots[n]).written = true) (ha : d.assembling P = true)
    (hs : d.segsIn P (d.ls.slots[n]) = false) (ht : (d.ls.slots[n]).wroteAt + 400 * d.segTmoUs ≤ d.cycle) :
    let t := d.segTimeout P n
    t.cas = { d.cas with segTmo := true } ∧ (t.ev.src[(45 : Fin 64)]).seq = (d.ev.src[(45 : Fin 64)]).seq + 1 ∧ (t.ls.slots[n]).st ≠ .fill ∧
    (t.ls.slots[n]).hold = d.holdMask P (d.ls.slots[n]) ∧ t.ctx = d.ctx ∧ sameBytes d t := by
  obtain ⟨e, he⟩ : ∃ e, e = (d.updCas fun c => { c with segTmo := true }).raise 45 1 := ⟨_, rfl⟩
  have hef : e = { d with cas := { d.cas with segTmo := true }, ev := e.ev } := by
    rw [he]
    exact raise_eq _ _ _
  have hes : (e.ev.src[(45 : Fin 64)]).seq = (d.ev.src[(45 : Fin 64)]).seq + 1 := by
    rw [he]
    exact raise_seq_self (d := d.updCas _) 45 1 (asleep_of_coreOn (d := d.updCas _) hc)
  have hm : d.segTimeout P n = e.slotDone P n := by
    unfold Dev.segTimeout
    dsimp only
    rw [if_pos ⟨hn, hst, hk, hw, ha, by rw [hs]; rfl, ht⟩, he]
  have hhold : e.holdMask P d.ls.slots[n] = d.holdMask P d.ls.slots[n] := by
    rw [hef]
    rfl
  have hslot : e.ls.slots[n] = d.ls.slots[n] := by rw [hef]
  obtain ⟨⟨⟨l, hl⟩, hseq⟩, hfill, hh⟩ := slotDone_numbered P e n (by rw [hslot]; exact hk)
  dsimp only
  rw [hm]
  refine ⟨by rw [hl, hef], hseq.trans hes, hfill, by rw [hh, hslot, hhold], by rw [hl, hef], fun x => ?_⟩
  rw [hl, hef]
  rfl

/-! ### The statement -/

/-- A command of a chain takes place on a part with chains. -/
theorem chain_completes {i : Instr} {s : State} {f : Part → Dev → Dev} (h : exec i s = chainStep f s) (hc : s.dev.coreOn = true) (hp : s.part.casc = true) :
    Completes i s (f s.part s.dev) := by
  have hf : (f s.part s.dev) = s.dev.when s.part.casc (f s.part) := by
    rw [hp]
    rfl
  rw [hf]
  exact core_completes i s (fun P d => d.when P.casc (f P)) h hc

/-- Settles O50: each clause by the frame in front of cascade ingress's buffer, its bursts, and the slot of its line. -/
theorem cascadeSegments : Obligations.CascadeSegments := by
  unfold Obligations.CascadeSegments
  intro s src off line data n hc hp
  dsimp only
  have hsw : Completes (.slotwrite src off line data) s
      (s.dev.slotwriteRx s.part (fun d age a => d.grantable s.part (portOf (regionOf s.part a)) age .cascIn) src off line data) :=
    chain_completes (f := fun P d => d.slotwriteRx P (fun d age a => d.grantable P (portOf (regionOf P a)) age .cascIn) src off line data) rfl hc hp
  have hse : Completes (.segend src line) s (s.dev.segendRx s.part src line) :=
    chain_completes (f := fun P d => d.segendRx P src line) rfl hc hp
  have hst : Completes (.segmentTimeout n) s (s.dev.segTimeout s.part n) := chain_completes (f := fun P d => d.segTimeout P n) rfl hc hp
  generalize s.dev = d at *
  generalize s.part = P at *
  have hdid : (d.kl.casIn.head?.map fun x => x.did).getD 0 = (frontOf d 2 src off line data).did := Option.getD_map _ (cascadeMsg d 2 src off line data) _
  have hask : (d.kl.casIn.head?.map fun x => max x.age x.nextAt).getD d.cycle =
      max (frontOf d 2 src off line data).age (frontOf d 2 src off line data).nextAt := by
    refine Eq.trans ?_ (Option.getD_map (fun x : RxMsg => max x.age x.nextAt) (cascadeMsg d 2 src off line data) d.kl.casIn.head?)
    exact congrArg (Option.getD _) (Nat.max_zero d.cycle).symm
  have hfront {x : RxMsg} {rest : List RxMsg} (h : d.kl.casIn = x :: rest) : frontOf d 2 src off line data = x := by
    unfold frontOf
    rw [h]
    rfl
  rw [hdid, hask]
  obtain ⟨m, hfm⟩ : ∃ m, m = frontOf d 2 src off line data := ⟨_, rfl⟩
  rw [← hfm] at hfront ⊢
  refine ⟨fun hz => ⟨?_, ?_⟩, fun hz => ⟨fun hm hn hd h0 h1 hg hmore => ?_, fun hm hne hn hd h0 hg => ?_, fun hm hn hd he => ?_,
    fun hm hn hd he hr hrec => ?_, fun hn => ⟨fun hm => ?_, fun hm => ?_⟩, fun hm hn hw => ?_⟩, fun hn hf hk hw ha hs ht => ?_⟩
  · have hw : d.slotwriteRx P (fun d age a => d.grantable P (portOf (regionOf P a)) age .cascIn) src off line data = d := if_pos hz
    rwa [hw] at hsw
  · have hw : d.segendRx P src line = d := if_pos hz
    rwa [hw] at hse
  · rw [slotwriteRx_fill hz hm hn, ← hfm] at hsw
    have h0' := (regionOf_ls_iff P _).mp h0
    have h1' := (regionOf_ls_iff P _).mp h1
    rw [h0] at hg hmore
    exact ⟨_, hsw, slotwrite_writes hz (fun i hi => (regionOf_ls_iff P _).mpr (by omega)) rfl hg hmore⟩
  · obtain ⟨x, rest, hx⟩ := List.exists_cons_of_ne_nil hne
    rw [slotwriteRx_fill hz hm hn, ← hfm] at hsw
    rw [h0] at hg
    rwa [slotwrite_waits (by rw [hx, hfront hx]) hd h0 hg] at hsw
  · rw [slotwriteRx_fill hz hm hn, ← hfm] at hsw
    exact ⟨_, hsw, slotwrite_egress hz he⟩
  · rw [slotwriteRx_fill hz hm hn, ← hfm] at hsw
    exact ⟨_, hsw, slotwrite_freezes hz hd he hr hrec⟩
  · rw [slotwriteRx_lost hz hm hn] at hsw
    exact ⟨_, hsw, segLost_left d hc _⟩
  · rw [segendRx_lost hz hm hn] at hse
    exact ⟨_, hse, segLost_left d hc _⟩
  · rw [segendRx_notes hz hm hn hw] at hse
    obtain ⟨hl, -⟩ := leaveFront_fields (frontOf d 3 src 0 line [])
      (none, (takenFront d).updSlot n fun s => { s with segs := s.segs ||| (1#8 <<< src.toNat) })
    refine ⟨_, hse, ?_, ?_⟩ <;> rw [hl] <;> rfl
  · exact ⟨_, hst, segTimeout_effect P d n hc hn hf hk hw ha hs ht⟩

end Sys2Proof.Proofs.Cascade
end

section
/-!
DMA descriptors: a state whose w7 lies across the end of the line store that the part has (09 R207, 03 R76).
-/
namespace Sys2Proof.Proofs.DmaTail

open Sys2Proof.Machine

/-- A part with 1.5 MiB of line store, which ends at 0x2180000. -/
def smallPart : Part := { Part.reset with variant := .yk4820 }

/-- A device in RUN whose channel 0 ends a descriptor at an unaligned address: two bytes of its w7 lie in the line store, the other two behind
its end. -/
def tornTail : Dev :=
  { phase := .run
    dma := (Vector.replicate 16 {}).set 0 { st := .run, chain := true, cur := 0x217FFE2, desc := some (Vector.replicate 7 0) } }

/-- The device as a state of the part. -/
def tornTailState : State := ⟨[], smallPart, tornTail⟩

/-- The channel stands at the end of its transfer and nothing keeps its w7 waiting. -/
theorem tornTail_ends : tornTail.coreOn = true ∧ dmaPresent smallPart 0 = true ∧ tornTail.frozen (.dma 0) = false ∧
    (tornTail.xferOf 0 (Vector.replicate 7 0)).size ≤ (tornTail.dma[(0 : DmaId)]).done ∧ tornTail.endRoom 0 (Vector.replicate 7 0) = true ∧
    regionOf smallPart ((tornTail.dma[(0 : DmaId)]).cur.toNat + 28) ≠ .lsAbsent := by
  decide

/-- Its port grants the write. -/
theorem tornTail_granted : tornTail.dmaGranted smallPart 0 = true := by
  decide +kernel

/-- The flag of a good end lies behind the end of the line store and is not written. -/
theorem tornTail_w7 : (tornTail.descriptorComplete smallPart 0).word 0x217FFFE = 0 := by
  decide +kernel

/-- Refutes O39: a w7 at an unaligned address whose last bytes the part does not have is written in part alone. -/
theorem not_dmaDescriptorSteps : ¬ Obligations.DmaDescriptorSteps := by
  intro h
  obtain ⟨hcore, hpresent, hfrozen, hsize, hroom, hregion⟩ := tornTail_ends
  obtain ⟨-, -, -, hend, -⟩ := h tornTailState 0 hcore hpresent hfrozen
  obtain ⟨t, ht, -, hchain, -⟩ := hend (Vector.replicate 7 0) rfl rfl hsize rfl tornTail_granted hroom
  obtain ⟨-, hword⟩ := hchain rfl
  have hw := hword hregion
  have hx : t = tornTail.descriptorComplete smallPart 0 := by
    obtain ⟨-, -, hdev⟩ := State.mk.inj (Host.Outcome.next.inj ht)
    exact hdev.symm
  rw [hx] at hw
  exact absurd (tornTail_w7.symm.trans hw) (by decide)

end Sys2Proof.Proofs.DmaTail
end

section
/-!
What the streams and the books of the links leave (10 R223, R226, R237 to R239): blocks sent, units freed, errors counted.
-/
namespace Sys2Proof.Proofs.LinkLines

open Sys2Proof.Machine Sys2Proof.Laws Sys2Proof.Proofs.Raise

/-! ### Blocks sent -/

/-- A lane without what its output moves (10 R223). -/
def laneBook (x : Lane) : Lane := { x with scr := 0, busy := 0 }

/-- A link without the turn of its stream and the state of its DEEP request (10 R226, R247). -/
def linkBook (l : Link) : Link := { l with turn := false, deepReq := false, deepWant := false }

/-- What sending blocks changes: the output, its lanes' state, the turn and the DEEP request. -/
structure OnLines (d t : Dev) : Prop where
  frame : t = { d with kl := { d.kl with links := t.kl.links, lanes := t.kl.lanes }, out := t.out }
  lanes : ∀ i : LaneId, laneBook t.kl.lanes[i] = laneBook d.kl.lanes[i]
  links : ∀ k : LinkId, linkBook t.kl.links[k] = linkBook d.kl.links[k]

theorem OnLines.refl (d : Dev) : OnLines d d := ⟨rfl, fun _ => rfl, fun _ => rfl⟩

theorem OnLines.trans {d e t : Dev} (h : OnLines d e) (h' : OnLines e t) : OnLines d t :=
  ⟨h'.frame.trans (by rw [h.frame]), fun i => (h'.lanes i).trans (h.lanes i), fun k => (h'.links k).trans (h.links k)⟩

/-- Whatever a link's record shows beside its stream stays. -/
theorem OnLines.link_eq {d t : Dev} (h : OnLines d t) {β : Type} (g : Link → β) (hg : ∀ l, g (linkBook l) = g l) (k : LinkId) :
    g t.kl.links[k] = g d.kl.links[k] := by
  rw [← hg, h.links k, hg]

/-- Whatever a lane's record shows beside its output stays. -/
theorem OnLines.lane_eq {d t : Dev} (h : OnLines d t) {β : Type} (g : Lane → β) (hg : ∀ x, g (laneBook x) = g x) (i : LaneId) :
    g t.kl.lanes[i] = g d.kl.lanes[i] := by
  rw [← hg, h.lanes i, hg]

/-- A run of such changes is one. -/
theorem OnLines.foldl {α : Type} {f : Dev → α → Dev} (h : ∀ d x, OnLines d (f d x)) (l : List α) : ∀ d : Dev, OnLines d (l.foldl f d) := by
  induction l with
  | nil => exact OnLines.refl
  | cons x l ih => exact fun d => (h d x).trans (ih (f d x))

/-- A vector with one entry changed stands, entry by entry, in a relation that holds of the change. -/
theorem rel_upd {α : Type} {n : Nat} {R : α → α → Prop} (hr : ∀ x, R x x) (v : Vector α n) (i : Fin n) {f : α → α} (h : ∀ x, R x (f x)) (j : Fin n) :
    R v[j] (upd v i f)[j] := by
  rw [upd_get]
  split
  · exact h _
  · exact hr _

/-- A vector's entry changed in what a view leaves out. -/
theorem view_upd {α β : Type} {n : Nat} (view : α → β) (v : Vector α n) (i : Fin n) {f : α → α} (h : ∀ x, view (f x) = view x) (j : Fin n) :
    view (upd v i f)[j] = view v[j] :=
  rel_upd (R := fun a b => view b = view a) (fun _ => rfl) v i h j

/-- A lane's line state moves. -/
theorem onLines_updLane (d : Dev) (n : LaneId) {f : Lane → Lane} (h : ∀ x, laneBook (f x) = laneBook x) : OnLines d (d.updLane n f) :=
  ⟨rfl, view_upd laneBook _ n h, fun _ => rfl⟩

/-- A link's stream state moves. -/
theorem onLines_updLink (d : Dev) (k : LinkId) {f : Link → Link} (h : ∀ x, linkBook (f x) = linkBook x) : OnLines d (d.updLink k f) :=
  ⟨rfl, fun _ => rfl, view_upd linkBook _ k h⟩

/-- Something is put out. -/
theorem onLines_emitOut (d : Dev) (o : Out) : OnLines d (d.emitOut o) := ⟨rfl, fun _ => rfl, fun _ => rfl⟩

/-- Blocks on their way (10 R223). -/
theorem onLines_onLane (d : Dev) (bs : List TxBlock) : OnLines d (d.onLane bs) := by
  unfold Dev.onLane
  refine OnLines.foldl (fun d b => ?_) bs d
  exact onLines_updLane d b.lane fun _ => rfl

/-- Blocks of a link's stream (10 R226). -/
theorem onLines_streamed (d : Dev) (k : LinkId) (bs : List TxBlock) : OnLines d (d.streamed k bs) :=
  (onLines_onLane d bs).trans (onLines_updLink _ k fun _ => rfl)

/-- They move the turn of the stream and put nothing out themselves. -/
theorem streamed_keeps (d : Dev) (k : LinkId) (bs : List TxBlock) : (d.streamed k bs).out = d.out ∧
    ∀ j : LinkId, ∃ b, (d.streamed k bs).kl.links[j] = { d.kl.links[j] with turn := b } := by
  have ho : (d.onLane bs).out = d.out := foldl_keeps (fun d => d.out) _ (fun _ _ => by rfl) bs d
  have hl : (d.onLane bs).kl.links = d.kl.links := foldl_keeps (fun d => d.kl.links) _ (fun _ _ => by rfl) bs d
  refine ⟨ho, fun j => ?_⟩
  unfold Dev.streamed
  show ∃ b, (upd (d.onLane bs).kl.links k _)[j] = _
  rw [hl, upd_get]
  split
  · exact ⟨_, rfl⟩
  · exact ⟨_, rfl⟩

/-- Control blocks of a link's stream (10 R226). -/
theorem onLines_sendStream (d : Dev) (k : LinkId) (bs : List Block) : OnLines d (d.sendStream k bs) :=
  (onLines_streamed d k _).trans (OnLines.foldl (fun d _ => onLines_emitOut d _) _ _)

/-- A control block on a lane. -/
theorem onLines_sendBlock (d : Dev) (n : LaneId) (b : Block) : OnLines d (d.sendBlock n b) :=
  (onLines_onLane d _).trans (onLines_emitOut _ _)

/-- A DEEP request that waited is tried (10 R247). -/
theorem onLines_deepTry (d : Dev) (k : LinkId) : OnLines d (d.deepTry k) := by
  unfold Dev.deepTry
  dsimp only
  split
  · exact (onLines_updLink d k (f := fun l => { l with deepReq := true, deepWant := false }) fun _ => rfl).trans (onLines_sendStream _ k _)
  · exact OnLines.refl d

/-- No DEEP request waits. -/
theorem deepTry_idle {d : Dev} {k : LinkId} (h : (d.kl.links[k]).deepWant = false) : d.deepTry k = d := by
  unfold Dev.deepTry
  exact if_neg fun hc => by simp_all

/-- What the coding of blocks reads of the lanes stays (10 R223). -/
theorem fills_congr {d e : Dev} (hc : e.cycle = d.cycle) (ho : e.out = d.out)
    (hl : ∀ i : LaneId, (e.kl.lanes[i]).scr = (d.kl.lanes[i]).scr ∧ (e.kl.lanes[i]).busy = (d.kl.lanes[i]).busy) :
    (∀ n, e.follows n = d.follows n) ∧ e.fills = d.fills := by
  have hf (n : LaneId) : e.follows n = d.follows n := by
    unfold Dev.follows
    rw [hc, (hl n).2]
  refine ⟨hf, ?_⟩
  unfold Dev.fills
  simp only [hf, (hl _).1, ho]

/-- How a link's blocks go out depends on its lanes, its turn and its mode alone (10 R223, R226). -/
theorem striped_congr {d e : Dev} {k : LinkId} (hc : e.cycle = d.cycle) (ho : e.out = d.out)
    (hl : ∀ i : LaneId, (e.kl.lanes[i]).scr = (d.kl.lanes[i]).scr ∧ (e.kl.lanes[i]).busy = (d.kl.lanes[i]).busy)
    (hst : (e.kl.links[k]).st = (d.kl.links[k]).st) (hm : (e.kl.links[k]).measuring = (d.kl.links[k]).measuring)
    (h2 : (e.kl.links[k]).two = (d.kl.links[k]).two) (ht : (e.kl.links[k]).turn = (d.kl.links[k]).turn) (bs : List (Bool × Block)) :
    e.striped k bs = d.striped k bs ∧ e.inTurn k = d.inTurn k := by
  obtain ⟨hf, hfill⟩ := fills_congr hc ho hl
  have hu : e.usedLanes k = d.usedLanes k := by
    unfold Dev.usedLanes
    rw [h2]
  have hi : e.inTurn k = d.inTurn k := by
    unfold Dev.inTurn
    rw [hu, hf, ht, ho]
  refine ⟨?_, hi⟩
  unfold Dev.striped Link.scrambles
  rw [hi, hfill, hst, hm]

/-- A link in TRAIN to ACTIVE takes a good block of a type it waits for (10 R224). -/
theorem onBlock_good {d : Dev} {n : LaneId} {b : Block} {typ : Byte} (f : Dev → Dev) (hr : (d.kl.links[laneLink n]).receives = true)
    (hb : blockGood b = true) (h0 : octet b 0 = typ) : d.onBlock n b typ f = f d := by
  unfold Dev.onBlock
  rw [if_neg (by rw [hr]; decide), if_neg (by rw [hb]; decide), if_pos h0]

/-- An ACTIVE link takes blocks (10 R224). -/
theorem receives_of_active {l : Link} (h : l.st = .active) : l.receives = true := by
  unfold Link.receives
  rw [h]
  rfl

/-! ### Units and errors -/

/-- What a change of books in a link's record changes: the CUM to report, the frees not reported and those parked (10 R237 to R239). -/
structure Freed (a b : Link) : Prop where
  frame : b = { a with books := b.books, unrep := b.unrep, parked := b.parked }
  books : ∀ w : Fin 65, b.books[w] = { a.books[w] with cumOut := (b.books[w]).cumOut }

theorem Freed.refl (a : Link) : Freed a a := ⟨rfl, fun _ => rfl⟩

theorem Freed.trans {a b c : Link} (h : Freed a b) (h' : Freed b c) : Freed a c :=
  ⟨h'.frame.trans (by rw [h.frame]), fun w => (h'.books w).trans (by rw [h.books w])⟩

/-- Units freed in a link's record. -/
theorem freed_free (l : Link) (v : Fin 65) (u : Nat) : Freed l (l.free v u) :=
  ⟨rfl, rel_upd (R := fun a b : VcBook => b = { a with cumOut := b.cumOut }) (fun _ => rfl) l.books v fun _ => rfl⟩

/-- Parked units freed at last (10 R237). -/
theorem freed_unpark (l : Link) : Freed l l.unpark := by
  have hf (ps : List (Fin 65 × Nat)) : ∀ l : Link, Freed l (ps.foldl (fun l p => l.free p.1 p.2) l) := by
    induction ps with
    | nil => exact Freed.refl
    | cons p ps ih => exact fun l => (freed_free l p.1 p.2).trans (ih _)
  exact Freed.trans (b := { l with parked := [] }) ⟨rfl, fun _ => rfl⟩ (hf _ _)

/-- Units freed change links' records alone (10 R236, R237). -/
theorem freeUnits_effect (d : Dev) (k : LinkId) (v : Fin 65) (u : Nat) :
    d.freeUnits k v u = { d with kl := { d.kl with links := (d.freeUnits k v u).kl.links } } ∧
    ∀ j : LinkId, Freed d.kl.links[j] (d.freeUnits k v u).kl.links[j] := by
  unfold Dev.freeUnits
  split
  · exact ⟨rfl, fun _ => Freed.refl _⟩
  · refine ⟨rfl, rel_upd Freed.refl d.kl.links k fun l => ?_⟩
    split
    · exact ⟨rfl, fun _ => rfl⟩
    · exact freed_free l v u

/-- Units of a frame held change that VC's count alone (10 R236). -/
theorem holdUnits_link (d : Dev) (k : LinkId) (v : Fin 65) (u : Nat) : (d.holdUnits k v u).kl.links[k] =
    { d.kl.links[k] with books := upd (d.kl.links[k]).books v fun b => { b with held := b.held + u } } :=
  upd_get_self _ _ _

/-- An error of a link notes its time and tells it (10 R241, 05 R127). -/
theorem linkErr_effect (d : Dev) (k : LinkId) (kind vc : Nat) :
    d.linkErr k kind vc = { d with kl := { d.kl with links := (d.linkErr k kind vc).kl.links }, ev := (d.linkErr k kind vc).ev } ∧
    ∀ j : LinkId, (d.linkErr k kind vc).kl.links[j] = { d.kl.links[j] with errAt := ((d.linkErr k kind vc).kl.links[j]).errAt } := by
  unfold Dev.linkErr
  split
  · exact ⟨rfl, fun _ => rfl⟩
  · rw [raise_eq]
    exact ⟨rfl, rel_upd (R := fun a b : Link => b = { a with errAt := b.errAt }) (fun _ => rfl) d.kl.links k fun _ => rfl⟩

/-- The part of a checkpoint taken so far is dropped: its units are freed (13 R312). -/
theorem dropPart_effect (d : Dev) (k : LinkId) :
    d.dropPart k = { d with kl := { d.kl with links := (d.dropPart k).kl.links }, cas := (d.dropPart k).cas } ∧
    ∀ j : LinkId, Freed d.kl.links[j] (d.dropPart k).kl.links[j] := by
  unfold Dev.dropPart
  split
  · split
    · next u _ _ _ =>
      obtain ⟨hf, hl⟩ := freeUnits_effect d 2 64 u
      refine ⟨?_, hl⟩
      rw [hf]
      rfl
    · exact ⟨rfl, fun _ => Freed.refl _⟩
  · exact ⟨rfl, fun _ => Freed.refl _⟩

end Sys2Proof.Proofs.LinkLines
end

section
/-!
Traffic of an ACTIVE link: frames, credits, ALIGN and MEASURE (10 R226, R236 to R245).
-/
namespace Sys2Proof.Proofs.LinkTraffic

open Sys2Proof.Machine Sys2Proof.Laws Sys2Proof.Proofs.Raise Sys2Proof.Proofs.PlainWrites Sys2Proof.Proofs.LinkFrame Sys2Proof.Proofs.LinkLines

/-! ### Frames sent -/

/-- The first frame staged is the one that leaves when it may (10 R236). -/
theorem pickFrame_head {d : Dev} {k : LinkId} {f : Staged} (r : List Staged) (h : d.maySend k f = true) : d.pickFrame k (f :: r) [] = some f := by
  have hl : (f.link == k) = true := by
    unfold Dev.maySend at h
    simp only [Bool.and_eq_true] at h
    exact h.1.1.1.1.1.1
  unfold Dev.pickFrame
  rw [if_pos (by simpa using hl), if_pos h]

/-- Where no frame may start none leaves (10 R236). -/
theorem pickFrame_none {d : Dev} {k : LinkId} (fs : List Staged) : ∀ seen : List (Fin 65), (∀ f ∈ fs, d.maySend k f = false) → d.pickFrame k fs seen = none := by
  induction fs with
  | nil => exact fun _ _ => rfl
  | cons f fs ih =>
    intro seen h
    have hrest (seen : List (Fin 65)) : d.pickFrame k fs seen = none := ih seen fun g hg => h g (List.mem_cons_of_mem _ hg)
    unfold Dev.pickFrame
    split
    · rw [if_neg (by rw [h f List.mem_cons_self]; decide)]
      exact hrest _
    · exact hrest _

/-- A frame's units and number leave the link's books (10 R236, R238). -/
def debited (d : Dev) (k : LinkId) (f : Staged) : Dev :=
  d.updLink k fun l => { l with books := upd l.books f.vc fun b => { b with avail := b.avail - frameUnits f.payload.length, fseqOut := b.fseqOut + 1 } }

/-- It leaves staging; the host link notes a line's frames as sent (13 R312). -/
def unstaged (d : Dev) (k : LinkId) (f : Staged) : Dev :=
  (debited d k f).updKl fun x => { x with
    staged := x.staged.erase f
    sent := match f.line with
      | some l => if k = 0 then x.sent ++ [⟨f.vc, frameUnits f.payload.length, l, !f.more⟩] else x.sent
      | none => x.sent }

/-- CD's frames of VC 64 are awaited (13 R314). -/
def awaited (d : Dev) (k : LinkId) (f : Staged) : Dev :=
  if k = 2 ∧ f.vc = 64 then
    (unstaged d k f).updCas fun c => { c with cpOut := c.cpOut ++ [(frameUnits f.payload.length, f.cp.getD ⟨0, 0, false, false, 0⟩, !f.more)] }
  else unstaged d k f

/-- A forwarded frame gives back the units it held (13 R301). -/
def departed (d : Dev) (k : LinkId) (f : Staged) : Dev :=
  match f.rx with
  | some (l, w) => (awaited d k f).freeUnits l f.vc w
  | none => awaited d k f

/-- The departure of a frame leaves all but the books of the links, the frames staged and noted as sent, and the checkpoints on their way. -/
theorem departed_effect (d : Dev) (k : LinkId) (f : Staged) :
    departed d k f = { d with
      kl := { d.kl with links := (departed d k f).kl.links, staged := d.kl.staged.erase f, sent := (departed d k f).kl.sent }
      cas := (departed d k f).cas } ∧
    ∀ j : LinkId, Freed (debited d k f).kl.links[j] (departed d k f).kl.links[j] := by
  have ha : awaited d k f = { unstaged d k f with cas := (awaited d k f).cas } := by
    unfold awaited
    split <;> rfl
  have hd : departed d k f = { awaited d k f with kl := { (awaited d k f).kl with links := (departed d k f).kl.links } } ∧
      ∀ j : LinkId, Freed (awaited d k f).kl.links[j] (departed d k f).kl.links[j] := by
    unfold departed
    split
    · exact freeUnits_effect _ _ _ _
    · exact ⟨rfl, fun _ => Freed.refl _⟩
  refine ⟨?_, fun j => ?_⟩
  · rw [hd.1, ha]
    rfl
  · have := hd.2 j
    rw [ha] at this
    exact this

/-- The frame that is picked leaves, and its blocks go out (10 R236). -/
theorem sendNext_eq {d : Dev} {k : LinkId} {f : Staged} (h : d.pickFrame k d.kl.staged [] = some f) :
    let bs := frameBytes f (if k = 0 then 0 else f.srcDst) ((d.kl.links[k]).books[f.vc]).fseqOut
    let xs := (departed d k f).striped k (frameBlocks f.vc.val bs)
    d.sendNext k = ((departed d k f).streamed k xs).emitOut (.frame k f.vc.val f.typ ((d.kl.links[k]).books[f.vc]).fseqOut.toNat f.more f.payload bs xs) := by
  unfold Dev.sendNext
  rw [h]
  rfl

/-- A frame that may start leaves with its units and the next number of its VC (10 R236, R238, R243). -/
theorem sendNext_effect {d : Dev} {k : LinkId} {f : Staged} {r : List Staged} (hs : d.kl.staged = f :: r) (h : d.maySend k f = true) :
    let t := d.sendNext k
    t.kl.staged = r ∧ ((t.kl.links[k]).books[f.vc]).avail = ((d.kl.links[k]).books[f.vc]).avail - frameUnits f.payload.length ∧
    ((t.kl.links[k]).books[f.vc]).fseqOut = ((d.kl.links[k]).books[f.vc]).fseqOut + 1 ∧ (t.kl.links[k]).deepWant = (d.kl.links[k]).deepWant ∧
    (let bs := frameBytes f (if k = 0 then 0 else f.srcDst) ((d.kl.links[k]).books[f.vc]).fseqOut
     t.out = d.out ++ [.frame k f.vc.val f.typ ((d.kl.links[k]).books[f.vc]).fseqOut.toNat f.more f.payload bs (d.striped k (frameBlocks f.vc.val bs))]) ∧
    t.ctx = d.ctx ∧ t.ev = d.ev ∧ sameBytes d t := by
  have hn := sendNext_eq (d := d) (k := k) (f := f) (by rw [hs]; exact pickFrame_head r h)
  obtain ⟨hf, hl⟩ := departed_effect d k f
  have hlk := hl k
  have hb : (debited d k f).kl.links[k] = { d.kl.links[k] with
      books := upd (d.kl.links[k]).books f.vc fun b => { b with avail := b.avail - frameUnits f.payload.length, fseqOut := b.fseqOut + 1 } } :=
    upd_get_self _ _ _
  rw [hb] at hlk
  have hbook := hlk.books f.vc
  have hframe := hlk.frame
  dsimp only at hbook hframe hn ⊢
  rw [upd_get_self] at hbook
  have hx := (striped_congr (k := k) (by rw [hf]) (by rw [hf]) (fun _ => by rw [hf]; exact ⟨rfl, rfl⟩) (by rw [hframe]) (by rw [hframe]) (by rw [hframe]) (by rw [hframe])
    (frameBlocks f.vc.val (frameBytes f (if k = 0 then 0 else f.srcDst) ((d.kl.links[k]).books[f.vc]).fseqOut)) : (departed d k f).striped k _ = d.striped k _ ∧ _).1
  rw [hx] at hn
  obtain ⟨hso, hsl⟩ := streamed_keeps (departed d k f) k (d.striped k (frameBlocks f.vc.val
    (frameBytes f (if k = 0 then 0 else f.srcDst) ((d.kl.links[k]).books[f.vc]).fseqOut)))
  have hsf := (onLines_streamed (departed d k f) k (d.striped k (frameBlocks f.vc.val
    (frameBytes f (if k = 0 then 0 else f.srcDst) ((d.kl.links[k]).books[f.vc]).fseqOut)))).frame
  obtain ⟨b, hbk⟩ := hsl k
  rw [hn]
  generalize (departed d k f).streamed k _ = t at *
  generalize departed d k f = e at *
  have hlink : ∀ x, ((t.emitOut x).kl.links[k]) = { e.kl.links[k] with turn := b } := fun _ => hbk
  refine ⟨?_, ?_, ?_, ?_, ?_, ?_, ?_, fun x => ?_⟩
  · show t.kl.staged = r
    rw [hsf, hf, hs]
    exact List.erase_cons_head f r
  · rw [hlink, hbook]
  · rw [hlink, hbook]
  · rw [hlink, hframe]
  · show t.out ++ _ = _
    rw [hso, hf]
  · show t.ctx = _
    rw [hsf, hf]
  · show t.ev = _
    rw [hsf, hf]
  · show t.byte x = _
    rw [Dev.byte, hsf, hf]
    rfl

/-- FRAME_SEND where nothing of a trace waits for the host link and no DEEP request waits (10 R236, R243). -/
theorem frameSend_eq {d : Dev} {k : LinkId} (ht : k ≠ 0 ∨ d.pwr.tFifo = []) :
    d.frameSend k = if d.ltxRoom k then (d.sendNext k).deepTry k else d := by
  have hs : (if k = 0 then d.stageTrace else d) = d := by
    split
    · next h0 =>
      unfold Dev.stageTrace
      rw [if_pos (.inl (by rw [ht.resolve_left (fun h => h h0)]; rfl))]
    · rfl
  unfold Dev.frameSend
  rw [hs]

/-- Nothing leaves without room or without a frame that may start (01 R25). -/
theorem frameSend_idle {d : Dev} {k : LinkId} (ht : k ≠ 0 ∨ d.pwr.tFifo = [])
    (h : d.ltxRoom k = false ∨ (d.kl.links[k]).deepWant = false ∧ ∀ f ∈ d.kl.staged, d.maySend k f = false) : d.frameSend k = d := by
  rw [frameSend_eq ht]
  rcases h with h | ⟨hw, h⟩
  · exact if_neg (by rw [h]; decide)
  · have hn : d.sendNext k = d := by
      unfold Dev.sendNext
      rw [pickFrame_none _ _ h]
    rw [hn, deepTry_idle hw, ite_self]

/-! ### Frames received -/

/-- A dropped frame's units are held and freed at once (10 R241). -/
theorem dropUnits_effect (d : Dev) (k : LinkId) (v : Fin 65) (u : Nat) :
    let t := (d.holdUnits k v u).freeUnits k v u
    t = { d with kl := { d.kl with links := t.kl.links } } ∧ (t.kl.links[k]).crcErr = (d.kl.links[k]).crcErr := by
  obtain ⟨hf, hl⟩ := freeUnits_effect (d.holdUnits k v u) k v u
  have hk := (hl k).frame
  rw [holdUnits_link] at hk
  exact ⟨hf, by rw [hk]⟩

/-- A frame dropped for its CRC counts there (10 R241). -/
theorem dropFrame_crc (d : Dev) (k : LinkId) (v u : Nat) :
    let t := d.dropFrame k v u 1
    t = { d with kl := { d.kl with links := t.kl.links }, ev := t.ev } ∧ (t.kl.links[k]).crcErr = satAdd (d.kl.links[k]).crcErr 1 := by
  obtain ⟨e, he⟩ : ∃ e, e = d.updLink k fun l => { l with crcErr := satAdd l.crcErr 1 } := ⟨_, rfl⟩
  have hek : (e.kl.links[k]).crcErr = satAdd (d.kl.links[k]).crcErr 1 := by
    rw [he]
    show ((upd d.kl.links k _)[k]).crcErr = _
    rw [upd_get_self]
  have hef : e = { d with kl := { d.kl with links := e.kl.links } } := by rw [he]; rfl
  have hmid : ∀ g : Dev, g = { e with kl := { e.kl with links := g.kl.links } } → (g.kl.links[k]).crcErr = (e.kl.links[k]).crcErr →
      g.linkErr k 1 v = { d with kl := { d.kl with links := (g.linkErr k 1 v).kl.links }, ev := (g.linkErr k 1 v).ev } ∧
      ((g.linkErr k 1 v).kl.links[k]).crcErr = satAdd (d.kl.links[k]).crcErr 1 := by
    intro g hg hgk
    obtain ⟨hf, hl⟩ := linkErr_effect g k 1 v
    refine ⟨?_, by rw [hl k, ← hek, ← hgk]⟩
    rw [hf, hg, hef]
  have hd : d.dropFrame k v u 1 = (if h : v < 65 then (e.holdUnits k ⟨v, h⟩ u).freeUnits k ⟨v, h⟩ u else e).linkErr k 1 v := by
    rw [he]
    rfl
  rw [hd]
  split
  · next hv => exact hmid _ (dropUnits_effect e k ⟨v, hv⟩ u).1 (dropUnits_effect e k ⟨v, hv⟩ u).2
  · exact hmid e rfl rfl

/-- A frame whose CRC fails is counted and not taken (10 R241). -/
theorem frameReceive_badCrc (P : Part) (d : Dev) (k : LinkId) (x : RxFrame) (hst : (d.kl.links[k]).st = .active)
    (hcrc : ¬ crc32 ([x.w0, x.w1, x.w2, x.w3].flatMap wordBytes ++ x.payload ++ List.replicate (framePad x.payload.length) 0) = x.crc) :
    let t := d.frameReceive P k x
    t = { d with kl := { d.kl with links := t.kl.links }, ev := t.ev, cas := t.cas } ∧ (t.kl.links[k]).crcErr = satAdd (d.kl.links[k]).crcErr 1 := by
  have hd : d.frameReceive P k x = (d.dropPart k).dropFrame k x.sofVc.toNat ((x.blocks * 8 + 255) / 256) 1 := by
    unfold Dev.frameReceive
    dsimp only
    rw [if_neg (fun h => h hst), if_pos hcrc]
  obtain ⟨hp, hl⟩ := dropPart_effect d k
  obtain ⟨hf, hk⟩ := dropFrame_crc (d.dropPart k) k x.sofVc.toNat ((x.blocks * 8 + 255) / 256)
  dsimp only
  rw [hd]
  refine ⟨?_, by rw [hk, (hl k).frame]⟩
  rw [hf, hp]

/-- A whole message of a kind that waits goes to the executor's buffer and holds the frame's units there (10 R236, 16 R370). -/
theorem lastHolds_append (d : Dev) (k : LinkId) (m : RxMsg) (u : Nat) :
    (d.updKl fun x => { x with inbox := x.inbox ++ [m] }).lastHolds k d.kl.inbox.length u =
      d.updKl fun x => { x with inbox := x.inbox ++ [{ m with units := u }] } := by
  unfold Dev.lastHolds Dev.updKl
  dsimp only
  rw [List.getLast?_concat, List.dropLast_concat]
  dsimp only
  rw [if_pos (by rw [List.length_append]; exact Nat.lt_succ_self _)]

/-- A gap in the numbers of CD's VC 64 ends the checkpoint in hand (13 R312): the links' books move, and the checkpoint's notes. -/
theorem cpGap_effect (d : Dev) : d.cpGap = { d with kl := { d.kl with links := d.cpGap.kl.links }, cas := d.cpGap.cas } ∧
    ∀ j : LinkId, Freed d.kl.links[j] d.cpGap.kl.links[j] := by
  obtain ⟨hp, hl⟩ := dropPart_effect d 2
  refine ⟨?_, hl⟩
  unfold Dev.cpGap
  rw [hp]
  rfl

/-- The number of VC 64's last frame is noted (10 R236). -/
def numbered (d : Dev) (k : LinkId) (q : Half) : Dev := d.updLink k fun l => { l with books := upd l.books 64 fun b => { b with fseqIn := some q } }

/-- A MGMT frame that fits its link's books goes on to its messages (10 R236, R243). -/
theorem frameReceive_mgmt (P : Part) (d : Dev) (k : LinkId) (x : RxFrame) (hst : (d.kl.links[k]).st = .active)
    (hcrc : crc32 ([x.w0, x.w1, x.w2, x.w3].flatMap wordBytes ++ x.payload ++ List.replicate (framePad x.payload.length) 0) = x.crc)
    (hs : x.stray = false) (ht : fld x.w0 8 8 = 2) (hv : fld x.w0 0 7 = 64) (hsof : x.sofVc.toNat = 64) (hmax : fld x.w0 16 16 ≤ (d.kl.links[k]).maxPay)
    (hlen : x.payload.length = fld x.w0 16 16) (hb : x.blocks = (16 + fld x.w0 16 16 + framePad (fld x.w0 16 16) + 4) / 8)
    (hroom : ((d.kl.links[k]).books[(64 : Fin 65)]).held + frameUnits (fld x.w0 16 16) ≤ ((d.kl.links[k]).books[(64 : Fin 65)]).own) :
    d.frameReceive P k x = (numbered d k (x.w1.extractLsb' 0 16)).handOn P k x 64 (frameUnits (fld x.w0 16 16))
      (((d.kl.links[k]).books[(64 : Fin 65)]).fseqIn.any fun q => q + 1 != x.w1.extractLsb' 0 16) := by
  have hstray : (x.stray || x.sofVc.toNat != fld x.w0 0 7 || decide ((d.kl.links[k]).maxPay < fld x.w0 16 16) || x.payload.length != fld x.w0 16 16 ||
      x.blocks != (16 + fld x.w0 16 16 + framePad (fld x.w0 16 16) + 4) / 8 || !typeFits k (fld x.w0 8 8) (fld x.w0 0 7)) = false := by
    rw [hs, hsof, hv, ht, hlen, hb, decide_eq_false (Nat.not_lt.mpr hmax)]
    simp [typeFits]
  unfold Dev.frameReceive
  dsimp only
  rw [if_neg (fun h => h hst), if_neg (fun h => h hcrc), if_neg (ne_true_of_eq_false hstray)]
  generalize fld x.w0 0 7 = vc at *
  subst hv
  rw [dif_pos (by decide), if_neg (by omega)]
  exact if_neg (Nat.not_lt.mpr hroom)

/-- The messages of a MGMT frame of one whole message (16 R370). -/
theorem handOn_message (P : Part) (d : Dev) (k : LinkId) (x : RxFrame) (u : Nat) (gap : Bool) {mt : Nat} {tag : Word} {body : List Word}
    (ht : fld x.w0 8 8 = 2) (hm : messages (x.payload.length / 8) x.payload = [(mt, tag, some body)]) (hkept : msgKept k mt = true) (h3 : mt ≠ 3) :
    let e := if gap && k == 2 then (d.holdUnits k 64 u).cpGap else d.holdUnits k 64 u
    d.handOn P k x 64 u gap = e.updKl fun y => { y with inbox := y.inbox ++ [{ link := k, mtype := mt, tag := tag, body := body, units := u, age := e.cycle }] } := by
  have hmsg (e : Dev) : e.takeMsg P k (mt, tag, some body) =
      e.updKl fun y => { y with inbox := y.inbox ++ [{ link := k, mtype := mt, tag := tag, body := body, units := 0, age := e.cycle }] } := by
    unfold Dev.takeMsg
    dsimp only
    rw [if_neg (by rw [hkept]; decide), if_neg h3]
  unfold Dev.handOn
  dsimp only
  rw [ht]
  simp only
  rw [hm, List.foldl_cons, List.foldl_nil, show (gap && k == 2 && (64 : Fin 65) == 64) = (gap && k == 2) by simp, hmsg]
  exact lastHolds_append _ k _ u

/-- A MGMT frame of one whole message (10 R236, R243). -/
theorem frameReceive_message (P : Part) (d : Dev) (k : LinkId) (x : RxFrame) {mt : Nat} {tag : Word} {body : List Word}
    (hst : (d.kl.links[k]).st = .active)
    (hcrc : crc32 ([x.w0, x.w1, x.w2, x.w3].flatMap wordBytes ++ x.payload ++ List.replicate (framePad x.payload.length) 0) = x.crc)
    (hs : x.stray = false) (ht : fld x.w0 8 8 = 2) (hv : fld x.w0 0 7 = 64) (hsof : x.sofVc.toNat = 64) (hmax : fld x.w0 16 16 ≤ (d.kl.links[k]).maxPay)
    (hlen : x.payload.length = fld x.w0 16 16) (hb : x.blocks = (16 + fld x.w0 16 16 + framePad (fld x.w0 16 16) + 4) / 8)
    (hm : messages (fld x.w0 16 16 / 8) x.payload = [(mt, tag, some body)]) (hkept : msgKept k mt = true) (h3 : mt ≠ 3)
    (hroom : ((d.kl.links[k]).books[(64 : Fin 65)]).held + frameUnits (fld x.w0 16 16) ≤ ((d.kl.links[k]).books[(64 : Fin 65)]).own) :
    let t := d.frameReceive P k x
    t.kl.inbox = d.kl.inbox ++ [{ link := k, mtype := mt, tag := tag, body := body, units := frameUnits (fld x.w0 16 16), age := d.cycle }] ∧
    ((t.kl.links[k]).books[(64 : Fin 65)]).held = ((d.kl.links[k]).books[(64 : Fin 65)]).held + frameUnits (fld x.w0 16 16) ∧
    (k ≠ 2 ∨ (∀ q, ((d.kl.links[k]).books[(64 : Fin 65)]).fseqIn = some q → q + 1 = x.w1.extractLsb' 0 16) → t = { d with kl := t.kl }) := by
  dsimp only
  rw [frameReceive_mgmt P d k x hst hcrc hs ht hv hsof hmax hlen hb hroom, handOn_message P _ k x _ _ ht (by rw [hlen]; exact hm) hkept h3]
  generalize frameUnits (fld x.w0 16 16) = u
  generalize hgap : ((d.kl.links[k]).books[(64 : Fin 65)]).fseqIn.any (fun q => q + 1 != x.w1.extractLsb' 0 16) = gap
  generalize x.w1.extractLsb' 0 16 = q at *
  have hheld : (((((numbered d k q).holdUnits k 64 u).kl.links[k])).books[(64 : Fin 65)]).held = ((d.kl.links[k]).books[(64 : Fin 65)]).held + u := by
    have hn : (numbered d k q).kl.links[k] = { d.kl.links[k] with books := upd (d.kl.links[k]).books 64 fun b => { b with fseqIn := some q } } :=
      upd_get_self _ _ _
    rw [holdUnits_link, hn]
    dsimp only
    rw [upd_get_self, upd_get_self]
  cases hg : gap && k == 2 with
  | false =>
    exact ⟨rfl, hheld, fun _ => rfl⟩
  | true =>
    obtain ⟨hf, hl⟩ := cpGap_effect ((numbered d k q).holdUnits k 64 u)
    rw [if_pos rfl]
    have hbook := (hl k).books 64
    generalize ((numbered d k q).holdUnits k 64 u).cpGap = e at *
    refine ⟨?_, ?_, fun hno => ?_⟩
    · rw [hf]
      rfl
    · show (((e.kl.links[k])).books[(64 : Fin 65)]).held = _
      rw [hbook]
      exact hheld
    · simp only [Bool.and_eq_true, beq_iff_eq] at hg
      obtain ⟨hg, h2⟩ := hg
      have hq := hno.resolve_left fun h => h h2
      cases hfi : ((d.kl.links[k]).books[(64 : Fin 65)]).fseqIn with
      | none =>
        rw [hfi] at hgap
        exact absurd (hgap.trans hg) Bool.false_ne_true
      | some p =>
        rw [hfi] at hgap
        have hne : (p + 1 != q) = true := hgap.trans hg
        rw [hq p hfi, bne_self_eq_false] at hne
        exact absurd hne Bool.false_ne_true

end Sys2Proof.Proofs.LinkTraffic
end

section
/-!
Credits, ALIGN and MEASURE of an ACTIVE link (10 R226, R238, R239, R244, R245).
-/
namespace Sys2Proof.Proofs.LinkCredits

open Sys2Proof.Machine Sys2Proof.Laws Sys2Proof.Proofs.Raise Sys2Proof.Proofs.PlainWrites Sys2Proof.Proofs.LinkFrame Sys2Proof.Proofs.LinkLines

/-! ### Credits reported -/

/-- The frees of a VC reported by a CREDIT block on a lane (10 R239). -/
def reported (d : Dev) (n : LaneId) (v : Fin 65) : Dev :=
  (d.updLane n fun x => { x with lastCredit := some d.cycle }).updLink (laneLink n) fun l => { l with
    books := upd l.books v fun b => { b with cumRep := b.cumOut, held := b.held - (b.cumOut - b.cumRep).toNat }
    unrep := l.unrep.filter fun x => x != v }

/-- A CREDIT block of one VC (10 R238). -/
def creditBlock (v : Fin 65) (c : Half) : Block := ctlBlock 0x4B [BitVec.ofNat 8 v.val, c.extractLsb' 0 8, c.extractLsb' 8 8, 0x7F]

/-- The one VC with unreported frees is reported in a CREDIT block (10 R239). -/
theorem creditSend_one {d : Dev} {n : LaneId} {v : Fin 65} (hst : (d.kl.links[laneLink n]).st = .active) (hm : (d.kl.links[laneLink n]).measuring = false)
    (hn : n ∈ d.usedLanes (laneLink n)) (hc : d.creditDue n = true) (hr : d.ltxRoom (laneLink n) = true) (hu : (d.kl.links[laneLink n]).unrep = [v]) :
    d.creditSend n = (reported d n v).sendOnLane n (creditBlock v ((d.kl.links[laneLink n]).books[v]).cumOut) := by
  unfold Dev.creditSend
  dsimp only
  rw [if_pos ⟨hst, by rw [hm]; rfl, List.contains_iff_mem.mpr hn, hc, hr⟩, hu]
  rfl

/-- How control blocks of a link's stream go out depends on its lanes, its turn and its mode alone. -/
theorem sendStream_out_congr {d e : Dev} {k : LinkId} (ho : e.out = d.out) (bs : List Block)
    (h : e.striped k (bs.map fun b => (true, b)) = d.striped k (bs.map fun b => (true, b))) : (e.sendStream k bs).out = (d.sendStream k bs).out := by
  have hf (xs : List TxBlock) : ∀ d : Dev, (xs.foldl (fun d b => d.emitOut (.block b)) d).out = d.out ++ xs.map Out.block := by
    induction xs with
    | nil => exact fun d => (List.append_nil _).symm
    | cons x xs ih =>
      intro d
      rw [List.foldl_cons, ih, List.map_cons, List.append_cons]
      rfl
  have hout (d : Dev) : (d.sendStream k bs).out = d.out ++ (d.striped k (bs.map fun b => (true, b))).map Out.block := by
    unfold Dev.sendStream
    rw [hf, (streamed_keeps _ _ _).1]
  rw [hout, hout, h, ho]

/-- The links' records, the lanes and the output after the report of one VC (10 R226, R239). -/
theorem creditSend_effect {d : Dev} {n : LaneId} {v : Fin 65} (hst : (d.kl.links[laneLink n]).st = .active) (hm : (d.kl.links[laneLink n]).measuring = false)
    (hn : n ∈ d.usedLanes (laneLink n)) (hc : d.creditDue n = true) (hr : d.ltxRoom (laneLink n) = true) (hu : (d.kl.links[laneLink n]).unrep = [v]) :
    let t := d.creditSend n
    let c := ((d.kl.links[laneLink n]).books[v]).cumOut
    (t.kl.links[laneLink n]).unrep = [] ∧ ((t.kl.links[laneLink n]).books[v]).cumRep = c ∧
    t.out = (d.sendStream (laneLink n) (if (d.inTurn (laneLink n)).headD n = n then [creditBlock v c] else [ctlBlock 0x1E [], creditBlock v c])).out ∧
    t = { d with kl := t.kl, out := t.out } := by
  dsimp only
  rw [creditSend_one hst hm hn hc hr hu]
  have hlink : (reported d n v).kl.links[laneLink n] = { d.kl.links[laneLink n] with
      books := upd (d.kl.links[laneLink n]).books v fun b => { b with cumRep := b.cumOut, held := b.held - (b.cumOut - b.cumRep).toNat }
      unrep := (d.kl.links[laneLink n]).unrep.filter fun x => x != v } := upd_get_self _ _ _
  have hlane (i : LaneId) : ((reported d n v).kl.lanes[i]).scr = (d.kl.lanes[i]).scr ∧ ((reported d n v).kl.lanes[i]).busy = (d.kl.lanes[i]).busy :=
    rel_upd (R := fun a b : Lane => b.scr = a.scr ∧ b.busy = a.busy) (f := fun x => { x with lastCredit := some d.cycle })
      (fun _ => ⟨rfl, rfl⟩) d.kl.lanes n (fun _ => ⟨rfl, rfl⟩) i
  have hstr (bs : List (Bool × Block)) : (reported d n v).striped (laneLink n) bs = d.striped (laneLink n) bs ∧
      (reported d n v).inTurn (laneLink n) = d.inTurn (laneLink n) :=
    striped_congr (d := d) (e := reported d n v) rfl rfl hlane (by rw [hlink]) (by rw [hlink]) (by rw [hlink]) (by rw [hlink]) bs
  unfold Dev.sendOnLane
  rw [(hstr []).2]
  generalize (if (d.inTurn (laneLink n)).headD n = n then _ else _ : List Block) = bs
  have hon := onLines_sendStream (reported d n v) (laneLink n) bs
  have hbooks := hon.link_eq Link.books (fun _ => rfl) (laneLink n)
  have hunrep := hon.link_eq Link.unrep (fun _ => rfl) (laneLink n)
  have hout := sendStream_out_congr (d := d) (e := reported d n v) (k := laneLink n) rfl bs (hstr _).1
  have hframe := linkOnly_sendStream (reported d n v) (laneLink n) bs
  generalize (reported d n v).sendStream (laneLink n) bs = t at *
  rw [hlink] at hbooks hunrep
  refine ⟨by rw [hunrep, hu]; simp, by rw [hbooks, upd_get_self], hout, hframe.trans rfl⟩

/-! ### Credits received -/

/-- What returned units change beside the VC's own book: the Hinge's books, the notes of the pair, and the lists of frames and lines out. -/
def Returned (d t : Dev) : Prop :=
  t = { d with hng := t.hng, cas := t.cas, kl := { d.kl with sent := t.kl.sent, lineOut := t.kl.lineOut, secured := t.kl.secured } }

theorem Returned.trans {d e t : Dev} (h : Returned d e) (h' : Returned e t) : Returned d t := by
  unfold Returned at *
  exact h'.trans (by rw [h])

/-- Lines whose frames are all back are secured one by one (13 R312). -/
theorem returned_secureHead (os : List LineOut) : ∀ d : Dev, Returned d (d.secureHead os).2 := by
  induction os with
  | nil => exact fun _ => rfl
  | cons o os ih =>
    intro d
    have hb (f : Hinge → Hinge) : Returned d (d.updHng f) := rfl
    have hs (e : Dev) : Returned e (e.nowSecured o) := by
      unfold Dev.nowSecured
      split <;> rfl
    have hn : Returned d ((d.noteBooks o os).nowSecured o) := (hb _).trans (hs _)
    unfold Dev.secureHead
    split
    · exact hn.trans (ih _)
    · rfl

/-- The host link has returned units (13 R312). -/
theorem returned_hostReturned (d : Dev) (v : Fin 65) (u : Nat) : Returned d (d.hostReturned v u) := by
  have hs (e : Dev) : Returned e e.secureLines := (returned_secureHead e.kl.lineOut e).trans rfl
  unfold Dev.hostReturned
  exact Returned.trans (by rfl) (hs _)

/-- CD has returned units of VC 64 (13 R314). -/
theorem returned_cdReturned (d : Dev) (u : Nat) : Returned d (d.cdReturned u) := by
  have hf (l : List (Nat × CpTag × Bool)) : ∀ d : Dev, Returned d (l.foldl (fun d f => if f.2.1.full && f.2.2 then
      d.updCas fun c => { c with cpSeq := f.2.1.seq, cpLine := f.2.1.line, tpeer := f.2.1.tpeer } else d) d) := by
    induction l with
    | nil => exact fun _ => rfl
    | cons f l ih =>
      intro d
      rw [List.foldl_cons]
      refine Returned.trans ?_ (ih _)
      split <;> rfl
  unfold Dev.cdReturned
  exact Returned.trans (by rfl) (hf _ _)

section Received

variable {d : Dev} {k : LinkId} {v : Fin 65} {cum : Half}

/-- The units that a CUM returns (10 R238). -/
def gained (d : Dev) (k : LinkId) (v : Fin 65) (cum : Half) : Nat := (cum - ((d.kl.links[k]).books[v]).cumIn).toNat

/-- A CUM within the partner's allocation returns its units (10 R238). -/
theorem creditTake_within (h : ((d.kl.links[k]).books[v]).avail + gained d k v cum ≤ ((d.kl.links[k]).books[v]).partner) :
    Returned (d.updLink k fun l => { l with books := upd l.books v fun b => { b with avail := b.avail + gained d k v cum, cumIn := cum } })
      (d.creditTake k v.val cum) := by
  unfold Dev.creditTake
  rw [dif_pos v.isLt]
  refine Eq.mpr (congrArg (Returned _) (if_neg (Nat.not_lt.mpr h))) ?_
  dsimp only
  split
  · exact returned_hostReturned _ _ _
  · split
    · exact returned_cdReturned _ _
    · rfl

/-- One beyond it is counted and returns none (10 R238). -/
theorem creditTake_beyond (h : ((d.kl.links[k]).books[v]).partner < ((d.kl.links[k]).books[v]).avail + gained d k v cum) :
    d.creditTake k v.val cum = (d.updLink k fun l => { l with crOvr := satAdd l.crOvr 1 }).linkErr k 3 v.val := by
  unfold Dev.creditTake
  rw [dif_pos v.isLt]
  exact if_pos h

end Received

/-- A CREDIT block of one VC on an ACTIVE link (10 R238, R239). -/
theorem creditReceive_one {d : Dev} {n : LaneId} {b : Block} {v : Fin 65} (hst : (d.kl.links[laneLink n]).st = .active) (hb : blockGood b = true)
    (h0 : octet b 0 = 0x4B) (h1 : octet b 1 = BitVec.ofNat 8 v.val) (h4 : octet b 4 = 0x7F) :
    d.creditReceive n b = (d.creditTake (laneLink n) v.val (octets2 b 2)).deepTry (laneLink n) := by
  have hv : (octet b 1).toNat = v.val := by
    rw [h1, BitVec.toNat_ofNat]
    exact Nat.mod_eq_of_lt (by omega)
  unfold Dev.creditReceive
  dsimp only
  rw [onBlock_good _ (receives_of_active hst) hb h0, if_pos hst, if_pos h4, hv]

/-- A received CUM returns its units; one beyond the partner's allocation is counted (10 R238). -/
theorem creditTake_deepTry (d : Dev) (j : LinkId) (v : Fin 65) (cum : Half) :
    let t := (d.creditTake j v.val cum).deepTry j
    let y := d.kl.links[j]
    let z := t.kl.links[j]
    t.ctx = d.ctx ∧ sameBytes d t ∧
    ((y.books[v]).avail + gained d j v cum ≤ (y.books[v]).partner →
      (z.books[v]).avail = (y.books[v]).avail + gained d j v cum ∧ (z.books[v]).cumIn = cum ∧ z.crOvr = y.crOvr) ∧
    ((y.books[v]).partner < (y.books[v]).avail + gained d j v cum → z.books[v] = y.books[v] ∧ z.crOvr = satAdd y.crOvr 1) := by
  dsimp only
  have hon := onLines_deepTry (d.creditTake j v.val cum) j
  have hbooks := hon.link_eq Link.books (fun _ => rfl) j
  have hovr := hon.link_eq Link.crOvr (fun _ => rfl) j
  have hframe := hon.frame
  generalize (d.creditTake j v.val cum).deepTry j = t at *
  by_cases h : ((d.kl.links[j]).books[v]).avail + gained d j v cum ≤ ((d.kl.links[j]).books[v]).partner
  · have hr := creditTake_within h
    generalize d.creditTake j v.val cum = e at *
    have hlink : e.kl.links[j] = { d.kl.links[j] with
        books := upd (d.kl.links[j]).books v fun b => { b with avail := b.avail + gained d j v cum, cumIn := cum } } := by
      rw [hr]
      exact upd_get_self _ _ _
    rw [hlink] at hbooks hovr
    refine ⟨?_, fun x => ?_, fun _ => ?_, fun hn => absurd h (Nat.not_le.mpr hn)⟩
    · rw [hframe, hr]
      rfl
    · rw [Dev.byte, hframe, hr]
      rfl
    · rw [hbooks, upd_get_self]
      exact ⟨rfl, rfl, hovr⟩
  · have hr := creditTake_beyond (Nat.not_le.mp h)
    obtain ⟨hf, hl⟩ := linkErr_effect (d.updLink j fun l => { l with crOvr := satAdd l.crOvr 1 }) j 3 v.val
    rw [← hr] at hf hl
    generalize d.creditTake j v.val cum = e at *
    have hu : (d.updLink j fun l => { l with crOvr := satAdd l.crOvr 1 }).kl.links[j] = { d.kl.links[j] with crOvr := satAdd (d.kl.links[j]).crOvr 1 } :=
      upd_get_self _ _ _
    have hlink := hl j
    rw [hu] at hlink
    rw [hlink] at hbooks hovr
    refine ⟨?_, fun x => ?_, fun hn => absurd hn h, fun _ => ?_⟩
    · rw [hframe, hf]
      rfl
    · rw [Dev.byte, hframe, hf]
      rfl
    · rw [hbooks]
      exact ⟨rfl, hovr⟩

end Sys2Proof.Proofs.LinkCredits
end

section
/-!
ALIGN and MEASURE on an ACTIVE link (10 R226, R244, R245).
-/
namespace Sys2Proof.Proofs.LinkMeasure

open Sys2Proof.Machine Sys2Proof.Laws Sys2Proof.Proofs.Raise Sys2Proof.Proofs.PlainWrites Sys2Proof.Proofs.LinkFrame Sys2Proof.Proofs.LinkLines

/-! ### ALIGN -/

/-- Two devices whose lanes put out the same blocks. -/
structure SameLine (d e : Dev) : Prop where
  cycle : e.cycle = d.cycle
  out : e.out = d.out
  links : e.kl.links = d.kl.links
  lanes : ∀ i : LaneId, (e.kl.lanes[i]).scr = (d.kl.lanes[i]).scr ∧ (e.kl.lanes[i]).busy = (d.kl.lanes[i]).busy

/-- A control block on a lane of each. -/
theorem SameLine.sendBlock {d e : Dev} (h : SameLine d e) (n : LaneId) (b : Block) : SameLine (d.sendBlock n b) (e.sendBlock n b) := by
  have hx : (codeBlock (e.kl.links[laneLink n]).scrambles n e.fills[n] (true, b)).1 = (codeBlock (d.kl.links[laneLink n]).scrambles n d.fills[n] (true, b)).1 := by
    rw [h.links, (fills_congr h.cycle h.out h.lanes).2]
  unfold Dev.sendBlock
  dsimp only
  rw [hx]
  generalize (codeBlock (d.kl.links[laneLink n]).scrambles n d.fills[n] (true, b)).1 = x
  refine ⟨h.cycle, congrArg (· ++ [Out.block x]) h.out, h.links, fun i => ?_⟩
  show ((upd e.kl.lanes x.lane _)[i]).scr = ((upd d.kl.lanes x.lane _)[i]).scr ∧ ((upd e.kl.lanes x.lane _)[i]).busy = ((upd d.kl.lanes x.lane _)[i]).busy
  rw [upd_get, upd_get]
  split
  · rw [(h.lanes i).2, h.cycle, h.links]
    exact ⟨rfl, rfl⟩
  · exact h.lanes i

/-- The ALIGN block of a lane with a count (10 R226). -/
def alignBlock (c : Half) (i : LaneId) : Block := ctlBlock 0x99 [BitVec.ofNat 8 i.val, c.extractLsb' 0 8, c.extractLsb' 8 8]

/-- ALIGN sent on one lane: its next count, and the block. -/
def alignStep (c : Half) (d : Dev) (n : LaneId) : Dev := (d.updLane n fun x => { x with alignOut := c + 1 }).sendBlock n (alignBlock c n)

/-- The count of each lane after one ALIGN. -/
theorem alignStep_count (c : Half) (d : Dev) (n i : LaneId) :
    ((alignStep c d n).kl.lanes[i]).alignOut = if n = i then c + 1 else (d.kl.lanes[i]).alignOut := by
  have h := (onLines_sendBlock (d.updLane n fun x => { x with alignOut := c + 1 }) n (alignBlock c n)).lane_eq Lane.alignOut (fun _ => rfl) i
  refine h.trans ?_
  show ((upd d.kl.lanes n _)[i]).alignOut = _
  rw [upd_get]
  split <;> rfl

/-- ALIGN on several lanes: each of them has the next count, and the blocks go out as they would alone. -/
theorem alignSteps_effect (c : Half) (ns : List LaneId) : ∀ d e : Dev, SameLine e d →
    (∀ i, i ∈ ns ∨ (d.kl.lanes[i]).alignOut = c + 1 → ((ns.foldl (alignStep c) d).kl.lanes[i]).alignOut = c + 1) ∧
    LinkOnly d (ns.foldl (alignStep c) d) ∧ (ns.foldl (alignStep c) d).out = (ns.foldl (fun e i => e.sendBlock i (alignBlock c i)) e).out := by
  induction ns with
  | nil => exact fun d e h => ⟨fun i hi => hi.resolve_left (List.not_mem_nil), rfl, h.out⟩
  | cons n ns ih =>
    intro d e h
    have hcounted : SameLine e (d.updLane n fun x => { x with alignOut := c + 1 }) := by
      refine ⟨h.cycle, h.out, h.links, fun i => ?_⟩
      exact ⟨(view_upd Lane.scr d.kl.lanes n (f := fun x => { x with alignOut := c + 1 }) (fun _ => rfl) i).trans (h.lanes i).1,
        (view_upd Lane.busy d.kl.lanes n (f := fun x => { x with alignOut := c + 1 }) (fun _ => rfl) i).trans (h.lanes i).2⟩
    obtain ⟨hcount, honly, hout⟩ := ih (alignStep c d n) _ (hcounted.sendBlock n (alignBlock c n))
    rw [List.foldl_cons, List.foldl_cons]
    refine ⟨fun i hi => hcount i ?_, ?_, hout⟩
    · rw [alignStep_count]
      by_cases hn : n = i
      · exact .inr (if_pos hn)
      · rw [if_neg hn]
        exact hi.imp_left fun hm => (List.mem_cons.mp hm).resolve_left fun hin => hn hin.symm
    · exact LinkOnly.trans (LinkOnly.trans (e := d.updLane n fun x => { x with alignOut := c + 1 }) rfl (linkOnly_sendBlock _ n _)) honly

/-- ALIGN_SEND (10 R226). -/
theorem alignSend_effect (P : Part) (d : Dev) (k : LinkId) :
    let c := (d.kl.lanes[firstLane k]).alignOut
    let t := d.alignSend P k
    (∀ i ∈ d.alignLanes P k, (t.kl.lanes[i]).alignOut = c + 1) ∧ t = { d with kl := t.kl, out := t.out } ∧
    t.out = ((d.alignLanes P k).foldl (fun e i => e.sendBlock i (alignBlock c i)) d).out := by
  have ht : d.alignSend P k = (d.alignLanes P k).foldl (alignStep (d.kl.lanes[firstLane k]).alignOut) d := rfl
  dsimp only
  rw [ht]
  obtain ⟨hcount, honly, hout⟩ := alignSteps_effect (d.kl.lanes[firstLane k]).alignOut (d.alignLanes P k) d d ⟨rfl, rfl, rfl, fun _ => ⟨rfl, rfl⟩⟩
  exact ⟨fun i hi => hcount i (.inl hi), honly, hout⟩

/-- ALIGN_RECEIVE on a host lane (10 R226). -/
theorem alignReceive_effect (d : Dev) (n : LaneId) (b : Block) (hr : (d.kl.links[(0 : LinkId)]).receives = true) (hb : blockGood b = true)
    (h0 : octet b 0 = 0x99) (hn : n.val < 2) :
    let o : LaneId := if n = 0 then 1 else 0
    let t := d.alignReceive n b
    (t.kl.lanes[n]).alignIn = some (octets2 b 2) ∧ t = { d with kl := t.kl } ∧
    let skew := decide ((d.kl.links[(0 : LinkId)]).st = .lock ∧ (d.kl.lanes[o]).alignIn = some (octets2 b 2) ∧ (d.kl.lanes[o]).alignAt + 25 < d.cycle)
    (t.kl.links[(0 : LinkId)]).skewErr = ((d.kl.links[(0 : LinkId)]).skewErr || skew) ∧
    (t.kl.links[(0 : LinkId)]).two = ((d.kl.links[(0 : LinkId)]).two && !skew) := by
  have hl : laneLink n = 0 := if_pos hn
  have hrn : (d.kl.links[laneLink n]).receives = true := by
    simp only [hl]
    exact hr
  unfold Dev.alignReceive
  rw [onBlock_good _ hrn hb h0]
  dsimp only
  have hlane : ((d.updLane n fun x => { x with alignIn := some (octets2 b 2), alignAt := d.cycle }).kl.lanes[n]).alignIn = some (octets2 b 2) := by
    show ((upd d.kl.lanes n _)[n]).alignIn = _
    rw [upd_get_self]
  by_cases hs : (d.kl.links[(0 : LinkId)]).st = .lock ∧ (d.kl.lanes[if n = 0 then (1 : LaneId) else 0]).alignIn = some (octets2 b 2) ∧
      (d.kl.lanes[if n = 0 then (1 : LaneId) else 0]).alignAt + 25 < d.cycle
  · rw [if_pos ⟨hn, hs⟩, decide_eq_true hs]
    refine ⟨hlane, rfl, ?_, ?_⟩
    · show ((upd d.kl.links 0 _)[(0 : LinkId)]).skewErr = _
      rw [upd_get_self, Bool.or_true]
    · show ((upd d.kl.links 0 _)[(0 : LinkId)]).two = _
      rw [upd_get_self, Bool.not_true, Bool.and_false]
  · rw [if_neg fun h => hs h.2, decide_eq_false hs]
    exact ⟨hlane, rfl, (Bool.or_false _).symm, (Bool.and_true _).symm⟩

end Sys2Proof.Proofs.LinkMeasure
end

section
/-!
MEASURE on an ACTIVE link (10 R244, R245), and the statement about its traffic.
-/
namespace Sys2Proof.Proofs.LinkMeasures

open Sys2Proof.Machine Sys2Proof.Laws Sys2Proof.Proofs.Raise Sys2Proof.Proofs.PlainWrites Sys2Proof.Proofs.LinkFrame Sys2Proof.Proofs.LinkLines
  Sys2Proof.Proofs.LinkTraffic Sys2Proof.Proofs.LinkCredits Sys2Proof.Proofs.LinkMeasure

/-! ### The counts of a lane -/

/-- A lane without the counts of its errors and bits (10 R244). -/
def laneRest (x : Lane) : Lane := { x with hdrErr := 0, prbsErr := 0, prbsBits := 0, prbsTo := 0 }

/-- What settling and clearing the counts changes: the counts of lanes and the numbers taken. -/
structure Counted (d t : Dev) : Prop where
  frame : t = { d with kl := { d.kl with lanes := t.kl.lanes }, free := t.free }
  lanes : ∀ i : LaneId, laneRest t.kl.lanes[i] = laneRest d.kl.lanes[i]

theorem Counted.refl (d : Dev) : Counted d d := ⟨rfl, fun _ => rfl⟩

theorem Counted.trans {d e t : Dev} (h : Counted d e) (h' : Counted e t) : Counted d t :=
  ⟨h'.frame.trans (by rw [h.frame]), fun i => (h'.lanes i).trans (h.lanes i)⟩

/-- Whatever a lane shows beside its counts. -/
theorem eq_of_laneRest {a b : Lane} (h : laneRest a = laneRest b) {β : Type} (g : Lane → β) (hg : ∀ x, g (laneRest x) = g x) : g a = g b := by
  rw [← hg, h, hg]

/-- A run of such changes is one. -/
theorem Counted.foldl {α : Type} {f : Dev → α → Dev} (h : ∀ d x, Counted d (f d x)) (l : List α) : ∀ d : Dev, Counted d (l.foldl f d) := by
  induction l with
  | nil => exact Counted.refl
  | cons x l ih => exact fun d => (h d x).trans (ih (f d x))

/-- The counts of a lane change. -/
theorem counted_updLane (d : Dev) (n : LaneId) {f : Lane → Lane} (h : ∀ x, laneRest (f x) = laneRest x) : Counted d (d.updLane n f) :=
  ⟨rfl, view_upd laneRest _ n h⟩

/-- A number is taken. -/
theorem counted_takeFree (d : Dev) : Counted d d.takeFree.2 := ⟨rfl, fun _ => rfl⟩

/-- What a lane has met is counted (10 R244). -/
theorem counted_settleLink (P : Part) (d : Dev) (k : LinkId) : Counted d (d.settleLink P k) := by
  refine Counted.foldl (fun d n => ?_) _ d
  unfold Dev.settleLane
  dsimp only
  split
  · exact (((counted_takeFree d).trans (counted_takeFree _)).trans (counted_takeFree _)).trans (counted_updLane _ n fun _ => rfl)
  · exact Counted.refl d

/-- The counts of a link's lanes begin anew (10 R245). -/
theorem clearPrbs_effect (P : Part) (d : Dev) (k : LinkId) : Counted d (d.clearPrbs P k) ∧
    ∀ i ∈ linkLanes P k, ((d.clearPrbs P k).kl.lanes[i]).prbsErr = 0 ∧ ((d.clearPrbs P k).kl.lanes[i]).prbsBits = 0 := by
  have hc (ns : List LaneId) : ∀ (d : Dev) (i : LaneId), i ∈ ns ∨ (d.kl.lanes[i]).prbsErr = 0 ∧ (d.kl.lanes[i]).prbsBits = 0 →
      ((ns.foldl (fun d n => d.updLane n fun x => { x with prbsErr := 0, prbsBits := 0, prbsTo := 0 }) d).kl.lanes[i]).prbsErr = 0 ∧
      ((ns.foldl (fun d n => d.updLane n fun x => { x with prbsErr := 0, prbsBits := 0, prbsTo := 0 }) d).kl.lanes[i]).prbsBits = 0 := by
    induction ns with
    | nil => exact fun d i h => h.resolve_left List.not_mem_nil
    | cons n ns ih =>
      intro d i h
      rw [List.foldl_cons]
      refine ih _ i ?_
      show i ∈ ns ∨ ((upd d.kl.lanes n _)[i]).prbsErr = 0 ∧ ((upd d.kl.lanes n _)[i]).prbsBits = 0
      rw [upd_get]
      split
      · exact .inr ⟨rfl, rfl⟩
      · next hn => exact h.imp_left fun hm => (List.mem_cons.mp hm).resolve_left fun hin => hn hin.symm
  refine ⟨?_, fun i hi => hc _ d i (.inl hi)⟩
  unfold Dev.clearPrbs
  refine Counted.foldl (fun d n => ?_) _ d
  exact counted_updLane d n fun _ => rfl

/-! ### MEASURE begins -/

/-- The TRAIN group of MEASURE on one lane, with the bits that its count will reach (10 R245). -/
def groupStep (q : Nat) (d : Dev) (n : LaneId) : Dev := (d.updLane n fun x => { x with prbsTo := measureBits q }).sendGroup n q

/-- A lane after the groups of some lanes: those have their bits to reach, and nothing else of a lane has changed. -/
theorem groupSteps_lane (q : Nat) (ns : List LaneId) (i : LaneId) : ∀ d : Dev, (ns.foldl (groupStep q) d).kl.lanes[i] =
    if i ∈ ns then { d.kl.lanes[i] with prbsTo := measureBits q } else d.kl.lanes[i] := by
  induction ns with
  | nil => exact fun d => (if_neg List.not_mem_nil).symm
  | cons n ns ih =>
    intro d
    have hs : (groupStep q d n).kl.lanes[i] = if n = i then { d.kl.lanes[i] with prbsTo := measureBits q } else d.kl.lanes[i] := upd_get _ _ _ _
    rw [List.foldl_cons, ih, hs]
    by_cases hn : n = i
    · subst hn
      simp
    · have hi : i ∈ n :: ns ↔ i ∈ ns := ⟨fun h => (List.mem_cons.mp h).resolve_left fun h => hn h.symm, List.mem_cons_of_mem n⟩
      simp only [if_neg hn, hi]

/-- They leave all but the lanes and the output, to which each adds one group. -/
theorem groupSteps_out (q : Nat) (ns : List LaneId) : ∀ d : Dev,
    (ns.foldl (groupStep q) d) = { d with kl := { d.kl with lanes := (ns.foldl (groupStep q) d).kl.lanes }, out := (ns.foldl (groupStep q) d).out } ∧
    (ns.foldl (groupStep q) d).out.length = d.out.length + ns.length ∧ d.out <+: (ns.foldl (groupStep q) d).out := by
  induction ns with
  | nil => exact fun d => ⟨rfl, rfl, List.prefix_refl _⟩
  | cons n ns ih =>
    intro d
    obtain ⟨hf, hl, hp⟩ := ih (groupStep q d n)
    have hlen : (groupStep q d n).out.length = d.out.length + 1 := List.length_append
    rw [List.foldl_cons]
    refine ⟨?_, ?_, (List.prefix_append _ _).trans hp⟩
    · rw [hf]
      rfl
    · rw [hl, hlen, List.length_cons]
      omega

/-- The device when the groups of MEASURE begin to go out (10 R245). -/
def measureReady (P : Part) (d : Dev) (k : LinkId) (q : Nat) : Dev :=
  ((d.settleLink P k).updLink k fun l => { l with measuring := true, meas := q, measAt := d.cycle }).clearPrbs P k

/-- It has what it had, but for the counts and the link's MEASURE. -/
theorem measureReady_effect (P : Part) (d : Dev) (k : LinkId) (q : Nat) :
    let e := measureReady P d k q
    e = { d with kl := { d.kl with lanes := e.kl.lanes, links := upd d.kl.links k fun l => { l with measuring := true, meas := q, measAt := d.cycle } }, free := e.free } ∧
    (∀ i : LaneId, laneRest e.kl.lanes[i] = laneRest d.kl.lanes[i]) ∧
    ∀ i ∈ linkLanes P k, (e.kl.lanes[i]).prbsErr = 0 ∧ (e.kl.lanes[i]).prbsBits = 0 := by
  have hs := counted_settleLink P d k
  obtain ⟨hc, hz⟩ := clearPrbs_effect P ((d.settleLink P k).updLink k fun l => { l with measuring := true, meas := q, measAt := (d.settleLink P k).cycle }) k
  have hcy : (d.settleLink P k).cycle = d.cycle := by rw [hs.frame]
  rw [hcy] at hc hz
  refine ⟨?_, fun i => (hc.lanes i).trans (hs.lanes i), hz⟩
  unfold measureReady
  rw [hc.frame, hs.frame]
  rfl

/-- MEASURE begins: its link, its lanes and the groups (10 R245). -/
theorem measureBegin_effect (P : Part) (d : Dev) (k : LinkId) (q : Nat) :
    let t := d.measureBegin P k q
    t = { d with kl := t.kl, out := t.out, free := t.free } ∧ (t.kl.links[k]).measuring = true ∧ (t.kl.links[k]).meas = q ∧
    (∀ i ∈ linkLanes P k, (t.kl.lanes[i]).prbsErr = 0 ∧ (t.kl.lanes[i]).prbsBits = 0) ∧
    (∀ i ∈ d.usedLanes k, (t.kl.lanes[i]).prbsTo = measureBits q) ∧ (∀ i : LaneId, (t.kl.lanes[i]).eq = (d.kl.lanes[i]).eq) ∧
    t.out.length = d.out.length + (d.usedLanes k).length ∧
    d.out ++ [.group (firstLane k) (codeBlock false (firstLane k) 0 (true, d.trainCtl (firstLane k) q)).1 (Config.prbsState d.out.length)] <+: t.out := by
  obtain ⟨hf, hlane, hzero⟩ := measureReady_effect P d k q
  have ht : d.measureBegin P k q = (d.usedLanes k).foldl (groupStep q) (measureReady P d k q) := rfl
  dsimp only
  rw [ht]
  generalize measureReady P d k q = e at *
  have hgl (i : LaneId) := groupSteps_lane q (d.usedLanes k) i e
  obtain ⟨hgf, hlen, -⟩ := groupSteps_out q (d.usedLanes k) e
  have hout : e.out = d.out := by rw [hf]
  have hlinks : ((d.usedLanes k).foldl (groupStep q) e).kl.links = upd d.kl.links k fun l => { l with measuring := true, meas := q, measAt := d.cycle } := by
    rw [hgf, hf]
  have hfirst : (groupStep q e (firstLane k)).out =
      d.out ++ [.group (firstLane k) (codeBlock false (firstLane k) 0 (true, d.trainCtl (firstLane k) q)).1 (Config.prbsState d.out.length)] := by
    have hready : ((e.updLane (firstLane k) fun x => { x with prbsTo := measureBits q }).kl.lanes[firstLane k]).ready = (d.kl.lanes[firstLane k]).ready :=
      (view_upd Lane.ready e.kl.lanes (firstLane k) (f := fun x => { x with prbsTo := measureBits q }) (fun _ => rfl) (firstLane k)).trans
        (eq_of_laneRest (hlane (firstLane k)) Lane.ready fun _ => rfl)
    have hrate : (e.kl.links[laneLink (firstLane k)]).rate = (d.kl.links[laneLink (firstLane k)]).rate := by
      rw [hf]
      exact view_upd Link.rate d.kl.links k (f := fun l => { l with measuring := true, meas := q, measAt := d.cycle }) (fun _ => rfl) _
    have hctl : (e.updLane (firstLane k) fun x => { x with prbsTo := measureBits q }).trainCtl (firstLane k) q = d.trainCtl (firstLane k) q := by
      unfold Dev.trainCtl
      rw [hready]
      show ctlBlock _ [_, BitVec.ofNat 8 (e.kl.links[laneLink (firstLane k)]).rate, BitVec.ofNat 8 (ffeOctet (Config.ffeRequest e.out.length)), _, _] = _
      rw [hrate, hout]
    unfold groupStep Dev.sendGroup
    rw [hctl]
    show e.out ++ [.group _ _ (Config.prbsState e.out.length)] = _
    rw [hout]
  refine ⟨?_, ?_, ?_, fun i hi => ?_, fun i hi => ?_, fun i => ?_, by rw [hlen, hout], ?_⟩
  · rw [hgf, hf]
  · rw [hlinks, upd_get_self]
  · rw [hlinks, upd_get_self]
  · rw [hgl i]
    split
    · exact hzero i hi
    · exact hzero i hi
  · rw [hgl i, if_pos hi]
  · rw [hgl i]
    split
    · exact eq_of_laneRest (hlane i) Lane.eq fun _ => rfl
    · exact eq_of_laneRest (hlane i) Lane.eq fun _ => rfl
  · have hu : d.usedLanes k = firstLane k :: (if k = 0 ∧ (d.kl.links[k]).two then [1] else []) := rfl
    rw [hu, List.foldl_cons, ← hfirst]
    exact (groupSteps_out q _ _).2.2

/-! ### MEASURE asked for -/

/-- A write of KL_LKk_MEAS (10 R245). -/
theorem mmioWrite_meas (P : Part) (d : Dev) (m : Master) (pc insn : Word) (k : LinkId) (q : Byte) (hp : linkPresent P k = true) :
    (d.crossWrite P (linkOff k 0x2C)).mmioWrite P m pc insn (linkOff k 0x2C) (q.setWidth 32) = d.measureStart P k q := by
  have hq : (q.setWidth 32 : Word).extractLsb' 0 8 = q := by
    refine BitVec.eq_of_toNat_eq ?_
    rw [BitVec.extractLsb'_toNat, BitVec.toNat_setWidth, Nat.shiftRight_zero]
    omega
  have hports : P.ports < 8 := (P.caps.extractLsb' 0 3).isLt
  have h3 : k.val < 3 := k.isLt
  have hcases : ∀ k : LinkId, k = 0 ∨ k = 1 ∨ k = 2 := by decide
  have hx : d.crossWrite P (linkOff k 0x2C) = d := by
    have ho : crossOf P (linkOff k 0x2C) = none := by
      unfold crossOf linkOff
      rw [if_neg (by omega), if_neg (by omega), if_neg (by omega), if_neg (by omega)]
    unfold Dev.crossWrite
    rw [ho]
  have ha : regAbsent P (linkOff k 0x2C) = false := by
    have hk : k = 0 ∨ P.casc = true := by
      unfold linkPresent at hp
      simpa using hp
    obtain rfl | rfl | rfl := hcases k
    all_goals
      unfold regAbsent
      dsimp only
      simp_all [linkOff]
  rw [hx]
  unfold Dev.mmioWrite
  dsimp only
  rw [if_neg (ne_true_of_eq_false ha)]
  obtain rfl | rfl | rfl := hcases k
  all_goals
    show d.measureStart P _ ((q.setWidth 32 : Word).extractLsb' 0 8) = _
    rw [hq]
    rfl

/-- MEASURE on request of the partner (10 R245). -/
theorem measureRx_begins {P : Part} {d : Dev} {n : LaneId} {b : Block} (hst : (d.kl.links[laneLink n]).st = .active)
    (hm : (d.kl.links[laneLink n]).measuring = false) (hb : blockGood b = true) (h0 : octet b 0 = 0x2D)
    (hr : (octet b 2).toNat = (d.kl.links[laneLink n]).rate) (h1 : (octet b 1).getLsbD 1 = true) (h5 : octet b 5 ≠ 0) :
    d.measureRx P n b = (d.updLane n fun x => { x with eq := if d.eqDef (laneLink n) then x.eq else ffeTake x.eq (octet b 3) }).measureBegin P (laneLink n)
      (octet b 5).toNat := by
  unfold Dev.measureRx Dev.onTrain
  dsimp only
  rw [onBlock_good _ (receives_of_active hst) hb h0, if_pos hr, if_pos ⟨hst, h1, h5, by rw [hm]; rfl⟩]

/-! ### MEASURE ends -/

/-- The count of a used lane reaches what it has in all (10 R245). -/
def endStep (d : Dev) (n : LaneId) : Dev :=
  d.takeFree.2.updLane n fun x => { x with prbsBits := nword x.prbsTo, prbsErr := satAdd x.prbsErr (Config.lineErrors d.takeFree.1) }

/-- The counts of lanes at the end of MEASURE. -/
theorem endSteps_effect (ns : List LaneId) : ∀ d : Dev,
    (ns.foldl endStep d = { d with kl := { d.kl with lanes := (ns.foldl endStep d).kl.lanes }, free := (ns.foldl endStep d).free }) ∧
    ∀ i : LaneId, ((ns.foldl endStep d).kl.lanes[i]).prbsTo = (d.kl.lanes[i]).prbsTo ∧
      (i ∈ ns ∨ (d.kl.lanes[i]).prbsBits = nword (d.kl.lanes[i]).prbsTo → ((ns.foldl endStep d).kl.lanes[i]).prbsBits = nword (d.kl.lanes[i]).prbsTo) := by
  induction ns with
  | nil => exact fun d => ⟨rfl, fun i => ⟨rfl, fun h => h.resolve_left List.not_mem_nil⟩⟩
  | cons n ns ih =>
    intro d
    obtain ⟨hf, hl⟩ := ih (endStep d n)
    have hstep (i : LaneId) : (endStep d n).kl.lanes[i] = if n = i then { d.kl.lanes[i] with
        prbsBits := nword (d.kl.lanes[i]).prbsTo, prbsErr := satAdd (d.kl.lanes[i]).prbsErr (Config.lineErrors d.takeFree.1) } else d.kl.lanes[i] :=
      upd_get _ _ _ _
    rw [List.foldl_cons]
    refine ⟨by rw [hf]; rfl, fun i => ?_⟩
    have hto : ((endStep d n).kl.lanes[i]).prbsTo = (d.kl.lanes[i]).prbsTo := by
      rw [hstep i]
      split <;> rfl
    obtain ⟨h1, h2⟩ := hl i
    rw [hto] at h1 h2
    refine ⟨h1, fun hi => h2 ?_⟩
    by_cases hn : n = i
    · exact .inr (by rw [hstep i, if_pos hn])
    · rw [hstep i, if_neg hn]
      exact hi.imp_left fun hm => (List.mem_cons.mp hm).resolve_left fun hin => hn hin.symm

/-- MEASURE ends once every used lane has block lock (10 R245). -/
theorem measureEnd_effect {d : Dev} {k : LinkId} (hm : (d.kl.links[k]).measuring = true) (hl : ∀ i ∈ d.usedLanes k, (d.kl.lanes[i]).blockLock = true) :
    let t := d.measureEnd k
    (t.kl.links[k]).measuring = false ∧ (t.kl.links[k]).meas = 0 ∧
    (∀ i ∈ d.usedLanes k, (t.kl.lanes[i]).prbsBits = nword (d.kl.lanes[i]).prbsTo) ∧ t.ctx = d.ctx ∧ sameBytes d t := by
  have ht : d.measureEnd k = (((d.usedLanes k).foldl endStep d).updLink k fun l => ({ l with measuring := false, meas := 0 } : Link).unpark).deepTry k := by
    unfold Dev.measureEnd
    exact if_pos ⟨hm, List.all_eq_true.mpr hl⟩
  obtain ⟨hf, hlane⟩ := endSteps_effect (d.usedLanes k) d
  dsimp only
  rw [ht]
  generalize (d.usedLanes k).foldl endStep d = e at *
  have hon := onLines_deepTry (e.updLink k fun l => ({ l with measuring := false, meas := 0 } : Link).unpark) k
  have hu : (e.updLink k fun l => ({ l with measuring := false, meas := 0 } : Link).unpark).kl.links[k] =
      ({ e.kl.links[k] with measuring := false, meas := 0 } : Link).unpark := upd_get_self _ _ _
  have hp := (freed_unpark { e.kl.links[k] with measuring := false, meas := 0 }).frame
  have h1 := hon.link_eq Link.measuring (fun _ => rfl) k
  have h2 := hon.link_eq Link.meas (fun _ => rfl) k
  rw [hu, hp] at h1 h2
  refine ⟨h1, h2, fun i hi => (hon.lane_eq Lane.prbsBits (fun _ => rfl) i).trans ((hlane i).2 (.inl hi)), ?_, fun x => ?_⟩
  · rw [hon.frame, hf]
    rfl
  · rw [Dev.byte, hon.frame, hf]
    rfl

/-! ### The statement -/

/-- A lane's command takes place on a part with the lane. -/
theorem lane_completes {i : Instr} {s : State} {n : LaneId} {f : Part → Dev → Dev} (h : exec i s = laneStep n f s) (hc : s.dev.coreOn = true)
    (hp : lanePresent s.part n = true) : Completes i s (f s.part s.dev) := by
  have hf : f s.part s.dev = s.dev.when (lanePresent s.part n) (f s.part) := by
    rw [hp]
    rfl
  rw [hf]
  exact core_completes i s (fun P d => d.when (lanePresent P n) (f P)) h hc

/-- The control block of MEASURE's groups (10 R228, R245). -/
theorem trainCtl_measure (d : Dev) (k : LinkId) {q : Byte} (hq : q ≠ 0) : d.trainCtl (firstLane k) q.toNat =
    ctlBlock 0x2D [(flag (d.kl.lanes[firstLane k]).ready 0 ||| 2).setWidth 8, BitVec.ofNat 8 (d.kl.links[k]).rate,
      BitVec.ofNat 8 (ffeOctet (Config.ffeRequest d.out.length)), BitVec.ofNat 8 (firstLane k).val, q] := by
  have hpos : decide (0 < q.toNat) = true := by
    refine decide_eq_true (Nat.pos_of_ne_zero fun h => hq (BitVec.eq_of_toNat_eq h))
  have hcount : BitVec.ofNat 8 q.toNat = q := (BitVec.ofNat_toNat 8 q).trans (BitVec.setWidth_eq q)
  have hlink : laneLink (firstLane k) = k := (by decide : ∀ k : LinkId, laneLink (firstLane k) = k) k
  unfold Dev.trainCtl
  rw [hpos, hcount]
  simp only [hlink]
  rfl

/-- MEASURE by the register (10 R245). -/
theorem measureStart_completes {s : State} {m : Master} {k : LinkId} {q : Byte} (hw : s.mayWrite m (linkOff k 0x2C)) (hp : linkPresent s.part k = true)
    (hst : (s.dev.kl.links[k]).st = .active) (hm : (s.dev.kl.links[k]).measuring = false) (hq : q ≠ 0) :
    Completes (.measureStart m k q) s (s.dev.measureBegin s.part k q.toNat) := by
  refine write_effect rfl hw ((mmioWrite_meas s.part s.dev m _ _ k q hp).trans ?_)
  unfold Dev.measureStart
  dsimp only
  exact if_pos ⟨hst, by rw [hm]; rfl, hq⟩

/-- Settles O43: each clause by the lemma of its step. -/
theorem linkTraffic : Obligations.LinkTraffic := by
  unfold Obligations.LinkTraffic
  intro s k n b m q f r x v
  dsimp only
  refine ⟨fun hc ht hw hroom hs hf => ?_, fun hc ht h => ?_, fun hc hst hcrc => ?_, ?_, fun hc hp hst hm hn hdue hroom hu => ?_,
    fun hc hp hst hb h0 h1 h4 => ?_, fun hc => ?_, fun hc hp hr hb h0 hn => ?_, fun hw hp hst hm hq => ?_,
    fun hc hp hst hm hb h0 hr h1 h5 => ?_, fun hc hm hl => ?_⟩
  case refine_1 =>
    have hd := core_completes (.frameSend k) s (fun _ d => d.frameSend k) rfl hc
    obtain ⟨h1, h2, h3, h4, h5, h6, h7, h8⟩ := sendNext_effect hs hf
    rw [frameSend_eq ht, if_pos hroom, deepTry_idle (h4.trans hw)] at hd
    exact ⟨_, hd, h1, h2, h3, h5, h6, h7, h8⟩
  case refine_2 =>
    have hd := core_completes (.frameSend k) s (fun _ d => d.frameSend k) rfl hc
    rwa [frameSend_idle ht h] at hd
  case refine_3 =>
    obtain ⟨hf, hk⟩ := frameReceive_badCrc s.part s.dev k x hst hcrc
    refine ⟨_, core_completes (.frameReceive k x) s (fun P d => d.frameReceive P k x) rfl hc, hk, ?_, ?_, ?_, fun a => ?_⟩ <;> rw [hf]
    rfl
  case refine_4 =>
    intro mt tag body hc hst hcrc hs ht hv hsof hmax hlen hb hm hkept h3 hroom
    exact ⟨_, core_completes (.frameReceive k x) s (fun P d => d.frameReceive P k x) rfl hc,
      frameReceive_message s.part s.dev k x hst hcrc hs ht hv hsof hmax hlen hb hm hkept h3 hroom⟩
  case refine_5 =>
    exact ⟨_, lane_completes (f := fun _ d => d.creditSend n) rfl hc hp, creditSend_effect hst hm hn hdue hroom hu⟩
  case refine_6 =>
    have hd := lane_completes (i := .creditBlockReceive n b) (f := fun _ d => d.creditReceive n b) rfl hc hp
    rw [creditReceive_one hst hb h0 h1 h4] at hd
    exact ⟨_, hd, creditTake_deepTry s.dev (laneLink n) v (octets2 b 2)⟩
  case refine_7 =>
    exact ⟨_, core_completes (.alignSend k) s (fun P d => d.alignSend P k) rfl hc, alignSend_effect s.part s.dev k⟩
  case refine_8 =>
    exact ⟨_, lane_completes (f := fun _ d => d.alignReceive n b) rfl hc hp, alignReceive_effect s.dev n b hr hb h0 hn⟩
  case refine_9 =>
    obtain ⟨hf, h1, h2, hz, hto, -, -, hout⟩ := measureBegin_effect s.part s.dev k q.toNat
    rw [trainCtl_measure s.dev k hq] at hout
    exact ⟨_, measureStart_completes hw hp hst hm hq, h1, h2, hout, hz, hto, hf⟩
  case refine_10 =>
    have hd := lane_completes (i := .measureRequestReceive n b) (f := fun P d => d.measureRx P n b) rfl hc hp
    rw [measureRx_begins hst hm hb h0 hr h1 h5] at hd
    obtain ⟨hf, h1, h2, -, -, heq, hlen, -⟩ := measureBegin_effect s.part
      (s.dev.updLane n fun x => { x with eq := if s.dev.eqDef (laneLink n) then x.eq else ffeTake x.eq (octet b 3) }) (laneLink n) (octet b 5).toNat
    refine ⟨_, hd, h1, h2, (heq n).trans ?_, hlen, hf.trans rfl⟩
    show ((upd s.dev.kl.lanes n _)[n]).eq = _
    rw [upd_get_self]
  case refine_11 =>
    exact ⟨_, core_completes (.measureEnd k) s (fun _ d => d.measureEnd k) rfl hc, measureEnd_effect hm hl⟩

end Sys2Proof.Proofs.LinkMeasures
end

section
/-!
Captures: the slot that a capture takes, the start of its acquisition and its pulse; and lines that wait (02 R33, R42, R57, 09 R200).
-/
namespace Sys2Proof.Proofs.LineCaptures

open Sys2Proof.Machine Sys2Proof.Laws Sys2Proof.Proofs.Raise Sys2Proof.Proofs.MgmtRequests Sys2Proof.Proofs.Cascade

/-! ### What a fire changes beside the Hinge -/

/-- A device that differs from another only in what a fire takes up beside the Hinge: slots, events, channels, the acquisition with its ports and LEDs,
the pulse and messages. The Hinge, the contexts, the registers and memory are not among it. -/
def FireOnly (d t : Dev) : Prop :=
  t = { d with ls := t.ls, ev := t.ev, dma := t.dma, pix := t.pix, acq := t.acq, port := t.port, led := t.led, cas := t.cas, kl := t.kl, out := t.out }

theorem FireOnly.refl (d : Dev) : FireOnly d d := rfl

theorem FireOnly.trans {d e t : Dev} (h : FireOnly d e) (h' : FireOnly e t) : FireOnly d t := by
  unfold FireOnly at *
  exact h'.trans (by rw [h])

/-- A run of such changes is one. -/
theorem FireOnly.foldl {α : Type} {f : Dev → α → Dev} (h : ∀ d x, FireOnly d (f d x)) (l : List α) (d : Dev) : FireOnly d (l.foldl f d) :=
  List.foldlRecOn (motive := FireOnly d) l f (.refl d) fun e he x _ => he.trans (h e x)

/-- What it leaves: the Hinge, the contexts, memory. -/
theorem FireOnly.fields {d t : Dev} (h : FireOnly d t) : t.hng = d.hng ∧ t.ctx = d.ctx ∧ t.mem = d.mem ∧ t.cycle = d.cycle ∧ t.regs = d.regs ∧
    t.phase = d.phase ∧ t.mot = d.mot := by
  unfold FireOnly at h
  rw [h]
  exact ⟨rfl, rfl, rfl, rfl, rfl, rfl, rfl⟩

/-- A slot that moves (09 R204). -/
theorem fireOnly_moveSlot (d : Dev) (n : Fin 256) (f : Slot → Slot) : FireOnly d (d.moveSlot n f) := by
  obtain ⟨⟨l, hl⟩, -⟩ := (moveSlot_effect d n f).1
  unfold FireOnly
  rw [hl]

/-- One PINNED slot that is no longer kept goes to FREE; every other slot stays (09 R202). -/
theorem unpin_step (P : Part) (d : Dev) (k : Fin 256) :
    let t := if (d.ls.slots[k]).st = .pinned ∧ !d.kept P d.ls.slots[k] then d.moveSlot k fun s => { s with st := .free } else d
    FireOnly d t ∧ ∀ n : Fin 256, (d.ls.slots[n]).st ≠ .pinned → t.ls.slots[n] = d.ls.slots[n] := by
  dsimp only
  split
  next h =>
    refine ⟨fireOnly_moveSlot _ _ _, fun n hn => ?_⟩
    have hs := (moveSlot_effect d k fun s => { s with st := .free }).2
    simp only [hs, upd_get_ne _ _ _ _ fun e : k = n => hn (e ▸ h.1)]
  next => exact ⟨.refl d, fun _ _ => rfl⟩

/-- Slots that fall out of what is kept leave every slot that is not PINNED (09 R202). -/
theorem unpin_effect (P : Part) (d : Dev) :
    FireOnly d (d.unpin P) ∧ ∀ n : Fin 256, (d.ls.slots[n]).st ≠ .pinned → (d.unpin P).ls.slots[n] = d.ls.slots[n] := by
  refine List.foldlRecOn (motive := fun t => FireOnly d t ∧ ∀ n : Fin 256, (d.ls.slots[n]).st ≠ .pinned → t.ls.slots[n] = d.ls.slots[n])
    _ _ ⟨.refl d, fun _ _ => rfl⟩ fun e he k _ => ?_
  obtain ⟨h1, h2⟩ := unpin_step P e k
  exact ⟨he.1.trans h1, fun n hn => (h2 n (by rw [he.2 n hn]; exact hn)).trans (he.2 n hn)⟩

/-! ### The start of a capture -/

/-- A device that differs from another in its ports and LEDs alone. -/
def LampsOnly (d t : Dev) : Prop := t = { d with port := t.port, led := t.led }

theorem LampsOnly.trans {d e t : Dev} (h : LampsOnly d e) (h' : LampsOnly e t) : LampsOnly d t := by
  unfold LampsOnly at *
  exact h'.trans (by rw [h])

/-- The LEDs at a period's trigger (06 R151). -/
theorem lampsOnly_ledTrigger (d : Dev) (v : Nat) : LampsOnly d (d.ledTrigger v) := by
  have led (e : Dev) (k : Fin 4) (f : Led → Led) : LampsOnly e (e.updLed k f) := rfl
  have start (e : Dev) (k : Fin 4) : LampsOnly e (e.ledPulseStart k) := by
    unfold Dev.ledPulseStart
    split <;> rfl
  have stop (e : Dev) (k : Fin 4) : LampsOnly e (e.ledPulseEnd k) := by
    unfold Dev.ledPulseEnd
    split <;> rfl
  refine List.foldlRecOn (motive := LampsOnly d) _ _ rfl fun e he k _ => he.trans ?_
  have pulses := (start e k).trans (stop _ k)
  dsimp only
  split
  · exact (pulses.trans ((led _ k _).trans (led _ k _))).trans (led _ k _)
  · exact pulses.trans (led _ k _)

/-- A period's start: the acquisition stands in it, and the ports and LEDs follow (06 R146). -/
theorem startPeriod_effect (d : Dev) (k : Nat) : LampsOnly
    { d with acq := { d.acq with period := k, started := d.cycle, done := d.acq.ports.isEmpty && decide (d.acq.periods ≤ k + 1) } } (d.startPeriod k) := by
  refine LampsOnly.trans ?_ (lampsOnly_ledTrigger _ _)
  exact List.foldlRecOn (motive := LampsOnly _) _ _ rfl fun e he p _ => he.trans rfl

/-- A slot taken, the acquisition started and a pulse of LSYNC driven (02 R33, 06 R143, 13 R297). -/
def capture (P : Part) (d : Dev) (n : Fin 256) (kind : Capture) (line : Word) (hdr : LineHdr) (width : Nat) : Dev :=
  ((d.takeSlot P n kind line hdr).fireAcq kind line n).linePulse P width

/-- What the start of a capture shows: its slot in FILL and its acquisition in period 0, and beside them only what a fire takes up. -/
structure Captured (d : Dev) (n : Fin 256) (kind : Capture) (line : Word) (hdr : LineHdr) (t : Dev) : Prop where
  frame : FireOnly d t
  strap : t.cas.strap = d.cas.strap
  slot : ∃ w c x, t.ls.slots[n] = { st := .fill, kind := kind, line := line, written := w, wroteAt := c, width := x, hdr := hdr }
  acq : t.acq.line = line ∧ t.acq.slot = some n ∧ t.acq.period = 0 ∧ t.acq.ports = d.portsOn

/-- A line fire reaches the acquisition: it takes the line, its slot and the ports that take part; with no port enabled the slot is written at once; and
period 0 is triggered (06 R143). -/
theorem fireAcq_eq (d : Dev) (kind : Capture) (line : Word) (n : Fin 256) :
    ∃ (p : Pix) (a : Acq), d.fireAcq kind line n =
      (if d.width = 0 then ({ d with pix := p, acq := a } : Dev).updSlot n fun s => { s with written := true, wroteAt := d.cycle }
        else { d with pix := p, acq := a }).startPeriod 0 ∧
      a.line = line ∧ a.slot = some n ∧ a.ports = d.portsOn :=
  ⟨_, _, rfl, rfl, rfl, rfl⟩

/-- A pulse of LSYNC takes up the chain's counts, an output and a message (13 R297, R309). -/
theorem linePulse_effect (P : Part) (d : Dev) (w : Nat) : let t := d.linePulse P w
    t = { d with cas := t.cas, kl := t.kl, out := t.out } ∧ t.cas.strap = d.cas.strap := by
  unfold Dev.linePulse Dev.drivePulse
  dsimp only
  split
  · split
    · rw [(stageMsg_fields _ _ _ _ _ _).1]
      exact ⟨rfl, rfl⟩
    · exact ⟨rfl, rfl⟩
  · exact ⟨rfl, rfl⟩

/-- The start of a capture in a slot. -/
theorem capture_effect (P : Part) (d : Dev) (n : Fin 256) (kind : Capture) (line : Word) (hdr : LineHdr) (width : Nat) :
    Captured d n kind line hdr (capture P d n kind line hdr width) := by
  obtain ⟨⟨⟨l, hl⟩, -⟩, hs⟩ := moveSlot_effect d n fun _ =>
    { st := .fill, kind := kind, line := line, hold := 0, written := false, wroteAt := 0, segs := 0, width := d.lineWidth P, old := false, hdr := hdr }
  unfold capture Dev.takeSlot
  generalize d.moveSlot n _ = e at *
  have hslot : e.ls.slots[n] = { st := .fill, kind := kind, line := line, width := d.lineWidth P, hdr := hdr } := by
    rw [hs]
    exact upd_get_self _ _ _
  have hports : e.portsOn = d.portsOn := by rw [hl]; rfl
  obtain ⟨p, a, hf, h1, h2, h3⟩ := fireAcq_eq e kind line n
  obtain ⟨x, hx⟩ : ∃ x : Dev, x = if e.width = 0 then ({ e with pix := p, acq := a } : Dev).updSlot n fun s => { s with written := true, wroteAt := e.cycle }
    else { e with pix := p, acq := a } := ⟨_, rfl⟩
  have hxs : ∃ w c, x = { e with pix := p, acq := a, ls := x.ls } ∧
      x.ls.slots[n] = { st := .fill, kind := kind, line := line, written := w, wroteAt := c, width := d.lineWidth P, hdr := hdr } := by
    rw [hx]
    split
    · refine ⟨true, e.cycle, rfl, ?_⟩
      show (upd e.ls.slots n _)[n] = _
      rw [upd_get_self, hslot]
    · exact ⟨false, 0, rfl, hslot⟩
  rw [hf, ← hx]
  obtain ⟨w, c, hxf, hxs⟩ := hxs
  have hp := startPeriod_effect x 0
  unfold LampsOnly at hp
  generalize x.startPeriod 0 = y at *
  obtain ⟨ht, hstrap⟩ := linePulse_effect P y width
  generalize y.linePulse P width = t at *
  have hls : t.ls = x.ls := by rw [ht, hp]
  have hacq : t.acq = { a with period := 0, started := e.cycle, done := a.ports.isEmpty && decide (a.periods ≤ 1) } := by
    rw [ht, hp, hxf]
  refine ⟨?_, ?_, ⟨w, c, d.lineWidth P, by rw [hls, hxs]⟩, by rw [hacq]; exact ⟨h1, h2, rfl, h3.trans hports⟩⟩
  · unfold FireOnly
    rw [ht, hp, hxf, hl]
  · rw [hstrap, hp, hxf, hl]

/-! ### Captures without a number -/

/-- A capture fires at its grid position, where nothing keeps it (02 R57). -/
theorem fireCapture_some {P : Part} {d : Dev} {n : Fin 256} (kind : Capture) (back : Nat) (hs : d.freeSlot = some n)
    (hg : d.atGrid (d.hng.pLast - back * d.pitch) = true) (hm : d.mayFire P = true) : ∃ hdr w, d.fireCapture P kind back =
      some ((capture P d n kind (d.hng.lLast - nword back) hdr w).updHng fun h => { h with firedAt := some d.cycle }) := by
  refine ⟨{ pos := d.trigPu, ts := d.stb }, if kind = .overlap then 16 else 24, ?_⟩
  unfold Dev.fireCapture
  rw [hs]
  dsimp only
  rw [if_pos ⟨hg, hm⟩]
  rfl

/-- An overlap capture takes its slot and is counted; it moves nothing else of the Hinge (02 R57). -/
theorem overlapFire_effect {P : Part} {d : Dev} {n : Fin 256} (hst : d.hng.st = .overlap) (ho : d.hng.ovl < d.hng.kp) (hs : d.freeSlot = some n)
    (hg : d.atGrid (d.hng.pLast - ((d.hng.kp + 2 - d.hng.ovl : Nat) : Int) * d.pitch) = true) (hm : d.mayFire P = true) :
    let t := d.overlapFire P
    t.hng = { d.hng with ovl := d.hng.ovl + 1, firedAt := some d.cycle } ∧ (t.ls.slots[n]).st = .fill ∧ (t.ls.slots[n]).kind = .overlap ∧
      (t.ls.slots[n]).line = d.hng.lLast - nword (d.hng.kp + 2 - d.hng.ovl) ∧ t.ctx = d.ctx ∧ sameBytes d t := by
  obtain ⟨hdr, w, hf⟩ := fireCapture_some .overlap (d.hng.kp + 2 - d.hng.ovl) hs hg hm
  obtain ⟨hframe, -, ⟨a, b, c, hslot⟩, -⟩ := capture_effect P d n .overlap (d.hng.lLast - nword (d.hng.kp + 2 - d.hng.ovl)) hdr w
  have ht : d.overlapFire P = ((capture P d n .overlap (d.hng.lLast - nword (d.hng.kp + 2 - d.hng.ovl)) hdr w).updHng
      fun h => { h with firedAt := some d.cycle }).updHng fun h => { h with ovl := h.ovl + 1 } := by
    unfold Dev.overlapFire
    rw [if_pos ⟨hst, ho⟩, hf]
  dsimp only
  rw [ht]
  generalize capture P d n _ _ hdr w = e at *
  obtain ⟨hhng, hctx, hmem, -⟩ := hframe.fields
  refine ⟨?_, congrArg Slot.st hslot, congrArg Slot.kind hslot, congrArg Slot.line hslot, hctx, fun x => congrArg (memGet · x) hmem⟩
  show { e.hng with ovl := e.hng.ovl + 1, firedAt := some d.cycle } = _
  rw [hhng]

/-- The end of GUARD leaves the numbers, the books, the contexts, memory, and a slot in FILL (02 R58). -/
theorem guardEnd_effect (P : Part) (d : Dev) (n : Fin 256) (hf : (d.ls.slots[n]).st = .fill) :
    let t := d.guardEnd P
    t.hng = (if d.hng.st = .guard ∧ d.hng.grd = 3 ∧ d.hng.corr = .loaded then
      { d.hng with st := .run, newLine := true, corr := .idle, reached := [], fullRaised := 0 } else d.hng) ∧
    t.ls.slots[n] = d.ls.slots[n] ∧ t.ctx = d.ctx ∧ t.mem = d.mem := by
  unfold Dev.guardEnd
  dsimp only
  split
  · obtain ⟨hu, hs⟩ := unpin_effect P (d.updHng fun h => { h with st := .run, newLine := true, corr := .idle, reached := [], fullRaised := 0 })
    obtain ⟨hhng, hctx, hmem, -⟩ := hu.fields
    exact ⟨hhng, hs n (by show (d.ls.slots[n]).st ≠ _; rw [hf]; decide), hctx, hmem⟩
  · exact ⟨rfl, rfl, rfl, rfl⟩

/-- A guard capture takes its slot and is counted; the last of them, with the offsets loaded, ends GUARD (02 R57, R58). -/
theorem guardFire_effect {P : Part} {d : Dev} {n : Fin 256} (hst : d.hng.st = .guard) (hgr : d.hng.grd < 3) (hs : d.freeSlot = some n)
    (hg : d.atGrid (d.hng.pLast - ((2 - d.hng.grd : Nat) : Int) * d.pitch) = true) (hm : d.mayFire P = true) :
    let t := d.guardFire P
    t.hng.grd = d.hng.grd + 1 ∧ t.hng.lineNo = d.hng.lineNo ∧ t.hng.streams = d.hng.streams ∧
      t.hng.st = (if d.hng.grd = 2 ∧ d.hng.corr = .loaded then .run else .guard) ∧ (t.ls.slots[n]).st = .fill ∧ (t.ls.slots[n]).kind = .guard ∧
      (t.ls.slots[n]).line = d.hng.lLast - nword (2 - d.hng.grd) ∧ t.ctx = d.ctx ∧ sameBytes d t := by
  obtain ⟨hdr, w, hf⟩ := fireCapture_some .guard (2 - d.hng.grd) hs hg hm
  obtain ⟨hframe, -, ⟨a, b, c, hslot⟩, -⟩ := capture_effect P d n .guard (d.hng.lLast - nword (2 - d.hng.grd)) hdr w
  have ht : d.guardFire P = Dev.guardEnd P (((capture P d n .guard (d.hng.lLast - nword (2 - d.hng.grd)) hdr w).updHng
      fun h => { h with firedAt := some d.cycle }).updHng fun h => { h with grd := h.grd + 1 }) := by
    unfold Dev.guardFire
    rw [if_pos ⟨hst, hgr⟩, hf]
  dsimp only
  rw [ht]
  generalize capture P d n _ _ hdr w = e at *
  obtain ⟨hhng, hctx, hmem, -⟩ := hframe.fields
  obtain ⟨hh, hls, hc, hme⟩ := guardEnd_effect P ((e.updHng fun h => { h with firedAt := some d.cycle }).updHng fun h => { h with grd := h.grd + 1 }) n
    (congrArg Slot.st hslot)
  generalize Dev.guardEnd P _ = t at *
  have hend : (e.hng.st = .guard ∧ e.hng.grd + 1 = 3 ∧ e.hng.corr = .loaded) ↔ (d.hng.grd = 2 ∧ d.hng.corr = .loaded) := by
    rw [hhng]
    exact ⟨fun h => ⟨Nat.succ.inj h.2.1, h.2.2⟩, fun h => ⟨hst, congrArg (· + 1) h.1, h.2⟩⟩
  have hslot' := hls.trans hslot
  have hhng' : t.hng = if d.hng.grd = 2 ∧ d.hng.corr = .loaded then
      { d.hng with st := .run, grd := d.hng.grd + 1, firedAt := some d.cycle, newLine := true, corr := .idle, reached := [], fullRaised := 0 }
      else { d.hng with grd := d.hng.grd + 1, firedAt := some d.cycle } := by
    rw [hh, ← hhng]
    exact if_congr (by rw [← hhng] at hend; exact hend) rfl rfl
  have hsame : t.hng.grd = d.hng.grd + 1 ∧ t.hng.lineNo = d.hng.lineNo ∧ t.hng.streams = d.hng.streams := by
    rw [hhng']
    split <;> exact ⟨rfl, rfl, rfl⟩
  refine ⟨hsame.1, hsame.2.1, hsame.2.2, ?_, congrArg Slot.st hslot', congrArg Slot.kind hslot', congrArg Slot.line hslot', hc.trans hctx,
    fun x => congrArg (memGet · x) (hme.trans hmem)⟩
  rw [hhng']
  split
  · rfl
  · exact hst

/-! ### What the comparator notes -/

/-- A note of what was reached changes that list alone (02 R35). -/
theorem noteReach_eq (d : Dev) : d.noteReach = { d with hng := { d.hng with reached := d.noteReach.hng.reached } } := by
  unfold Dev.noteReach
  split <;> rfl

/-- What a fire asks for is not in that list. -/
theorem noteReach_fields (P : Part) (d : Dev) : d.noteReach.freeSlot = d.freeSlot ∧ d.noteReach.pitch = d.pitch ∧
    d.noteReach.mayFire P = d.mayFire P ∧ ∀ g, d.noteReach.atGrid g = d.atGrid g := by
  rw [noteReach_eq]
  exact ⟨rfl, rfl, rfl, fun _ => rfl⟩

/-- The list of what was reached has an entry at or beyond a position exactly when it tells its cycle (02 R35). -/
theorem reachOf_ne_none (h : Hinge) (g : Int) : h.reachOf g ≠ none ↔ ∃ r ∈ h.reached, g ≤ r.1 := by
  unfold Hinge.reachOf
  rw [ne_eq, Option.map_eq_none_iff, List.find?_eq_none]
  simp only [decide_eq_true_eq, not_forall, not_not, exists_prop]

/-- Nothing is noted beyond the last entry: an entry stands there, or the position is the one before the next grid position (02 R35). -/
theorem noted_cases (h : Hinge) : (∃ r ∈ h.reached, r.1 = h.noted) ∨ h.noted = h.next - 1 := by
  unfold Hinge.noted
  cases hl : h.reached.getLast? with
  | none => exact .inr rfl
  | some r => exact .inl ⟨r, List.mem_of_getLast? hl, rfl⟩

/-- A grid position at or behind the present one has an entry, old or new (02 R33, R35). -/
theorem passed_covers (d : Dev) (k : Nat) (hk : d.hng.next + k * d.pitch ≤ d.trigPu) :
    ∃ r ∈ d.hng.reached ++ d.passed, d.hng.next + k * d.pitch ≤ r.1 := by
  have hp : (0 : Int) < d.pitch := by
    have : 256 ≤ d.pitch := le_max_left _ _
    omega
  have hnext : d.hng.next ≤ d.hng.next + k * d.pitch := le_add_of_nonneg_right (by positivity)
  generalize hg : d.hng.next + k * d.pitch = g at *
  unfold Dev.passed
  dsimp only
  generalize ({ d with cycle := d.lawSince } : Dev).trigPu = begun
  by_cases hnoted : g ≤ d.hng.noted
  · obtain ⟨r, hr, he⟩ | he := noted_cases d.hng
    · exact ⟨r, List.mem_append_left _ hr, he ▸ hnoted⟩
    · omega
  by_cases hbegun : g ≤ begun
  · refine ⟨(begun, d.lawSince), List.mem_append_right _ (List.mem_append_left _ ?_), hbegun⟩
    rw [if_pos (by omega)]
    exact List.mem_singleton_self _
  · have hlow : (max d.hng.noted begun - d.hng.next) / d.pitch < k := Int.ediv_lt_of_lt_mul hp (by omega)
    have hhigh : (k : Int) ≤ (d.trigPu - d.hng.next) / d.pitch := Int.le_ediv_of_mul_le hp (by omega)
    generalize (max d.hng.noted begun - d.hng.next) / d.pitch = j at *
    have hi : j + 1 + ((k - (j + 1)).toNat : Int) = k := by omega
    have hin : (k - (j + 1)).toNat < ((d.trigPu - d.hng.next) / d.pitch + 1 - (j + 1)).toNat := by omega
    refine ⟨_, List.mem_append_right _ (List.mem_append_right _ (List.mem_map.mpr
      ⟨_, List.mem_flatMap.mpr ⟨_, List.mem_range.mpr hin, List.mem_singleton_self _⟩, rfl⟩)), ?_⟩
    dsimp only
    rw [hi, hg]

/-- In RUN a grid position at which the comparator stands is noted as reached (02 R33, R35). -/
theorem noteReach_atGrid {d : Dev} (k : Nat) (hst : d.hng.st = .run) (hg : d.atGrid (d.hng.next + k * d.pitch) = true) :
    d.noteReach.hng.reachOf (d.hng.next + k * d.pitch) ≠ none := by
  unfold Dev.atGrid at hg
  rw [Bool.and_eq_true, decide_eq_true_eq, decide_eq_true_eq] at hg
  obtain ⟨hmove, hpos⟩ := hg
  have hk : d.hng.next + k * d.pitch ≤ d.trigPu := Int.le_ediv_of_mul_le (by decide) hpos
  have hnext : d.hng.next ≤ d.hng.next + k * d.pitch := le_add_of_nonneg_right (by positivity)
  have hn : d.noteReach = d.updHng fun h => { h with reached := h.reached ++ d.passed } := if_pos ⟨hst, hmove, hnext.trans hk⟩
  rw [reachOf_ne_none, hn]
  exact passed_covers d k hk

/-! ### Lines that wait -/

/-- STORE_FULL, where no slot is FREE, raises event 10 for the next line that waits once its position has been reached, and nothing before (09 R200, R401). -/
theorem storeFull_eq {d : Dev} (hst : d.hng.st = .run) (hs : d.freeSlot = none) :
    d.storeFull = if d.noteReach.hng.reachOf (d.hng.next + d.hng.fullRaised * d.pitch) = none then d.noteReach
      else (d.noteReach.updHng fun h => { h with fullRaised := d.hng.fullRaised + 1 }).raise 10 (d.hng.lineNo + nword d.hng.fullRaised) := by
  obtain ⟨hfree, hpitch, -⟩ := noteReach_fields Part.reset d
  obtain ⟨h1, h2, h3, h4⟩ : d.noteReach.hng.st = d.hng.st ∧ d.noteReach.hng.next = d.hng.next ∧ d.noteReach.hng.fullRaised = d.hng.fullRaised ∧
      d.noteReach.hng.lineNo = d.hng.lineNo := by
    rw [noteReach_eq]
    exact ⟨rfl, rfl, rfl, rfl⟩
  unfold Dev.storeFull
  dsimp only
  rw [h1, h2, h3, h4, hfree, hpitch, hst, hs]
  cases d.noteReach.hng.reachOf (d.hng.next + d.hng.fullRaised * d.pitch) with
  | none => exact if_neg (by simp)
  | some r => exact if_pos (by simp)

/-- An event is asserted alike whatever the Hinge stands at (05 R117). -/
theorem raise_ev_hng (d : Dev) (h : Hinge) (n : Fin 64) (w : Word) : (Dev.raise { d with hng := h } n w).ev = (d.raise n w).ev := by
  have ha : (Dev.assert { d with hng := h } n w).ev = (d.assert n w).ev := by
    unfold Dev.assert Dev.assertBy
    dsimp only
    split <;> rfl
  unfold Dev.raise
  dsimp only
  split
  · rfl
  · rfl
  · rfl
  · exact ha

/-- What STORE_FULL shows when it tells of a line (09 R200). -/
theorem storeFull_told {d : Dev} (hst : d.hng.st = .run) (hs : d.freeSlot = none)
    (hr : d.noteReach.hng.reachOf (d.hng.next + d.hng.fullRaised * d.pitch) ≠ none) :
    let t := d.storeFull
    t.hng.fullRaised = d.hng.fullRaised + 1 ∧ t.hng.lineNo = d.hng.lineNo ∧ t.hng.streams = d.hng.streams ∧
      t.ev = (d.raise 10 (d.hng.lineNo + BitVec.ofNat 32 d.hng.fullRaised)).ev ∧ t = { d with hng := t.hng, ev := t.ev } := by
  have ht := storeFull_eq hst hs
  rw [if_neg hr, noteReach_eq] at ht
  generalize d.noteReach.hng.reached = l at ht
  generalize d.storeFull = t at *
  have hf := raise_eq (Dev.updHng { d with hng := { d.hng with reached := l } } fun h => { h with fullRaised := d.hng.fullRaised + 1 }) 10
    (d.hng.lineNo + nword d.hng.fullRaised)
  rw [← ht] at hf
  refine ⟨by rw [hf]; rfl, by rw [hf]; rfl, by rw [hf]; rfl, ?_, ?_⟩
  · rw [ht]
    exact raise_ev_hng d _ _ _
  · rw [hf]
    rfl

/-- LINE_FIRE fires nothing without a FREE slot, credit on every pacing stream at the start of the cycle, and a cycle without a fire (02 R33, R42). -/
theorem lineFire_waits {P : Part} {d : Dev} (h : (∃ k : Fin 64, (d.hng.streams[k]).opened = true ∧ (d.hng.streams[k]).pace = true ∧
      (d.hng.streams[k]).atStart d.cycle = 0) ∨ d.hng.firedAt = some d.cycle ∨ d.freeSlot = none) : d.lineFire P = d.noteReach := by
  have hm : d.mayFire P = false := by
    unfold Dev.mayFire
    rcases h with ⟨k, ho, hp, h0⟩ | h | h
    · have hk : k ∈ d.pacing := List.mem_filter.mpr ⟨List.mem_finRange k, by rw [ho, hp]; rfl⟩
      have hc : d.credits = false := List.all_eq_false.mpr ⟨k, hk, by rw [h0]; decide⟩
      simp [hc]
    · simp [h]
    · simp [h]
  obtain ⟨-, -, hmay, -⟩ := noteReach_fields P d
  unfold Dev.lineFire
  dsimp only
  split
  · exact if_neg fun h => by simp [hmay, hm] at h
  · rfl

/-- Settles O29: each capture by its slot and its count, event 10 by what the comparator has noted, and a fire that waits by what it asks for. -/
theorem capturesAndWaits : Obligations.CapturesAndWaits := by
  unfold Obligations.CapturesAndWaits
  intro s n hon
  dsimp only
  have hfull : Completes .storeFull s s.dev.storeFull := core_completes .storeFull s (fun _ d => d.storeFull) rfl hon
  have hfire : Completes .lineFire s (s.dev.lineFire s.part) := core_completes .lineFire s (fun P d => d.lineFire P) rfl hon
  have hnote : s.dev.noteReach = { s.dev with hng := s.dev.noteReach.hng } := by
    rw [noteReach_eq]
  refine ⟨fun hst ho hs hg hm => ?_, fun hst hgr hs hg hm => ?_, fun hst hs => ⟨?_, ?_, fun hr => ?_, fun hr => ?_⟩, fun h => ?_⟩
  · exact ⟨_, core_completes .overlapCaptureFire s (fun P d => d.overlapFire P) rfl hon, overlapFire_effect hst ho hs hg hm⟩
  · exact ⟨_, core_completes .guardCaptureFire s (fun P d => d.guardFire P) rfl hon, guardFire_effect hst hgr hs hg hm⟩
  · exact congrArg Dev.hng (noteReach_eq s.dev)
  · exact noteReach_atGrid _ hst
  · exact ⟨_, hfull, storeFull_told hst hs hr⟩
  · rw [storeFull_eq hst hs, if_pos hr] at hfull
    exact hnote ▸ hfull
  · rw [lineFire_waits h, noteReach_eq] at hfire
    exact ⟨_, hfire, rfl, rfl, rfl, rfl⟩

end Sys2Proof.Proofs.LineCaptures
end

section
/-!
The end of a cycle: what the passing of 2.5 ns leaves of the Hinge and of event 12, and the freeze for CREDIT (02 R42, R48).
-/
namespace Sys2Proof.Proofs.LineCycle

open Sys2Proof.Machine Sys2Proof.Laws Sys2Proof.Proofs.Raise Sys2Proof.Proofs.Correlation Sys2Proof.Proofs.HkConversion
  Sys2Proof.Proofs.LinkLines

/-! ### Steps that leave the Hinge and event 12 -/

/-- The Hinge, the count of event 12, and the accesses of SPI and of debug that wait. -/
def stopView (d : Dev) : Hinge × Half × List SpiReq × List DbgReq := (d.hng, (d.ev.src[(12 : Fin 64)]).seq, d.spiReq, d.dbgReq)

/-- Another event raised. -/
theorem stopView_raise (d : Dev) {n : Fin 64} (w : Word) (h : 12 ≠ n) : stopView (d.raise n w) = stopView d := by
  unfold stopView
  rw [raise_seq_ne d w h, raise_eq]

/-- Bytes stored (01 R22). -/
theorem stopView_store (P : Part) (d : Dev) (a : Nat) (bs : List Byte) : stopView (d.store P a bs) = stopView d := by
  have word (n : Nat) (d : Dev) (w : Nat) : stopView (d.eccWrite1 P a n w) = stopView d := by
    unfold Dev.eccWrite1
    split
    · rfl
    · split
      · split
        · rfl
        · exact stopView_raise _ _ (by decide)
      · exact stopView_raise _ _ (by decide)
      · rfl
  have all (bs : List Byte) : stopView (d.storeAll P a bs) = stopView d := foldl_keeps stopView _ (word _) _ d
  unfold Dev.store
  split
  · rfl
  · split
    · exact all _
    · exact all _

/-- A fault record (03 R79). -/
theorem stopView_record (P : Part) (d : Dev) (m k : Nat) (fr : Bool) (pc : Word) (x : Access) (b : Bool) (i st : Word) :
    stopView (d.record P m k fr pc x b i st) = stopView d := by
  have ring (rs : List (Nat × List Word)) : ∀ (i : BitVec 6) (q : Half) (d : Dev), stopView (Dev.writeRecords P rs i q d) = stopView d := by
    induction rs with
    | nil => exact fun _ _ _ => rfl
    | cons r rs ih => exact fun i q d => (ih _ _ _).trans (stopView_store P d _ _)
  unfold Dev.record
  exact (stopView_raise _ _ (by decide)).trans (ring _ _ _ _)

/-- A channel that a violation freezes (03 R78, 09 R217). -/
theorem stopView_dmaFreeze (P : Part) (d : Dev) (n : DmaId) (c a : Nat) (w : Bool) : stopView (d.dmaFreeze P n c a w) = stopView d := by
  have stop (e : Dev) : stopView (e.dmaStop P n 2) = stopView e := by
    unfold Dev.dmaStop Dev.dmaErr
    rw [stopView_raise _ _ (by decide)]
    split <;> rfl
  unfold Dev.dmaFreeze
  exact (stop _).trans (stopView_record P _ _ _ _ _ _ _ _ _)

/-- The next burst of a channel presented (09 R210). -/
theorem stopView_dmaOffer (P : Part) (d : Dev) (n : DmaId) : stopView (d.dmaOffer P n) = stopView d := by
  unfold Dev.dmaOffer
  dsimp only
  split
  · split
    · rfl
    · split
      · exact stopView_dmaFreeze _ _ _ _ _ _
      · rfl
  · rfl

/-- One beat of each write burst in progress (01 R17). -/
theorem stopView_dmaTick (P : Part) (d : Dev) : stopView (d.dmaTick P) = stopView d := by
  have commit (e : Dev) (n : DmaId) (w : Vector Word 7) (b : Nat) : stopView (e.dmaCommit n w b) = stopView e := by
    unfold Dev.dmaCommit
    dsimp only
    split
    · exact stopView_raise _ _ (by decide)
    · rfl
  refine foldl_keeps stopView _ (fun e n => ?_) _ d
  unfold Dev.dmaBeat
  dsimp only
  split
  next w _ =>
    split
    next left a bs _ _ _ =>
      have beat : stopView (((e.store P a bs).dmaCommit n w bs.length).updDma n fun k => { k with burst := left }) = stopView e :=
        (commit _ n w _).trans (stopView_store P e a bs)
      split
      · exact (stopView_dmaOffer _ _ _).trans beat
      · exact beat
    next => rfl
  next => rfl

/-- Beats that engines have put out and their ports grant (01 R17). -/
theorem stopView_lateServe (P : Part) (d : Dev) : stopView (d.lateServe P) = stopView d := by
  refine foldl_keeps stopView _ (fun e p => ?_) _ d
  split
  · unfold Dev.latePut
    split
    · exact stopView_store P _ _ _
    · rfl
  · rfl

/-- Results of housekeeping that wait for room in their crossing (01 R25, 11 R274). -/
theorem stopView_hkWaits (P : Part) (d : Dev) : stopView (d.hkWaits P) = stopView d := by
  have shade (e : Dev) (k : HkEnt) (c : Word) (b : Bool) (v : Int) : stopView (e.shadeResult P k c b v) = stopView e := by
    rw [shadeResult_pix]
    rfl
  have kept (e : Dev) : stopView (e.hkKept P) = stopView e := by
    unfold Dev.hkKept
    split
    · rfl
    · refine foldl_keeps stopView _ (fun e k => ?_) _ e
      unfold Dev.hkKept1
      split
      · split
        · exact (shade _ _ _ _ _).trans rfl
        · rfl
      · rfl
  have die (e : Dev) (t : Int) : stopView (e.dieCross t) = stopView e := by
    unfold Dev.dieCross
    split <;> rfl
  unfold Dev.hkWaits
  dsimp only
  split
  · exact kept d
  · exact (foldl_keeps stopView _ die _ _).trans (kept d)

/-- The entry to STANDBY that waits for its SUSPEND packet (14 R324, R351). -/
theorem stopView_entryGo (P : Part) (d : Dev) : stopView (d.entryGo P) = stopView d := by
  have late (e : Dev) : stopView (e.lateAll P) = stopView e := (foldl_keeps stopView _ (fun e w => stopView_store P e _ _) _ _).trans rfl
  have trace (e : Dev) (k : Vector Word 4) : stopView (e.trcWrite P k) = stopView e := by
    simp only [stopView, trcWrite_fields]
  have deep (e : Dev) (k : LinkId) : stopView (e.linkDeep k) = stopView e := by
    unfold Dev.linkDeep
    split
    · rw [stopView, (onLines_deepTry _ k).frame]
      rfl
    · rfl
  have suspend {e : Dev} (h : d.trcSuspend P 3 = some e) : stopView e = stopView d := by
    unfold Dev.trcSuspend at h
    split at h
    · exact congrArg stopView (Option.some.inj h).symm
    · split at h
      · exact (congrArg stopView (Option.some.inj h).symm).trans ((late _).trans (trace _ _))
      · cases h
  unfold Dev.entryGo
  split
  · split
    next e he => exact (foldl_keeps stopView _ deep _ _).trans ((suspend he).symm ▸ rfl)
    next => rfl
  · rfl

/-- Contexts kept back by a full crossing, STB and the timers, and the slow clocks. -/
theorem stopView_clocks (P : Part) (d : Dev) : stopView (d.heldBack P) = stopView d ∧ stopView d.coreTick = stopView d ∧ stopView (d.slowTick P) = stopView d := by
  refine ⟨?_, ?_, ?_⟩
  · unfold Dev.heldBack
    split
    · rfl
    · exact foldl_keeps stopView _ (fun e c => by split <;> rfl) _ _
  · unfold Dev.coreTick Dev.tmrTick
    refine (foldl_keeps stopView _ (fun e k => ?_) _ _).trans rfl
    dsimp only
    split <;> rfl
  · have aon (e : Dev) : stopView (e.aonTick P) = stopView e := rfl
    have hk (e : Dev) : stopView e.hkTick = stopView e := rfl
    have wdt (e : Dev) (f : Wdt → Wdt) : stopView (e.updWdt f) = stopView e := rfl
    unfold Dev.slowTick
    simp only [apply_ite stopView, hk, aon, wdt, ite_self]

/-- With no access of SPI or of debug waiting, a cycle leaves the Hinge and event 12 but for what the end of a fire's cycle does (02 R42). -/
theorem stopView_tick {P : Part} {d : Dev} (hon : d.coreOn = true) (hspi : (d.creditStop P).spiReq = []) (hdbg : (d.creditStop P).dbgReq = []) :
    stopView (d.tick P) = stopView (d.creditStop P) := by
  obtain ⟨e, he⟩ : ∃ e, e = Dev.entryGo P (Dev.hkWaits P (Dev.lateServe P (Dev.dmaTick P (Dev.coreTick (Dev.heldBack P (d.creditStop P)))))) := ⟨_, rfl⟩
  have hv : stopView e = stopView (d.creditStop P) := by
    rw [he, stopView_entryGo, stopView_hkWaits, stopView_lateServe, stopView_dmaTick, (stopView_clocks P _).2.1, (stopView_clocks P _).1]
  obtain ⟨-, -, hs, hb⟩ : e.hng = _ ∧ _ = _ ∧ e.spiReq = _ ∧ e.dbgReq = _ := by
    simpa only [stopView, Prod.mk.injEq] using hv
  have hspi : e.spiServe P = e := by
    unfold Dev.spiServe
    rw [hs, hspi]
  have hdbg : e.debugServe P = e := by
    unfold Dev.debugServe
    rw [hb, hdbg]
  unfold Dev.tick Dev.coreWaits
  dsimp only
  rw [if_pos hon, ← he, hspi, hdbg]
  split
  · exact hv
  · exact (stopView_clocks P e).2.2.trans hv

/-! ### The end of the cycle of a fire that left C at 0 -/

/-- The Hinge after a freeze from RUN: it records where it stood (02 R48, R49, R53). -/
def frozenHinge (P : Part) (d : Dev) (r : Reason) : Hinge := { d.hng with
  pLast := if d.hng.fired = 0 then d.hng.origin - d.pitch else d.hng.last, lLast := d.hng.lineNo - 1, kp := if 2 ≤ d.kpNow P then d.kpNow P else 0
  noPin := d.hng.noPin || decide (d.kpNow P < 2), st := .freezing, reason := r, resumed := false, vtgt := 0, corr := .idle, ovl := 0, ovlDone := 0
  grd := 0, reached := [], revDone := false }

/-- A freeze from RUN leaves event 12 (02 R48). -/
theorem stopView_freeze (P : Part) (d : Dev) (r : Reason) (hst : d.hng.st = .run) :
    stopView (d.freeze P r) = stopView { d with hng := frozenHinge P d r } := by
  have move (e : Dev) (n : Fin 256) (f : Slot → Slot) : stopView (e.moveSlot n f) = stopView e := by
    unfold Dev.moveSlot Dev.lowCheck
    dsimp only
    split
    · exact stopView_raise _ _ (by decide)
    · split <;> rfl
  have unpin (e : Dev) : stopView (e.unpin P) = stopView e :=
    foldl_keeps stopView _ (fun e n => by split; exacts [move _ _ _, rfl]) _ _
  unfold Dev.freeze
  dsimp only
  rw [if_pos hst, unpin]
  rfl

/-- The end of the cycle of a fire that left C at 0: event 12 is raised for its line, and with EN set a Hinge in RUN freezes for CREDIT (02 R48). -/
theorem stopView_creditStop {P : Part} {d : Dev} {line : Word} (hs : d.hng.stopDue = some line) (ha : d.asleep = false) :
    let e : Dev := { d with hng := { d.hng with stopDue := none, resumeOwed := true } }
    stopView (d.creditStop P) = (if d.hng.st = .run ∧ bit d.hngCtl 0 = true then frozenHinge P e .credit else e.hng,
      (d.ev.src[(12 : Fin 64)]).seq + 1, d.spiReq, d.dbgReq) := by
  have hseq := raise_seq_self (d := { d with hng := { d.hng with stopDue := none, resumeOwed := true } }) 12 line ha
  have hr := raise_eq { d with hng := { d.hng with stopDue := none, resumeOwed := true } } 12 line
  have ht : d.creditStop P = if bit d.hngCtl 0 ∧ d.hng.st = .run
      then Dev.freeze P (Dev.raise { d with hng := { d.hng with stopDue := none, resumeOwed := true } } 12 line) .credit
      else Dev.raise { d with hng := { d.hng with stopDue := none, resumeOwed := true } } 12 line := by
    unfold Dev.creditStop
    rw [hs]
    dsimp only [Dev.updHng]
    rw [hr]
    rfl
  dsimp only
  rw [ht]
  generalize Dev.raise { d with hng := { d.hng with stopDue := none, resumeOwed := true } } 12 line = x at *
  by_cases hc : d.hng.st = .run ∧ bit d.hngCtl 0 = true
  · rw [if_pos hc, if_pos hc.symm, stopView_freeze P x .credit (by rw [hr]; exact hc.1)]
    unfold stopView
    rw [hseq, hr]
    rfl
  · rw [if_neg hc, if_neg fun h => hc h.symm]
    unfold stopView
    rw [hseq, hr]

/-- The end of that cycle, as the tick shows it (02 R42, R48, R61). -/
theorem tick_creditStop {P : Part} {d : Dev} {line : Word} (hon : d.coreOn = true) (hs : d.hng.stopDue = some line) (hspi : d.spiReq = [])
    (hdbg : d.dbgReq = []) :
    let t := d.tick P
    let e : Dev := { d with hng := { d.hng with stopDue := none, resumeOwed := true } }
    t.hng = (if d.hng.st = .run ∧ bit d.hngCtl 0 = true then frozenHinge P e .credit else e.hng) ∧
      (t.ev.src[(12 : Fin 64)]).seq = (d.ev.src[(12 : Fin 64)]).seq + 1 := by
  have hc := stopView_creditStop (P := P) hs (asleep_of_coreOn hon)
  obtain ⟨-, -, h3, h4⟩ := (by simpa only [stopView, Prod.mk.injEq] using hc : _ ∧ _ ∧ (d.creditStop P).spiReq = _ ∧ (d.creditStop P).dbgReq = _)
  have ht := (stopView_tick hon (h3.trans hspi) (h4.trans hdbg)).trans hc
  exact ⟨congrArg Prod.fst ht, congrArg (fun v => v.2.1) ht⟩

end Sys2Proof.Proofs.LineCycle
end

section
/-!
A line's fire: the books it moves, its slot and acquisition, and the end of its cycle (02 R33 to R43, R48, R58).
-/
namespace Sys2Proof.Proofs.LineFires

open Sys2Proof.Machine Sys2Proof.Laws Sys2Proof.Proofs.Interconnect Sys2Proof.Proofs.Raise Sys2Proof.Proofs.Correlation Sys2Proof.Proofs.Cascade Sys2Proof.Proofs.LineCaptures
  Sys2Proof.Proofs.LineCycle

/-! ### The pacing books -/

/-- A stream after a fire: an open one with a credit at the start of the cycle commits it and hands on its gap, one without counts a gap (02 R39, R40). -/
def firedStream (cycle : Nat) (x : Stream) : Stream :=
  if x.opened then
    (if x.atStart cycle = 0 then { x with gap := if x.gap = 0xFFFF then 0xFFFF else x.gap + 1 }
      else { x with avail := x.avail - 1, gap := 0, gapOut := gapSum x.gapOut x.gap })
  else x

/-- A stream commits a line at its fire (02 R39, R43). -/
def commits (cycle : Nat) (x : Stream) : Bool := x.opened && decide (x.atStart cycle ≠ 0)

/-- One stream's share in a fire. -/
def bookStep (acc : BitVec 64 × Tab Nat × Dev) (s : Fin 64) : BitVec 64 × Tab Nat × Dev :=
  let x : Stream := acc.2.2.hng.streams[s]
  if !x.opened then (acc.1 ||| (1#64 <<< s.val), acc.2.1, acc.2.2)
  else if x.atStart acc.2.2.cycle = 0 then
    (acc.1 ||| (1#64 <<< s.val), acc.2.1, acc.2.2.updStream s fun x => { x with gap := if x.gap = 0xFFFF then x.gap else x.gap + 1 })
  else (acc.1, if x.gap = 0 then acc.2.1 else acc.2.1 ++ [(s.val, x.gap.toNat)],
    acc.2.2.updStream s fun x => { x with avail := x.avail - 1, gap := 0, gapOut := gapSum x.gapOut x.gap })

theorem fireBooks_foldl (d : Dev) : d.fireBooks = (List.finRange 64).foldl bookStep (0, [], d) := rfl

/-- A stream's change is what it makes of its book. -/
theorem updStream_congr (d : Dev) (s : Fin 64) {f g : Stream → Stream} (h : f d.hng.streams[s] = g d.hng.streams[s]) : d.updStream s f = d.updStream s g := by
  unfold Dev.updStream
  rw [upd_congr _ _ _ _ h]

/-- A bit of a set of streams that one stream joins. -/
theorem joined_bit (m : BitVec 64) (s k : Fin 64) : (m ||| (1#64 <<< s.val)).getLsbD k.val = (m.getLsbD k.val || decide (s = k)) := by
  have hk : k.val < 64 := k.isLt
  rw [BitVec.getLsbD_or, BitVec.getLsbD_shiftLeft, BitVec.getLsbD_one]
  congr 1
  by_cases h : s = k
  · simp [h]
  · have hv : s.val ≠ k.val := fun e => h (Fin.ext e)
    simp [h]
    omega

/-- One stream's share moves its own book and, where it does not commit, sets its own bit (02 R39). -/
theorem bookStep_effect (acc : BitVec 64 × Tab Nat × Dev) (s : Fin 64) :
    (bookStep acc s).2.2 = acc.2.2.updStream s (firedStream acc.2.2.cycle) ∧
    ∀ k : Fin 64, (bookStep acc s).1.getLsbD k.val = (acc.1.getLsbD k.val || (decide (s = k) && !commits acc.2.2.cycle acc.2.2.hng.streams[s])) := by
  obtain ⟨sk, gaps, d⟩ := acc
  unfold bookStep commits
  dsimp only
  by_cases ho : (d.hng.streams[s]).opened = true
  · by_cases h0 : (d.hng.streams[s]).atStart d.cycle = 0
    · rw [if_neg (by rw [ho]; decide), if_pos h0]
      refine ⟨updStream_congr d s ?_, fun k => ?_⟩
      · unfold firedStream
        rw [if_pos ho, if_pos h0]
        have hgap : (if (d.hng.streams[s]).gap = 0xFFFF then (d.hng.streams[s]).gap else (d.hng.streams[s]).gap + 1) =
            if (d.hng.streams[s]).gap = 0xFFFF then 0xFFFF else (d.hng.streams[s]).gap + 1 := ite_congr rfl id fun _ => rfl
        rw [hgap]
      · rw [joined_bit, ho, decide_eq_false (not_not.mpr h0), Bool.and_false, Bool.not_false, Bool.and_true]
    · rw [if_neg (by rw [ho]; decide), if_neg h0]
      refine ⟨updStream_congr d s ?_, fun k => ?_⟩
      · unfold firedStream
        rw [if_pos ho, if_neg h0]
      · rw [ho, decide_eq_true h0, Bool.and_self, Bool.not_true, Bool.and_false, Bool.or_false]
  · rw [if_pos (by rw [Bool.eq_false_iff.mpr ho]; rfl)]
    refine ⟨?_, fun k => ?_⟩
    · unfold Dev.updStream
      rw [upd_self _ _ (firedStream d.cycle) (if_neg ho)]
    · rw [joined_bit, Bool.eq_false_iff.mpr ho, Bool.false_and, Bool.not_false, Bool.and_true]

/-- What a fire moves in the pacing books: every stream's own book, and the set of those that commit (02 R39, R40, R43). -/
theorem bookSteps_effect (l : List (Fin 64)) : ∀ acc : BitVec 64 × Tab Nat × Dev, l.Nodup →
    let r := l.foldl bookStep acc
    r.2.2 = { acc.2.2 with hng := { acc.2.2.hng with streams := r.2.2.hng.streams } } ∧
    ∀ k : Fin 64, r.2.2.hng.streams[k] = (if k ∈ l then firedStream acc.2.2.cycle acc.2.2.hng.streams[k] else acc.2.2.hng.streams[k]) ∧
      r.1.getLsbD k.val = (acc.1.getLsbD k.val || (decide (k ∈ l) && !commits acc.2.2.cycle acc.2.2.hng.streams[k])) := by
  induction l with
  | nil => exact fun acc _ => ⟨rfl, fun k => ⟨rfl, by simp⟩⟩
  | cons s l ih =>
    intro acc hl
    obtain ⟨hs, hl⟩ := List.nodup_cons.mp hl
    obtain ⟨hd, hb⟩ := bookStep_effect acc s
    obtain ⟨i1, i2⟩ := ih (bookStep acc s) hl
    dsimp only at *
    rw [List.foldl_cons]
    generalize l.foldl bookStep (bookStep acc s) = r at *
    have hc : (bookStep acc s).2.2.cycle = acc.2.2.cycle := by rw [hd]; rfl
    have hk (k : Fin 64) : (bookStep acc s).2.2.hng.streams[k] = if s = k then firedStream acc.2.2.cycle acc.2.2.hng.streams[k] else acc.2.2.hng.streams[k] := by
      rw [hd]
      exact upd_get _ _ _ _
    refine ⟨by rw [i1, hd]; rfl, fun k => ?_⟩
    obtain ⟨j1, j2⟩ := i2 k
    rw [j1, j2, hb, hc, hk]
    by_cases h : s = k
    · subst h
      simp [hs]
    · simp [h, Ne.symm h]

/-- The books after a fire (02 R39, R40). -/
theorem fireBooks_effect (d : Dev) : d.fireBooks.2.2 = { d with hng := { d.hng with streams := d.fireBooks.2.2.hng.streams } } ∧
    ∀ k : Fin 64, d.fireBooks.2.2.hng.streams[k] = firedStream d.cycle d.hng.streams[k] ∧
      (~~~d.fireBooks.1).getLsbD k.val = commits d.cycle d.hng.streams[k] := by
  obtain ⟨h1, h2⟩ := bookSteps_effect (List.finRange 64) (0, [], d) (List.nodup_finRange 64)
  rw [← fireBooks_foldl] at h1 h2
  refine ⟨h1, fun k => ?_⟩
  obtain ⟨j1, j2⟩ := h2 k
  have hk : k.val < 64 := k.isLt
  rw [j1, BitVec.getLsbD_not, j2]
  simp [hk]

/-! ### Lines secured at once -/

/-- A stream without the books noted of secured lines (13 R312). -/
def unnoted (x : Stream) : Stream := { x with after := [] }

/-- A device in which lines are secured notes streams' books, and keeps the rest of the Hinge (13 R312). -/
def Noted (d t : Dev) : Prop :=
  t = { d with hng := { d.hng with streams := t.hng.streams }, cas := t.cas, kl := t.kl } ∧ ∀ k : Fin 64, unnoted t.hng.streams[k] = unnoted d.hng.streams[k]

theorem Noted.trans {d e t : Dev} (h : Noted d e) (h' : Noted e t) : Noted d t := by
  obtain ⟨h1, h2⟩ := h
  obtain ⟨j1, j2⟩ := h'
  exact ⟨j1.trans (by rw [h1]), fun k => (j2 k).trans (h2 k)⟩

/-- Lines at the head of a list are secured (13 R312). -/
theorem noted_secureHead (os : List LineOut) : ∀ d : Dev, Noted d (d.secureHead os).2 := by
  induction os with
  | nil => exact fun d => ⟨rfl, fun _ => rfl⟩
  | cons o os ih =>
    intro d
    obtain ⟨S, hS, hk⟩ : ∃ S, d.noteBooks o os = { d with hng := { d.hng with streams := S } } ∧ ∀ k : Fin 64, unnoted S[k] = unnoted d.hng.streams[k] :=
      ⟨_, rfl, fun k => by
        rw [Fin.getElem_fin, Vector.getElem_ofFn]
        rfl⟩
    have books : Noted d (d.noteBooks o os) := by
      rw [hS]
      exact ⟨rfl, hk⟩
    have now (e : Dev) : Noted e (e.nowSecured o) := by
      unfold Dev.nowSecured
      split <;> exact ⟨rfl, fun _ => rfl⟩
    unfold Dev.secureHead
    split
    · exact (books.trans (now _)).trans (ih _)
    · exact ⟨rfl, fun _ => rfl⟩

/-- A pair device notes the line that fires, and secures what it can (13 R312). -/
def pairNote (P : Part) (d : Dev) (o : LineOut) : Dev := if d.pairRole P then (d.updKl fun k => { k with lineOut := k.lineOut ++ [o] }).secureLines else d

theorem pairNote_effect (P : Part) (d : Dev) (o : LineOut) : Noted d (pairNote P d o) ∧ (d.pairRole P = false → pairNote P d o = d) := by
  unfold pairNote
  refine ⟨?_, fun h => by rw [h]; rfl⟩
  split
  · have h (e : Dev) : Noted e e.secureLines := (noted_secureHead _ e).trans ⟨rfl, fun _ => rfl⟩
    exact Noted.trans (e := d.updKl fun k => { k with lineOut := k.lineOut ++ [o] }) ⟨rfl, fun _ => rfl⟩ (h _)
  · exact ⟨rfl, fun _ => rfl⟩

/-! ### A line's fire, part by part -/

/-- The books moved, and the seam counted that the line follows (02 R39, R58, R61). -/
def seamed (d : Dev) : Dev := d.fireBooks.2.2.updHng fun h => { h with
  seamCnt := if h.newLine then h.seamCnt + 1 else h.seamCnt, valid := h.valid || h.newLine, weakSeen := h.weakSeen || (h.newLine && h.weak) }

/-- The Hinge goes on to the next line (02 R33, R34, R35). -/
def goneOn (d : Dev) (late : Bool) : Dev := d.updHng fun h => { h with
  last := h.next, next := h.next + d.pitch, lineNo := h.lineNo + 1, fired := h.fired + 1, newLine := false, dup := false
  reached := h.reached.filter fun r => decide (h.next + d.pitch ≤ r.1), fullRaised := h.fullRaised - 1, late := h.late || late
  lateCnt := if late then h.lateCnt + 1 else h.lateCnt, firedAt := some d.cycle }

/-- What follows a fire: slots no longer kept, event 11, what was reached meanwhile, and the end of the cycle when C is 0 (02 R42, R47, R52). -/
def settled (P : Part) (d : Dev) (before : Option Nat) (line : Word) : Dev :=
  let d := ((d.unpin P).creditCheck before).noteReach
  if d.cNow = some 0 then d.updHng fun x => { x with stopDue := some line } else d

/-- The next grid position was reached more than a cycle ago (02 R35). -/
def isLate (d : Dev) : Bool := match d.hng.reachOf d.hng.next with | some r => decide (r + 1 < d.cycle) | none => false

/-- The header of a line as its fire writes it (02 R36, R40, R43). -/
def firedHeader (d : Dev) : LineHdr :=
  { seam := d.hng.newLine, weak := d.hng.newLine && d.hng.weak, dup := d.hng.dup, late := isLate d, pos := (seamed d).trigPu
    seamCnt := (seamed d).hng.seamCnt, ts := (seamed d).stb, voff := d.hng.voff, hoff := d.hng.hoff, score := d.hng.score
    skipped := d.fireBooks.1 &&& (seamed d).openSet, committed := ~~~d.fireBooks.1, gaps := d.fireBooks.2.1 }

/-- What a pair device notes of a line that fires (13 R312). -/
def firedLine (d e : Dev) : LineOut := ⟨d.hng.lineNo, d.hng.next, e.counted 0, e.cas.lsyncCnt, ~~~d.fireBooks.1, 0⟩

/-- The device with the line in its slot, the pair's note of it and event 15 (02 R58, 13 R312). -/
def lineTaken (P : Part) (d : Dev) (n : Fin 256) : Dev :=
  let e := capture P (seamed d) n .numbered d.hng.lineNo (firedHeader d) 8
  let e := pairNote P e (firedLine d e)
  if d.hng.newLine then e.raise 15 d.hng.lineNo else e

/-- A line's fire is these parts (02 R33 to R43). -/
theorem fireLine_eq (P : Part) (d : Dev) (n : Fin 256) :
    d.fireLine P n = settled P (goneOn (lineTaken P d n) (isLate d)) d.cNow d.hng.lineNo := by
  unfold Dev.fireLine lineTaken firedHeader firedLine seamed
  generalize d.fireBooks = b
  obtain ⟨sk, gaps, e⟩ := b
  rfl

/-! ### What a line's fire shows -/

/-- The line in its slot: the books are moved, the Hinge counts its seam, the acquisition has begun (02 R33 to R43, R58). -/
theorem lineTaken_effect (P : Part) (d : Dev) (n : Fin 256) : let t := lineTaken P d n
    (∃ S : Vector Stream 64, t.hng = { d.hng with
        streams := S, seamCnt := if d.hng.newLine then d.hng.seamCnt + 1 else d.hng.seamCnt, valid := d.hng.valid || d.hng.newLine
        weakSeen := d.hng.weakSeen || (d.hng.newLine && d.hng.weak) } ∧
      ∀ k : Fin 64, unnoted S[k] = unnoted (firedStream d.cycle d.hng.streams[k]) ∧
        (d.pairRole P = false → S[k] = firedStream d.cycle d.hng.streams[k])) ∧
    FireOnly { d with hng := t.hng } t ∧
    (∃ w c x, t.ls.slots[n] = { st := .fill, kind := .numbered, line := d.hng.lineNo, written := w, wroteAt := c, width := x, hdr := firedHeader d }) ∧
    t.acq.line = d.hng.lineNo ∧ t.acq.slot = some n ∧ t.acq.period = 0 ∧ t.acq.ports = d.portsOn := by
  obtain ⟨hb, hk⟩ := fireBooks_effect d
  have hseam : seamed d = { d with hng := { d.hng with
      streams := d.fireBooks.2.2.hng.streams, seamCnt := if d.hng.newLine then d.hng.seamCnt + 1 else d.hng.seamCnt, valid := d.hng.valid || d.hng.newLine
      weakSeen := d.hng.weakSeen || (d.hng.newLine && d.hng.weak) } } := by
    unfold seamed
    rw [hb]
    rfl
  generalize d.fireBooks.2.2.hng.streams = S at hk hseam
  obtain ⟨hf, hstrap, hslot, hacq⟩ := capture_effect P (seamed d) n .numbered d.hng.lineNo (firedHeader d) 8
  unfold lineTaken
  dsimp only
  generalize capture P (seamed d) n .numbered d.hng.lineNo (firedHeader d) 8 = e at *
  have hrole : e.pairRole P = d.pairRole P := by
    unfold Dev.pairRole Dev.role
    rw [hstrap, hseam]
  obtain ⟨⟨hp, hpk⟩, hpn⟩ := pairNote_effect P e (firedLine d e)
  generalize pairNote P e (firedLine d e) = p at *
  obtain ⟨t, ht⟩ : ∃ t, t = if d.hng.newLine = true then p.raise 15 d.hng.lineNo else p := ⟨_, rfl⟩
  have htp : t = { p with ev := t.ev } := by
    rw [ht]
    split
    · exact raise_eq _ _ _
    · rfl
  rw [← ht]
  have hls : t.ls = e.ls := by rw [htp, hp]
  have hac : t.acq = e.acq := by rw [htp, hp]
  have hstr : e.hng.streams = S := by rw [hf.fields.1, hseam]
  have hports : (seamed d).portsOn = d.portsOn := by rw [hseam]; rfl
  refine ⟨⟨p.hng.streams, ?_, fun k => ⟨?_, fun hr => ?_⟩⟩, ?_, ?_, ?_⟩
  · rw [htp]
    show p.hng = _
    rw [hp, hf.fields.1, hseam]
  · rw [hpk k, hstr, (hk k).1]
  · rw [hpn (hrole.trans hr), hstr, (hk k).1]
  · unfold FireOnly at hf ⊢
    rw [htp, hp, hf, hseam]
  · rw [hls]
    exact hslot
  · rw [hac, ← hports]
    exact hacq

/-- Slots that fall out of what is kept leave the acquisition. -/
theorem unpin_acq (P : Part) (d : Dev) : (d.unpin P).acq = d.acq := by
  refine foldl_keeps Dev.acq _ (fun e k => ?_) _ d
  split
  · obtain ⟨⟨l, hl⟩, -⟩ := (moveSlot_effect e k fun s => { s with st := .free }).1
    rw [hl]
  · rfl

/-- What follows a fire leaves the Hinge but for the watch on credits, what was reached and C at 0; a slot in FILL stays (02 R42, R47, R52). -/
theorem settled_effect (P : Part) (d : Dev) (before : Option Nat) (line : Word) (n : Fin 256) (hf : (d.ls.slots[n]).st = .fill) :
    let t := settled P d before line
    t.hng = { d.hng with lowArmed := t.hng.lowArmed, reached := t.hng.reached, stopDue := if t.cNow = some 0 then some line else d.hng.stopDue } ∧
    FireOnly { d with hng := t.hng } t ∧ t.ls.slots[n] = d.ls.slots[n] ∧ t.acq = d.acq := by
  obtain ⟨hu, hs⟩ := unpin_effect P d
  have ha := unpin_acq P d
  unfold settled
  dsimp only
  generalize d.unpin P = u at *
  have hc := creditCheck_fields u before
  generalize u.creditCheck before = c at *
  have hn := noteReach_eq c
  generalize c.noteReach = e at *
  obtain ⟨low, l, hh⟩ : ∃ low l, e.hng = { d.hng with lowArmed := low, reached := l } := ⟨c.hng.lowArmed, e.hng.reached, by rw [hn, hc, hu.fields.1]⟩
  have hframe : FireOnly { d with hng := e.hng } e := by
    unfold FireOnly at *
    rw [hn, hc, hu]
  have hls : e.ls = u.ls := by rw [hn, hc]
  have hac : e.acq = u.acq := by rw [hn, hc]
  have hslot : e.ls.slots[n] = d.ls.slots[n] := by
    rw [hls]
    exact hs n (by rw [hf]; decide)
  split
  next h0 =>
    have h0' : (e.updHng fun x => { x with stopDue := some line }).cNow = some 0 := h0
    refine ⟨?_, congrArg (fun x => Dev.updHng x fun h => { h with stopDue := some line }) hframe, hslot, hac.trans ha⟩
    rw [if_pos h0']
    show { e.hng with stopDue := some line } = { d.hng with lowArmed := e.hng.lowArmed, reached := e.hng.reached, stopDue := some line }
    rw [hh]
  next h0 =>
    refine ⟨?_, hframe, hslot, hac.trans ha⟩
    rw [hh]

/-- LINE_FIRE fires at its grid position where nothing keeps it (02 R33). -/
theorem lineFire_fires {P : Part} {d : Dev} {n : Fin 256} (hst : d.hng.st = .run) (hs : d.freeSlot = some n) (hg : d.atGrid d.hng.next = true)
    (hm : d.mayFire P = true) : d.lineFire P = d.noteReach.fireLine P n := by
  obtain ⟨hfree, -, hmay, hgrid⟩ := noteReach_fields P d
  have hh : d.noteReach.hng.st = d.hng.st ∧ d.noteReach.hng.next = d.hng.next := by
    rw [noteReach_eq]
    exact ⟨rfl, rfl⟩
  unfold Dev.lineFire
  dsimp only
  rw [hfree, hs]
  dsimp only
  rw [if_pos ⟨hh.1.trans hst, by rw [hgrid, hh.2]; exact hg, hmay.trans hm⟩]

/-- A line's fire from RUN: the Hinge, the books, the slot and the acquisition after it (02 R33 to R43, R48, R58). -/
theorem fireLine_effect (P : Part) (d : Dev) (n : Fin 256) : let t := d.fireLine P n
    let h := d.hng
    (t.hng.lineNo = h.lineNo + 1 ∧ t.hng.fired = h.fired + 1 ∧ t.hng.last = h.next ∧ t.hng.next = h.next + d.pitch ∧ t.hng.newLine = false ∧
      t.hng.seamCnt = (if h.newLine then h.seamCnt + 1 else h.seamCnt) ∧ t.hng.lateCnt = (if isLate d then h.lateCnt + 1 else h.lateCnt) ∧
      t.hng.st = h.st ∧ t.hng.firedAt = some d.cycle ∧ t.hng.stopDue = (if t.cNow = some 0 then some h.lineNo else h.stopDue)) ∧
    (∀ k : Fin 64, unnoted t.hng.streams[k] = unnoted (firedStream d.cycle h.streams[k]) ∧
      (d.pairRole P = false → t.hng.streams[k] = firedStream d.cycle h.streams[k])) ∧
    (∃ w c x, t.ls.slots[n] = { st := .fill, kind := .numbered, line := h.lineNo, written := w, wroteAt := c, width := x, hdr := firedHeader d }) ∧
    (t.acq.line = h.lineNo ∧ t.acq.slot = some n ∧ t.acq.period = 0 ∧ t.acq.ports = d.portsOn) ∧
    t.ctx = d.ctx ∧ t.mem = d.mem := by
  rw [fireLine_eq]
  obtain ⟨⟨S, hS, hk⟩, hf, ⟨w, c, x, hslot⟩, hacq⟩ := lineTaken_effect P d n
  generalize lineTaken P d n = e at *
  have hpitch : e.pitch = d.pitch := by
    unfold Dev.pitch Dev.reg
    rw [hf.fields.2.2.2.2.1]
  have hcycle : e.cycle = d.cycle := hf.fields.2.2.2.1
  obtain ⟨hh, hg, hls, hac⟩ := settled_effect P (goneOn e (isLate d)) d.cNow d.hng.lineNo n (congrArg Slot.st hslot)
  dsimp only
  generalize settled P (goneOn e (isLate d)) d.cNow d.hng.lineNo = t at *
  generalize t.hng.lowArmed = low at hh
  generalize t.hng.reached = l at hh
  have hstr : t.hng.streams = S := by
    rw [hh]
    show e.hng.streams = S
    rw [hS]
  have hnext : (goneOn e (isLate d)).hng.next = d.hng.next + d.pitch := by
    show e.hng.next + e.pitch = _
    rw [hS, hpitch]
  refine ⟨⟨?_, ?_, ?_, ?_, ?_, ?_, ?_, ?_, ?_, ?_⟩, fun k => by rw [hstr]; exact hk k, ⟨w, c, x, hls.trans hslot⟩, ?_, ?_, ?_⟩
  case refine_4 => rw [hh]; exact hnext
  case refine_9 => rw [hh]; exact congrArg some hcycle
  case refine_11 => rw [hac]; exact hacq
  case refine_12 => exact hg.fields.2.1.trans hf.fields.2.1
  case refine_13 => exact hg.fields.2.2.1.trans hf.fields.2.2.1
  all_goals
    rw [hh]
    simp only [goneOn, updHng_fields, hS]

/-- A fire leaves a stream's notes of secured lines (13 R312). -/
theorem firedStream_after (cycle : Nat) (x : Stream) : (firedStream cycle x).after = x.after := by
  unfold firedStream
  split
  · split <;> rfl
  · rfl

/-- A stream's change at a fire, its notes of secured lines apart. -/
theorem firedStream_unnoted {cycle : Nat} {x y : Stream} (h : unnoted y = unnoted (firedStream cycle x)) :
    { y with after := x.after } = firedStream cycle x := by
  have he : { unnoted y with after := x.after } = { unnoted (firedStream cycle x) with after := x.after } := by rw [h]
  rw [← firedStream_after cycle x] at he ⊢
  exact he

/-- A line is late by the cycle in which its position was reached (02 R35). -/
theorem isLate_of {d : Dev} {r : Nat} (h : d.hng.reachOf d.hng.next = some r) : isLate d = decide (r + 1 < d.cycle) := by
  unfold isLate
  rw [h]

/-- Settles O28: a fire by the effect of its parts on the device that has noted what was reached, the end of its cycle by the tick. -/
theorem lineFires : Obligations.LineFires := by
  unfold Obligations.LineFires
  refine ⟨fun s n hon hst hs hg hm => ?_, fun s line hp hon hstop hspi hdbg => ?_⟩
  · have hfire : Completes .lineFire s (s.dev.lineFire s.part) := core_completes .lineFire s (fun P d => d.lineFire P) rfl hon
    rw [lineFire_fires hst hs hg hm] at hfire
    obtain ⟨⟨h1, h2, h3, h4, h5, h6, h7, h8, h9, h10⟩, hk, ⟨w, c, x, hslot⟩, ⟨a1, a2, a3, a4⟩, hctx, hmem⟩ := fireLine_effect s.part s.dev.noteReach n
    have hn := noteReach_eq s.dev
    have hbits (k : Fin 64) := ((fireBooks_effect s.dev.noteReach).2 k).2
    have hcycle : s.dev.noteReach.cycle = s.dev.cycle := by rw [hn]
    have hstr : s.dev.noteReach.hng.streams = s.dev.hng.streams := by rw [hn]
    have hnext : s.dev.noteReach.hng.next = s.dev.hng.next := by rw [hn]
    have hseam : s.dev.noteReach.hng.newLine = s.dev.hng.newLine := by rw [hn]
    have hlate : s.dev.noteReach.hng.lateCnt = s.dev.hng.lateCnt := by rw [hn]
    have hrole : s.dev.noteReach.pairRole s.part = s.dev.pairRole s.part := by rw [hn]; rfl
    refine ⟨_, hfire, h1.trans (by rw [hn]), h2.trans (by rw [hn]), h3.trans hnext, h4.trans (by rw [hn]; rfl), h5, h6.trans (by rw [hn]),
      by rw [hslot], by rw [hslot], by rw [hslot, hn], by rw [hslot]; exact hseam, fun r hr => ?_, fun k => ⟨?_, fun hp => ?_, ?_⟩,
      a1.trans (by rw [hn]), a2, a3, a4.trans (by rw [hn]; rfl), (h8.trans (by rw [hn])).trans hst, h9.trans (by rw [hcycle]),
      h10.trans (by rw [hn]), hctx.trans (by rw [hn]), fun a => congrArg (memGet · a) (hmem.trans (by rw [hn]))⟩
    · have hl := isLate_of (hnext.symm ▸ hr)
      rw [hcycle] at hl
      rw [hslot, h7, hl]
      exact ⟨hl, by rw [hlate]; exact if_congr decide_eq_true_iff rfl rfl⟩
    · rw [hslot]
      refine (hbits k).trans ?_
      rw [hcycle, hstr]
      rfl
    · rw [(hk k).2 (hrole.trans hp), firedStream_after, hstr]
    · have hx := (hk k).1
      rw [hcycle, hstr] at hx
      exact firedStream_unnoted hx
  · obtain ⟨hh, h12⟩ := tick_creditStop (P := s.part) hon hstop hspi hdbg
    have hstep : step s = .next { s with dev := s.dev.tick s.part } := by
      unfold step
      rw [hp]
    refine ⟨s.dev.tick s.part, hstep, ?_⟩
    rw [h12, hh]
    by_cases hc : s.dev.hng.st = .run ∧ bit s.dev.hngCtl 0 = true
    · rw [if_pos hc, if_pos hc]
      exact ⟨rfl, rfl, rfl, rfl, rfl, rfl, rfl, fun _ _ => ⟨rfl, rfl, rfl, rfl⟩⟩
    · rw [if_neg hc, if_neg hc]
      exact ⟨rfl, rfl, rfl, rfl, rfl, rfl, rfl, fun h1 h2 => absurd ⟨h1, h2⟩ hc⟩

end Sys2Proof.Proofs.LineFires
end

section
/-!
Violating accesses, and what a freeze leaves: the context, the record in the ring with its indices, and event 51 (03 R70 to R81, 05 R117, 14 R349, 16 R364).
-/
namespace Sys2Proof.Proofs.Freezes

open Sys2Proof.Machine Sys2Proof.Laws Sys2Proof.Proofs.Scope Sys2Proof.Proofs.Words Sys2Proof.Proofs.Raise Sys2Proof.Proofs.MgmtWords

/-! ### Words put together from fields -/

/-- A number placed above all the bits of a word adds to it. -/
theorem or_place_toNat {w : Word} {v k : Nat} (hw : w.toNat < 2 ^ k) (hv : v * 2 ^ k < 2 ^ 32) :
    (w ||| place v k).toNat = w.toNat + v * 2 ^ k := by
  have hlt : v < 2 ^ 32 := lt_of_le_of_lt (Nat.le_mul_of_pos_right v (Nat.two_pow_pos k)) hv
  have hp : (place v k).toNat = v <<< k := by
    rw [place, BitVec.toNat_shiftLeft, BitVec.toNat_ofNat, Nat.mod_eq_of_lt hlt, Nat.shiftLeft_eq, Nat.mod_eq_of_lt hv]
  rw [BitVec.toNat_or, hp, Nat.or_comm, ← Nat.shiftLeft_add_eq_or_of_lt hw, Nat.shiftLeft_eq, Nat.add_comm]

/-- The value of an I-format word (04 R93). -/
theorem fmtI_toNat {op : Nat} (gd ga : Reg) (imm : Imm18) (h : op < 64) :
    (fmtI op gd ga imm).toNat = imm.toNat + ga.val * 2 ^ 18 + gd.val * 2 ^ 22 + op * 2 ^ 26 := by
  have hi : (imm.setWidth 32).toNat = imm.toNat := by
    rw [BitVec.toNat_setWidth]
    omega
  have turn : ∀ a b c d : Word, a ||| b ||| c ||| d = d ||| c ||| b ||| a := fun a b c d => by ac_rfl
  have hga := or_place_toNat (w := imm.setWidth 32) (v := ga.val) (k := 18) (by omega) (by omega)
  have hgd := or_place_toNat (w := imm.setWidth 32 ||| place ga.val 18) (v := gd.val) (k := 22) (by omega) (by omega)
  rw [fmtI, turn, or_place_toNat (by omega) (by omega), hgd, hga, hi]

/-- The opcode, the first operand and the immediate of an I-format word (04 R93). -/
theorem fmtI_fields {op : Nat} (gd ga : Reg) (imm : Imm18) (h : op < 64) :
    fld (fmtI op gd ga imm) 26 6 = op ∧ Fin.ofNat 16 (fld (fmtI op gd ga imm) 18 4) = ga ∧ (fmtI op gd ga imm).extractLsb' 0 18 = imm := by
  have hw := fmtI_toNat gd ga imm h
  refine ⟨?_, Fin.ext ?_, BitVec.eq_of_toNat_eq ?_⟩
  · rw [fld, BitVec.extractLsb'_toNat, hw, Nat.shiftRight_eq_div_pow]
    omega
  · rw [Fin.val_ofNat, fld, BitVec.extractLsb'_toNat, hw, Nat.shiftRight_eq_div_pow]
    omega
  · rw [BitVec.extractLsb'_toNat, hw, Nat.shiftRight_eq_div_pow]
    omega

/-- A half below the low half of a word. -/
theorem half_or_shifted (h : Half) (w : Word) : h.setWidth 32 ||| (w <<< 16) = (w.extractLsb' 0 16 ++ h : BitVec 32) := by
  refine BitVec.eq_of_getLsbD_eq fun i hi => ?_
  rw [BitVec.getLsbD_append]
  by_cases hl : i < 16
  · simp [hl, hi]
  · simp [hl, hi, show i - 16 < 16 by omega, BitVec.getLsbD_of_ge h i (by omega)]
    rfl

/-- A half below another. -/
theorem half_or_half (h l : Half) : l.setWidth 32 ||| (h.setWidth 32 <<< 16) = (h ++ l : BitVec 32) := by
  rw [half_or_shifted, BitVec.extractLsb'_setWidth_of_le (by decide), BitVec.extractLsb'_eq_self]

/-- Two bytes below a half. -/
theorem bytes_or_half (h : Half) {m k : Nat} (hm : m < 256) (hk : k < 256) :
    place m 0 ||| place k 8 ||| (h.setWidth 32 <<< 16) = (h ++ BitVec.ofNat 8 k ++ BitVec.ofNat 8 m : BitVec 32) := by
  have low : (place m 0).toNat = m := by
    rw [place, BitVec.shiftLeft_zero, BitVec.toNat_ofNat]
    omega
  have both : place m 0 ||| place k 8 = (BitVec.ofNat 8 k ++ BitVec.ofNat 8 m : Half).setWidth 32 := by
    apply BitVec.eq_of_toNat_eq
    rw [or_place_toNat (by omega) (by omega), low, BitVec.toNat_setWidth, BitVec.toNat_append, ← Nat.shiftLeft_add_eq_or_of_lt (BitVec.isLt _),
      Nat.shiftLeft_eq, BitVec.toNat_ofNat, BitVec.toNat_ofNat]
    omega
  rw [both, half_or_half, BitVec.append_assoc]
  rfl

/-- The word of an access in a record: SIZE, WRITE, FETCH, ATOMIC and the privilege (03 R81). -/
theorem accessWord (x : Access) (b : Bool) :
    place (sizeCode x.size) 0 ||| flag x.write 2 ||| flag x.fetch 3 ||| flag x.atomic 4 ||| flag b 5 =
      BitVec.ofNat 32 (sizeCode x.size + 4 * x.write.toNat + 8 * x.fetch.toNat + 16 * x.atomic.toNat + 32 * b.toNat) := by
  have hs : sizeCode x.size < 4 := by
    unfold sizeCode
    repeat' split
    all_goals decide
  have hall : ∀ n < 4, ∀ w f a b : Bool, place n 0 ||| flag w 2 ||| flag f 3 ||| flag a 4 ||| flag b 5 =
      BitVec.ofNat 32 (n + 4 * w.toNat + 8 * f.toNat + 16 * a.toNat + 32 * b.toNat) := by decide
  exact hall _ hs _ _ _ _

/-- w0 to w6 of the record of a context that freezes (03 R81). -/
def freezeWords (d : Dev) (c : CtxId) (k : Nat) (x : Access) (insn : Word) : List Word :=
  [(1#16 ++ BitVec.ofNat 8 k ++ BitVec.ofNat 8 c.val : BitVec 32), (d.ctx[c]).pc, x.addr,
    BitVec.ofNat 32 (sizeCode x.size + 4 * x.write.toNat + 8 * x.fetch.toNat + 16 * x.atomic.toNat + 32 * (d.ctx[c]).priv.toNat),
    insn, d.stb.extractLsb' 0 32, ((stWord d.ctx[c]).extractLsb' 0 16 ++ d.stb.extractLsb' 32 16 : BitVec 32)]

/-- The words of a record that freezes a context, w7 with SEQ and its inverse (03 R81). -/
theorem recordWords_freeze (d : Dev) (c : CtxId) {k : Nat} (x : Access) (insn : Word) (hk : k < 256) :
    recordWords d c.val k true (d.ctx[c]).pc x (d.ctx[c]).priv insn (stWord d.ctx[c]) =
      freezeWords d c k x insn ++ [(~~~d.sys.frSeq ++ d.sys.frSeq : BitVec 32)] := by
  have h0 : place c.val 0 ||| place k 8 ||| flag true 16 = _ := bytes_or_half 1#16 (by omega) hk
  rw [recordWords, h0, accessWord, half_or_shifted, seqWord, half_or_half]
  rfl

/-! ### The record's event, and the indices of the ring -/

/-- A word of AON written whole leaves the fabric (01 R22). -/
theorem eccWrite1_aon_ev (P : Part) (d : Dev) {a n w : Nat} (hr : regionOf P w = .aon) (h : a ≤ w ∧ w + 4 ≤ a + n) : (d.eccWrite1 P a n w).ev = d.ev := by
  unfold Dev.eccWrite1
  rw [if_pos (by rw [hr]; exact h)]
  rfl

/-- The ECC words of an aligned run of words in AON lie in it whole. -/
theorem eccWords_aon {P : Part} {a n w : Nat} (h0 : 0x3000000 ≤ a) (h1 : a + n ≤ 0x3002000) (ha : a % 4 = 0) (hn : n % 4 = 0) (h : w ∈ eccWords P a n) :
    regionOf P w = .aon ∧ a ≤ w ∧ w + 4 ≤ a + n := by
  rw [eccWords, List.mem_dedup, List.mem_map] at h
  obtain ⟨i, hi, rfl⟩ := h
  have hi := List.mem_range.mp hi
  have hb : eccBase P (a + i) = a + i - (a + i) % 4 := by
    rw [eccBase, aon_region P (a + i) (by omega) (by omega)]
    rfl
  rw [hb]
  exact ⟨aon_region P _ (by omega) (by omega), by omega, by omega⟩

/-- Steps that each keep a view of the device, for the entries of a list, keep it together. -/
theorem foldl_keeps_mem {α β : Type} (g : Dev → β) (f : Dev → α → Dev) (l : List α) (h : ∀ x ∈ l, ∀ d, g (f d x) = g d) (d : Dev) :
    g (l.foldl f d) = g d := by
  induction l generalizing d with
  | nil => rfl
  | cons a l ih => exact (ih (fun x hx => h x (.tail _ hx)) _).trans (h a List.mem_cons_self d)

/-- Whole words stored in AON change memory and its marks alone (01 R22). -/
theorem store_aon_eq (P : Part) (d : Dev) {a : Nat} {bs : List Byte} (h0 : 0x3000000 ≤ a) (h1 : a + bs.length ≤ 0x3002000) (hp : 0 < bs.length)
    (ha : a % 4 = 0) (hn : bs.length % 4 = 0) : d.store P a bs = { d with mem := (d.store P a bs).mem, ecc := (d.store P a bs).ecc } := by
  have hl := lsBytes_le P
  have hr : regionOf P a ≠ .lsAbsent := by
    rw [aon_region P a h0 (by omega)]
    decide
  have hlen : presentLen P a bs.length = bs.length := by
    unfold presentLen
    rw [if_neg (by omega)]
  have hev : (d.store P a bs).ev = d.ev := by
    unfold Dev.store
    rw [if_neg hr, if_neg (by omega)]
    exact foldl_keeps_mem Dev.ev _ _ (fun w hw d => have ⟨hr, hin⟩ := eccWords_aon h0 h1 ha hn hw; eccWrite1_aon_ev P d hr hin) d
  exact (store_frame P d bs hr hlen).trans (by rw [hev])

/-- What an event changes in the fabric depends on the fabric, the phase, the registers and the clocks alone (05 R117, R130). -/
theorem raise_ev_congr {d e : Dev} (n : Fin 64) (w : Word) (hev : d.ev = e.ev) (hph : d.phase = e.phase) (hreg : d.regs = e.regs) (hstb : d.stb = e.stb)
    (hcyc : d.cycle = e.cycle) : (d.raise n w).ev = (e.raise n w).ev := by
  have hroute : d.routedNow n = e.routedNow n := by
    funext k
    unfold Dev.routedNow Dev.srcCfgNow Dev.cfgNow Dev.reg
    rw [hev, hreg, hcyc]
  have hassert : (d.assert n w).ev = (e.assert n w).ev := by
    unfold Dev.assert Dev.assertBy
    rw [hev, hstb, hcyc, hroute]
    dsimp only
    split <;> rw [(updEv_fields d _).1, (updEv_fields e _).1, hev]
  unfold Dev.raise
  rw [hph]
  split
  case h_4 => exact hassert
  all_goals exact congrArg (fun v : Fabric => { v with held := v.held ++ [(n, w)] }) hev

section Record

variable (P : Part) (d : Dev) {m k : Nat} {fr : Bool} {pc : Word} {x : Access} {b : Bool} {i st : Word}

/-- A record that is the last of its cycle: its words stored in the ring, the indices, what was written in the cycle, and event 51 (03 R79, 16 R364). -/
theorem record_last (h : ∀ r ∈ d.recordsNow, r.1 ≤ m) : d.record P m k fr pc x b i st =
    ((d.store P (0x3000000 + 32 * d.sys.frW.toNat) ((recordWords d m k fr pc x b i st).flatMap wordBytes)).updSys fun y =>
      { y.recordAt d.cycle with frNow := d.recordsNow ++ [(m, (recordWords d m k fr pc x b i st).take 7)], frAt := d.cycle }).raise 51
      (place m 0 ||| place k 8 ||| (d.sys.frSeq.setWidth 32 <<< 16)) := by
  have hlow : d.recordsNow.filter (fun r => decide (r.1 ≤ m)) = d.recordsNow := List.filter_eq_self.mpr fun r hr => decide_eq_true (h r hr)
  unfold Dev.record
  simp only [hlow, recordsNow_above_nil h, Dev.writeRecords, List.length_nil, BitVec.ofNat_eq_ofNat, BitVec.sub_zero, store_fields]
  rfl

/-- The words of a record stored in the ring change memory and its marks alone. -/
theorem store_recordWords : let t := d.store P (0x3000000 + 32 * d.sys.frW.toNat) ((recordWords d m k fr pc x b i st).flatMap wordBytes)
    t = { d with mem := t.mem, ecc := t.ecc } := by
  have hi := d.sys.frW.isLt
  have hlen : ((recordWords d m k fr pc x b i st).flatMap wordBytes).length = 32 := rfl
  exact store_aon_eq P d (by omega) (by omega) (by omega) (by omega) (by omega)

/-- The indices after a record that is the last of its cycle, and what was written in the cycle (03 R79, 16 R364). -/
theorem record_sys (h : ∀ r ∈ d.recordsNow, r.1 ≤ m) : (d.record P m k fr pc x b i st).sys =
    { d.sys.recordAt d.cycle with frNow := d.recordsNow ++ [(m, (recordWords d m k fr pc x b i st).take 7)], frAt := d.cycle } := by
  rw [record_last P d h, store_recordWords]
  simp only [raise_fields]
  rfl

/-- A record that is the last of its cycle raises event 51 alone (03 R79). -/
theorem record_ev (h : ∀ r ∈ d.recordsNow, r.1 ≤ m) :
    (d.record P m k fr pc x b i st).ev = (d.raise 51 (place m 0 ||| place k 8 ||| (d.sys.frSeq.setWidth 32 <<< 16))).ev := by
  rw [record_last P d h, store_recordWords]
  exact raise_ev_congr _ _ rfl rfl rfl rfl rfl

end Record

/-- The indices after a record in a cycle without a write of SYS_FR_RIDX (16 R364). -/
theorem recordAt_plain {y : Sys} {cycle : Nat} (h : y.ridxAt ≠ some cycle) : y.recordAt cycle = y.recorded := if_neg h

/-- The indices after a record that goes before a write of SYS_FR_RIDX in its cycle (16 R364). -/
theorem recordAt_ridx {y : Sys} {cycle : Nat} (h : y.ridxAt = some cycle) :
    y.recordAt cycle = { y with
      frW := y.frW + 1
      frSeq := y.frSeq + 1
      frPend := if y.frW + 1 = y.frR then (if 63 ≤ y.ridxWas.2 ∧ y.ridxWas.2 ≤ 64 then 64 else 0) else (y.frW + 1 - y.frR).toNat
      frOver := y.frOver || y.ridxWas.2 == 64
      ridxWas := (if y.ridxWas.2 = 64 then y.frW + 1 else y.ridxWas.1, if y.ridxWas.2 = 64 then 64 else y.ridxWas.2 + 1) } := by
  have hr : (y.frR.setWidth 32).extractLsb' 0 6 = y.frR := by
    rw [BitVec.extractLsb'_setWidth_of_le (by decide), BitVec.extractLsb'_eq_self]
  have hf : (if y.ridxWas.2 = 64 then 64 else y.ridxWas.2 + 1) = 64 ↔ 63 ≤ y.ridxWas.2 ∧ y.ridxWas.2 ≤ 64 := by
    split <;> omega
  unfold Sys.recordAt Sys.setRidx Sys.recorded
  rw [if_pos h]
  dsimp only
  rw [hr, if_congr hf rfl rfl]

/-! ### A context that freezes -/

/-- A context that is FROZEN with its cause and has lost its urgency (03 R76). -/
def frozenBy (k : Nat) (y : Ctx) : Ctx := { y with frozen := true, lastCause := BitVec.ofNat 8 k, urgent := 0 }

/-- A context that freezes tells its new state to the trace where it is traced and was not frozen before (14 R349). -/
theorem setRun_frozenBy (P : Part) (d : Dev) (c : CtxId) (k : Nat) :
    d.setRun P c (frozenBy k) = if d.traced c && !(d.ctx[c]).frozen
      then (d.updCtx c (frozenBy k)).trcWrite P (d.packet 3 c.val (runBits (frozenBy k d.ctx[c])) (d.ctx[c]).pc) else d.updCtx c (frozenBy k) := by
  have hy : (d.updCtx c (frozenBy k)).ctx[c] = frozenBy k d.ctx[c] := by
    rw [(updCtx_fields d c _).1, upd_get_self]
  have ha : (frozenBy k d.ctx[c]).awake = false := by simp [Ctx.awake, frozenBy]
  unfold Dev.setRun
  dsimp only
  rw [hy, ha]
  by_cases hf : (d.ctx[c]).frozen = true
  · rw [if_pos ⟨rfl, hf⟩, hf, Bool.not_true, Bool.and_false]
    rfl
  · rw [if_neg fun h => hf h.2, Bool.eq_false_of_not_eq_true hf, Bool.not_false, Bool.and_true]
    rfl

/-- A freeze is the change of its context and the record, which tells PC and ST as they stood (03 R77). -/
theorem freezeCtx_eq (P : Part) (d : Dev) (c : CtxId) (k : Nat) (x : Access) (insn : Word) : d.freezeCtx P c k x insn =
    (d.setRun P c (frozenBy k)).record P c.val k true (d.ctx[c]).pc x (d.ctx[c]).priv insn (stWord d.ctx[c]) := rfl

/-- The bytes, the event and the indices that a freeze leaves (03 R79, R81, 05 R117, 16 R364). -/
theorem freezeCtx_effect (P : Part) (d : Dev) (c : CtxId) {k : Nat} (x : Access) (insn : Word) (hk : k < 256) (hrec : ∀ r ∈ d.recordsNow, r.1 ≤ c.val) :
    let t := d.freezeCtx P c k x insn
    let at_ := 0x3000000 + 32 * d.sys.frW.toNat
    (∀ i : Fin 7, t.word (at_ + 4 * i.val) = (freezeWords d c k x insn)[i.val]!) ∧
    t.word (at_ + 28) = (~~~d.sys.frSeq ++ d.sys.frSeq : BitVec 32) ∧
    sameBytesBut d t at_ 32 ∧
    t.ev = (d.raise 51 (d.sys.frSeq ++ BitVec.ofNat 8 k ++ BitVec.ofNat 8 c.val : BitVec 32)).ev ∧
    t.sys = { d.sys.recordAt d.cycle with frNow := d.recordsNow ++ [(c.val, freezeWords d c k x insn)], frAt := d.cycle } := by
  intro t at_
  obtain ⟨e, he⟩ : ∃ e, e = d.setRun P c (frozenBy k) := ⟨_, rfl⟩
  have ht : t = e.record P c.val k true (d.ctx[c]).pc x (d.ctx[c]).priv insn (stWord d.ctx[c]) := by
    rw [he]
    exact freezeCtx_eq P d c k x insn
  have hsys : e.sys = d.sys := by simp [he]
  have hcyc : e.cycle = d.cycle := by simp [he]
  have hstb : e.stb = d.stb := by simp [he]
  have hmem : e.mem = d.mem := by simp [he]
  have hnow : e.recordsNow = d.recordsNow := by rw [Dev.recordsNow, hsys, hcyc, Dev.recordsNow]
  have hwords : recordWords e c.val k true (d.ctx[c]).pc x (d.ctx[c]).priv insn (stWord d.ctx[c]) =
      freezeWords d c k x insn ++ [(~~~d.sys.frSeq ++ d.sys.frSeq : BitVec 32)] := by
    rw [← recordWords_freeze d c x insn hk, recordWords, hstb, hsys, recordWords]
  rw [← hnow] at hrec
  have hword := record_word P e (k := k) (fr := true) (pc := (d.ctx[c]).pc) (x := x) (b := (d.ctx[c]).priv) (i := insn) (st := stWord d.ctx[c]) hrec
  simp only [← ht, hsys, hwords] at hword
  refine ⟨fun i => ?_, hword 7 (by decide), fun a ha => ?_, ?_, ?_⟩
  · rw [hword i (by omega), List.getElem_append_left i.isLt, getElem!_pos (freezeWords d c k x insn) i.val i.isLt]
  · rw [ht, record_byte P e _ _ _ _ _ _ _ _ a (recordsNow_above_nil hrec) (by rw [hsys]; exact ha), Dev.byte, hmem, Dev.byte]
  · rw [ht, record_ev P e hrec, hsys, bytes_or_half _ (by omega) hk]
    exact raise_ev_congr _ _ (by simp [he]) (by simp [he]) (by simp [he]) hstb hcyc
  · rw [ht, record_sys P e hrec, hwords, hsys, hcyc, hnow]
    rfl

/-- The power unit after a freeze: a packet of a traced context alone touches it (14 R349). -/
theorem freezeCtx_pwr (P : Part) (d : Dev) (c : CtxId) (k : Nat) (x : Access) (insn : Word) :
    (d.freezeCtx P c k x insn).pwr = (if d.traced c && !(d.ctx[c]).frozen
      then (d.updCtx c (frozenBy k)).trcWrite P (d.packet 3 c.val (runBits (frozenBy k d.ctx[c])) (d.ctx[c]).pc) else d).pwr := by
  rw [freezeCtx_eq]
  simp only [record_fields, setRun_frozenBy]
  split <;> rfl

/-! ### Violating accesses -/

section Access

variable {s : State} {c : CtxId} {k : Nat} (h : s.issues c)

/-- A store whose access violates waits for no crossing (04 R97). -/
theorem crossFull_violation {op : Nat} {gd ga : Reg} {imm : Imm18} {n : Nat} (hop : (op = 0x13 ∧ n = 4) ∨ op = 0x14 ∨ op = 0x15)
    (hk : s.dev.accessCause s.part c ((s.dev.ctx[c]).addr18 ga imm).toNat n true = some k) :
    s.dev.crossFull s.part c (fmtI op gd ga imm) = false := by
  obtain ⟨hfop, hfga, hfimm⟩ := fmtI_fields gd ga imm (op := op) (by omega)
  unfold Dev.crossFull
  rw [hfop, hfga, hfimm]
  rcases hop with ⟨rfl, rfl⟩ | rfl | rfl
  · rw [Ctx.addr18] at hk
    dsimp only
    rw [hk, Option.isNone_some, Bool.and_false, Bool.false_and]
    rfl
  · rfl
  · rfl

include h

/-- A context whose instruction issues holds none, before the issue and after it. -/
theorem issues_held : (s.dev.ctx[c]).held = none ∧ ((s.issued c).ctx[c]).held = none := by
  have hh := mayIssue_held h.1
  refine ⟨hh, ?_⟩
  rw [issued_ctx, upd_get_self]
  exact hh

/-- The violation of the access of an instruction that issues, as it is found before the issue and after it. -/
theorem issues_checkedCause (a n : Nat) (w : Bool) : s.dev.checkedCause s.part c a n w = s.dev.accessCause s.part c a n w ∧
    (s.issued c).checkedCause s.part c a n w = s.dev.accessCause s.part c a n w := by
  obtain ⟨h1, h2⟩ := issues_held h
  unfold Dev.checkedCause
  rw [h1, h2, issued_accessCause]
  exact ⟨rfl, rfl⟩

/-- So with an atomic access. -/
theorem issues_checkedAtomic (a : Nat) : s.dev.checkedAtomic s.part c a = s.dev.atomicCause s.part c a ∧
    (s.issued c).checkedAtomic s.part c a = s.dev.atomicCause s.part c a := by
  obtain ⟨h1, h2⟩ := issues_held h
  unfold Dev.checkedAtomic
  rw [h1, h2, issued_atomicCause]
  exact ⟨rfl, rfl⟩

/-- A violating load freezes its context (03 R76, R77). -/
theorem load_violates {i : Instr} {gd ga : Reg} {imm : Imm18} {n : Nat} {insn : Word} (hi : exec i s = act (fun P d => d.load P c gd ga imm n insn) s)
    (hk : s.dev.accessCause s.part c ((s.dev.ctx[c]).addr18 ga imm).toNat n false = some k) :
    Completes i s (s.violates c k { addr := (s.dev.ctx[c]).addr18 ga imm, size := n } insn) := by
  obtain ⟨h1, h2⟩ := issues_checkedCause h ((s.dev.ctx[c]).addr18 ga imm).toNat n false
  rw [Completes, hi, act, Dev.load, issueFor_of s c _ _ _ _ h (by rw [Dev.loadReady, h1, hk]; rfl), Dev.loadBody, h2, hk]
  rfl

/-- A violating store freezes its context (03 R76, R77). -/
theorem store_violates {i : Instr} {op : Nat} {gd ga : Reg} {imm : Imm18} {n : Nat} (hop : (op = 0x13 ∧ n = 4) ∨ op = 0x14 ∨ op = 0x15)
    (hi : exec i s = act (fun P d => d.storeInsn P c gd ga imm n (fmtI op gd ga imm)) s)
    (hk : s.dev.accessCause s.part c ((s.dev.ctx[c]).addr18 ga imm).toNat n true = some k) :
    Completes i s (s.violates c k { addr := (s.dev.ctx[c]).addr18 ga imm, size := n, write := true } (fmtI op gd ga imm)) := by
  obtain ⟨h1, h2⟩ := issues_checkedCause h ((s.dev.ctx[c]).addr18 ga imm).toNat n true
  rw [Completes, hi, act, Dev.storeInsn, Dev.when, crossFull_violation hop hk, Bool.not_false, Bool.or_true, if_pos rfl,
    issueFor_of s c _ _ _ _ h (by rw [Dev.storeReady, h1, hk]; rfl), Dev.storeBody, h2, hk]
  rfl

/-- A violating SWAP or CAS freezes its context (03 R75, R77). -/
theorem atomic_violates {i : Instr} {gd ga : Reg} {imm : Imm14} {insn : Word} {f : Dev → Word → Option Word × Option Bool}
    (hi : exec i s = act (fun P d => d.atomic P c gd ga imm insn (f d)) s)
    (hk : s.dev.atomicCause s.part c ((s.dev.ctx[c]).addr14 ga imm).toNat = some k) :
    Completes i s (s.violates c k { addr := (s.dev.ctx[c]).addr14 ga imm, size := 4, atomic := true } insn) := by
  obtain ⟨h1, h2⟩ := issues_checkedAtomic h ((s.dev.ctx[c]).addr14 ga imm).toNat
  rw [Completes, hi, act, Dev.atomic, issueFor_of s c _ _ _ _ h (by rw [Dev.atomicReady, h1, hk]; rfl), Dev.atomicBody, h2, hk]
  rfl

end Access

/-- Settles O10: the accesses by the check that stands in front of each, the freeze by its record, its event and its packet. -/
theorem violationsFreezeWithRecord : Obligations.ViolationsFreezeWithRecord := by
  refine ⟨fun s c gd ga gb imm imm14 k h => ?_, fun P d c k x insn hk hrec => ?_⟩
  · refine ⟨fun hk => ?_, fun hk => ?_, fun hk => ?_, fun hk => ?_, fun hk => ?_, fun hk => ?_, fun hk => ?_, fun hk => ?_⟩
    · exact load_violates h rfl hk
    · exact load_violates h rfl hk
    · exact load_violates h rfl hk
    · exact store_violates h (.inl ⟨rfl, rfl⟩) rfl hk
    · exact store_violates h (.inr (.inl rfl)) rfl hk
    · exact store_violates h (.inr (.inr rfl)) rfl hk
    · exact atomic_violates h (f := fun d => swapRule ((d.ctx[c]).rd gb)) rfl hk
    · exact atomic_violates h (f := fun d => casRule ((d.ctx[c]).rd gd) ((d.ctx[c]).rd gb)) rfl hk
  · obtain ⟨hwords, hw7, hbytes, hev, hsys⟩ := freezeCtx_effect P d c x insn hk hrec
    refine ⟨freezeCtx_ctx P d c k x insn, freezeCtx_pwr P d c k x insn, fun _ => hev, hwords, hw7, fun _ => hbytes, fun _ hr => ?_, fun _ hr => ?_⟩
    · rw [recordAt_plain hr] at hsys
      exact hsys
    · rw [recordAt_ridx hr] at hsys
      exact hsys

end Sys2Proof.Proofs.Freezes
end

section
/-!
ALU instructions: their results and flags in the library's own terms, and what an issue changes (04 R95, R96, R98, 03 R67, R68).
-/
namespace Sys2Proof.Proofs.Alu

open Sys2Proof.Machine Sys2Proof.Laws Sys2Proof.Proofs.Raise Sys2Proof.Proofs.MgmtWords

/-! ### Flags -/

/-- The exact signed sum differs from the wrapped one exactly on signed overflow. -/
theorem add_wraps_iff (a b : Word) : decide ((a + b).toInt ≠ a.toInt + b.toInt) = a.saddOverflow b := by
  cases h : a.saddOverflow b with
  | false => exact decide_eq_false fun hn => hn (BitVec.toInt_add_of_not_saddOverflow (by rw [h]; decide))
  | true =>
    have hlt := BitVec.toInt_lt (x := a + b)
    have hle := BitVec.le_toInt (a + b)
    rw [BitVec.saddOverflow, Bool.or_eq_true, decide_eq_true_eq, decide_eq_true_eq] at h
    exact decide_eq_true (by omega)

/-- So with the difference. -/
theorem sub_wraps_iff (a b : Word) : decide ((a - b).toInt ≠ a.toInt - b.toInt) = a.ssubOverflow b := by
  cases h : a.ssubOverflow b with
  | false => exact decide_eq_false fun hn => hn (BitVec.toInt_sub_of_not_ssubOverflow (by rw [h]; decide))
  | true =>
    have hlt := BitVec.toInt_lt (x := a - b)
    have hle := BitVec.le_toInt (a - b)
    rw [BitVec.ssubOverflow, Bool.or_eq_true, decide_eq_true_eq, decide_eq_true_eq] at h
    exact decide_eq_true (by omega)

/-- So with the product. -/
theorem mul_wraps_iff (a b : Word) : decide ((a * b).toInt ≠ a.toInt * b.toInt) = a.smulOverflow b := by
  cases h : a.smulOverflow b with
  | false => exact decide_eq_false fun hn => hn (BitVec.toInt_mul_of_not_smulOverflow (by rw [h]; decide))
  | true =>
    have hlt := BitVec.toInt_lt (x := a * b)
    have hle := BitVec.le_toInt (a * b)
    rw [BitVec.smulOverflow, Bool.or_eq_true, decide_eq_true_eq, decide_eq_true_eq] at h
    exact decide_eq_true (by omega)

/-- The last bit that a left shift pushes out stands in bit 32 of the doubled width; a shift by 0 pushes none. -/
theorem shl_carry (a : Word) {n : Nat} (h : n < 32) : (n != 0 && bit a (32 - n)) = (a.setWidth 64 <<< n).getLsbD 32 := by
  rw [BitVec.getLsbD_shiftLeft, BitVec.getLsbD_setWidth, bit]
  cases n with
  | zero => simp
  | succ n => simp [show ¬ 32 < n + 1 by omega, show 31 - n < 64 by omega]

/-- The last bit that a right shift pushes out stands in bit 31 below the upper half of the doubled width; a shift by 0 pushes none. -/
theorem shr_carry (a : Word) {n : Nat} (h : n < 32) : (n != 0 && bit a (n - 1)) = ((a.setWidth 64 <<< 32) >>> n).getLsbD 31 := by
  rw [BitVec.getLsbD_ushiftRight, BitVec.getLsbD_shiftLeft, BitVec.getLsbD_setWidth, bit]
  cases n with
  | zero => simp
  | succ n => simp [show n + 1 + 31 < 64 by omega, show n + 1 + 31 - 32 = n by omega, show n < 64 by omega]

/-- The upper half of the exact signed product. -/
theorem mulh_high (a b : Word) : iword (a.toInt * b.toInt / 2 ^ 32) = (a.signExtend 64 * b.signExtend 64).extractLsb' 32 32 := by
  have ha : (a.signExtend 64).toInt = a.toInt := BitVec.toInt_signExtend_of_le (by decide)
  have hb : (b.signExtend 64).toInt = b.toInt := BitVec.toInt_signExtend_of_le (by decide)
  have hw : a.signExtend 64 * b.signExtend 64 = BitVec.ofInt 64 (a.toInt * b.toInt) := by
    rw [← ha, ← hb, BitVec.ofInt_mul, BitVec.ofInt_toInt, BitVec.ofInt_toInt]
  rw [hw]
  generalize a.toInt * b.toInt = p
  apply BitVec.eq_of_toNat_eq
  rw [BitVec.extractLsb'_toNat, iword, BitVec.toNat_ofInt, BitVec.toNat_ofInt, Nat.shiftRight_eq_div_pow]
  omega

/-- The signed minimum. -/
theorem min_slt (a b : Word) : (if a.toInt ≤ b.toInt then a else b) = if a.slt b then a else b := by
  rcases lt_trichotomy a.toInt b.toInt with h | h | h
  · rw [if_pos h.le, if_pos (by rw [BitVec.slt_eq_decide]; exact decide_eq_true h)]
  · rw [BitVec.eq_of_toInt_eq h, ite_self, ite_self]
  · rw [if_neg h.not_ge, if_neg (by rw [BitVec.slt_eq_decide, decide_eq_true_eq]; exact h.not_gt)]

/-- The signed maximum. -/
theorem max_slt (a b : Word) : (if a.toInt ≤ b.toInt then b else a) = if a.slt b then b else a := by
  rcases lt_trichotomy a.toInt b.toInt with h | h | h
  · rw [if_pos h.le, if_pos (by rw [BitVec.slt_eq_decide]; exact decide_eq_true h)]
  · rw [BitVec.eq_of_toInt_eq h, ite_self, ite_self]
  · rw [if_neg h.not_ge, if_neg (by rw [BitVec.slt_eq_decide, decide_eq_true_eq]; exact h.not_gt)]

/-! ### Results -/

/-- An ALU instruction puts its result in its register, and its flags, and PC on the next instruction (04 R96). -/
theorem alu_completes {i : Instr} {s : State} {c : CtxId} {gd : Reg} {f : Ctx → Word × Flags} {r : Word} {C V : Bool}
    (hi : exec i s = act (fun P d => d.alu P c gd f) s) (h : s.issues c) (hf : f ((s.issued c).ctx[c]) = (r, flagsOf r C V)) :
    Completes i s (s.aluTo c gd r C V) := by
  rw [Completes, hi, act, Dev.alu, issue_of s c _ h, State.aluTo,
    updCtx_congr _ c _ (fun x => { x.wr gd r with z := r == 0, n := r.msb, c := C, v := V, pc := x.pc + 4 }) (by rw [hf]; rfl)]

/-! ### The issue -/

/-- What a read of memory changes: the ECC marks and the fabric. -/
def Checked (d t : Dev) : Prop := t = { d with ecc := t.ecc, ev := t.ev }

theorem Checked.trans {d e t : Dev} (h : Checked d e) (h' : Checked e t) : Checked d t := by
  unfold Checked at *
  exact h'.trans (by rw [h])

/-- The ECC check of one word (01 R22). -/
theorem checked_eccRead1 (P : Part) (d : Dev) (w : Nat) : Checked d (d.eccRead1 P w) := by
  have hraise (n : Fin 64) (v : Word) : Checked d (d.raise n v) := by
    unfold Checked
    rw [raise_eq]
  unfold Dev.eccRead1
  split
  · dsimp only
    split
    · exact hraise _ _
    · exact (hraise _ _).trans rfl
  · exact hraise _ _
  · rfl

/-- A read by beats (01 R22, R399). -/
theorem checked_beatRead (P : Part) (d : Dev) (a n : Nat) : Checked d (d.beatRead P a n) := by
  have hfold (l : List Nat) : ∀ d : Dev, Checked d (l.foldl (fun d w => d.eccRead1 P w) d) := by
    induction l with
    | nil => exact fun _ => rfl
    | cons w l ih => exact fun d => (checked_eccRead1 P d w).trans (ih _)
  exact hfold _ d

/-- The fetch of an instruction (03 R66). -/
theorem checked_fetchEcc (P : Part) (d : Dev) (c : CtxId) : Checked d (d.fetchEcc P c) := by
  unfold Dev.fetchEcc Dev.fetchBeat
  split
  · rfl
  · split
    · exact checked_beatRead P d _ _
    · rfl

/-- An issue changes contexts, the fabric, the marks and the note of promoted issues alone (03 R67, R68). -/
theorem issued_frame (s : State) (c : CtxId) :
    s.issued c = { s.dev with ctx := (s.issued c).ctx, ev := (s.issued c).ev, ecc := (s.issued c).ecc, promo := (s.issued c).promo } := by
  have h := checked_fetchEcc s.part s.dev c
  unfold State.issued
  rw [h]
  rfl

/-- An issue leaves every byte of memory. -/
theorem issued_sameBytes (s : State) (c : CtxId) : sameBytes s.dev (s.issued c) := fun a => by
  simp [Dev.byte]

/-- Settles O6: each instruction by the rule of its result, the issue by its frame. -/
theorem aluResultsAndFrame : Obligations.AluResultsAndFrame := by
  refine ⟨fun s c gd ga gb imm imm18 h => ?_, fun s c => ⟨issued_frame s c, issued_sameBytes s c, fun k hk => ?_, ?_, ?_⟩⟩
  · have hn : fld ((s.dev.ctx[c]).rd gb + imm.signExtend 32) 0 5 < 32 := (BitVec.extractLsb' 0 5 _).isLt
    have hb : ((s.issued c).ctx[c]).opB gb imm = (s.dev.ctx[c]).rd gb + imm.signExtend 32 := by rw [Ctx.opB, issued_rd, sext]
    refine ⟨alu_completes rfl h ?_, alu_completes rfl h ?_, alu_completes rfl h ?_, alu_completes rfl h ?_, alu_completes rfl h ?_,
      alu_completes rfl h ?_, alu_completes rfl h ?_, alu_completes rfl h ?_, alu_completes rfl h ?_, alu_completes rfl h ?_,
      alu_completes rfl h ?_, alu_completes rfl h ?_, alu_completes rfl h ?_, alu_completes rfl h ?_, ?_⟩
    · rw [issued_rd, hb, addR, add_wraps_iff]; rfl
    · rw [issued_rd, hb, subR, sub_wraps_iff]; rfl
    · rw [issued_rd, hb, logicR]
    · rw [issued_rd, hb, logicR]
    · rw [issued_rd, hb, logicR]
    · rw [issued_rd, hb, shlR, shl_carry _ hn]; rfl
    · rw [issued_rd, hb, shrR, shr_carry _ hn]; rfl
    · rw [issued_rd, hb, sraR, shr_carry _ hn]; rfl
    · rw [issued_rd, hb, mulR, mul_wraps_iff]
    · rw [issued_rd, hb, mulhR, mulh_high, logicR]
    · rw [issued_rd, hb, minR, min_slt, logicR]
    · rw [issued_rd, hb, maxR, max_slt, logicR]
    · rw [issued_rd, hb, subR, sub_wraps_iff]; rfl
    · rw [issued_rd, addR, add_wraps_iff]; rfl
    · rw [Completes, show exec (.lui c gd imm18) s = act (fun P d => d.alu P c gd _) s from rfl, act, Dev.alu, issue_of s c _ h]
      exact congrArg _ (congrArg _ (updCtx_congr _ c _ _ (by simp [Ctx.setFlags])))
  · rw [issued_ctx, upd_get_ne _ _ _ _ hk.symm]
  · rw [issued_ctx, upd_get_self]
    exact ⟨rfl, rfl, rfl, rfl, rfl, rfl, rfl, rfl, rfl, rfl, rfl, rfl, rfl, rfl, rfl, rfl, rfl, rfl, rfl, rfl, rfl⟩
  · rw [issued_ctx, upd_get_self]

end Sys2Proof.Proofs.Alu
end

section
/-!
Control, scheduling and privileged instructions: what an instruction that issues comes to, changes of one context with what they tell the trace, and violations by the word itself (03 R65 to R68, R87, R89, 04 R93, R101 to R109, R112, R114, 14 R349).
-/
namespace Sys2Proof.Proofs.Control

open Sys2Proof.Machine Sys2Proof.Laws Sys2Proof.Proofs.Interconnect Sys2Proof.Proofs.Standby Sys2Proof.Proofs.Alu

/-! ### From an instruction to its body -/

section Body

variable {i : Instr} {s : State} {c : CtxId} (h : s.issues c)

include h

/-- An instruction that waits for nothing comes to its body on the device after the fetch. -/
theorem issue_completes {b : Part → Dev → Dev} (hi : exec i s = act (fun P d => d.issue P c (b P)) s) : Completes i s (b s.part (s.issued c)) := by
  rw [Completes, hi, act, issue_of s c _ h]

/-- So does one whose wait is over as it issues. -/
theorem issueWhen_completes {insn : Word} {r : Dev → Bool} {b : Part → Dev → Dev}
    (hi : exec i s = act (fun P d => d.issueWhen P c insn (r d) (b P)) s) (hr : r s.dev = true) : Completes i s (b s.part (s.issued c)) := by
  rw [Completes, hi, act, issueWhen_of s c _ _ _ h hr]

/-- A device instruction comes to its unit's part, Z and PC (04 R111, R112). -/
theorem devInsn_completes {f : Part → Dev → Bool × Dev} {z : Bool} {t : Dev} (hi : exec i s = act (fun P d => d.devInsn P c (f P)) s)
    (hf : f s.part (s.issued c) = (z, t)) : Completes i s (t.updCtx c fun y => { y with z := z, pc := y.pc + 4 }) := by
  have hb := issue_completes h (b := fun P d => (f P d).2.devDone c (f P d).1) hi
  rw [hf] at hb
  exact hb

/-- A supervisor instruction of an S context comes to its body (04 R114). -/
theorem supInsn_completes {insn : Word} {f : Part → Dev → Dev} (hi : exec i s = act (fun P d => d.supInsn P c true insn (f P)) s)
    (hp : (s.dev.ctx[c]).priv = true) : Completes i s (f s.part (s.issued c)) := by
  rw [Completes, hi, act, supInsn_of s c _ _ h hp]

end Body

/-- What a context is after the issue of its own instruction, where its urgency and its times do not matter. -/
theorem issued_self (s : State) (c : CtxId) : (s.issued c).ctx[c] =
    { s.dev.ctx[c] with
      lastIssue := s.dev.cycle, issuableSince := s.dev.cycle, urgent := (s.dev.ctx[c]).urgent - 1, firstDue := false, fetched := false } := by
  rw [issued_ctx, upd_get_self]

/-- Tracing of a context is the same after an issue. -/
theorem issued_traced (s : State) (c k : CtxId) : (s.issued c).traced k = s.dev.traced k := by
  simp [Dev.traced, Dev.trcCtl, Dev.reg]

/-! ### One context changed -/

/-- A step changes one context, leaves memory, and where it is quiet changes nothing else. -/
structure ActsOn (quiet : Prop) (d t : Dev) (c : CtxId) (f : Ctx → Ctx) : Prop where
  ctx : t.ctx = upd d.ctx c f
  mem : t.mem = d.mem
  regs : t.regs = d.regs
  frame : quiet → t = { d with ctx := t.ctx }

namespace ActsOn

variable {quiet : Prop} {P : Part} {d t : Dev} {c : CtxId} {f g : Ctx → Ctx}

/-- A change of the context. -/
theorem of_updCtx : ActsOn quiet d (d.updCtx c f) c f := ⟨rfl, rfl, rfl, fun _ => rfl⟩

/-- Two changes of the context are one. -/
theorem trans {u : Dev} (h : ActsOn quiet d t c f) (h' : ActsOn quiet t u c g) : ActsOn quiet d u c fun x => g (f x) where
  ctx := by rw [h'.ctx, h.ctx, upd_upd]
  mem := h'.mem.trans h.mem
  regs := h'.regs.trans h.regs
  frame hq := (h'.frame hq).trans (by rw [h.frame hq])

/-- A packet of the context, which is quiet where the context is not traced (14 R349). -/
theorem then_trace (h : ActsOn quiet d t c f) {typ : Nat} {w2 w3 : Word} (hq : quiet → d.traced c = false) : ActsOn quiet d (t.trace P c typ w2 w3) c f where
  ctx := by simp [h.ctx]
  mem := by simp [h.mem]
  regs := by simp [h.regs]
  frame hqu := by
    have ht : t.traced c = false := by
      rw [Dev.traced, Dev.trcCtl, Dev.reg, Dev.reg, Dev.reg, h.regs]
      exact hq hqu
    have he : t.trace P c typ w2 w3 = t := if_neg (by rw [ht]; decide)
    rw [he]
    exact h.frame hqu

/-- A change of run state: quiet where the context is not traced and does not wake a gated sequencer (14 R322, R349). -/
theorem of_setRun (hq : quiet → d.traced c = false ∧ ((f d.ctx[c]).awake = false ∨ d.pwr.gated[sequencerOf c] = false)) :
    ActsOn quiet d (d.setRun P c f) c f where
  ctx := setRun_ctx P d c f
  mem := by simp
  regs := by simp
  frame hqu := by
    obtain ⟨htr, haw⟩ := hq hqu
    have hng (b : Bool) : ¬ (false && b) = true := by rw [Bool.false_and]; decide
    have hself : (d.updCtx c f).ctx[c] = f d.ctx[c] := by rw [(updCtx_fields d c f).1, upd_get_self]
    have hgo : (if (f d.ctx[c]).awake && !(d.ctx[c]).awake then (d.updCtx c f).ungate P (sequencerOf c) else d.updCtx c f) = d.updCtx c f := by
      split
      next hw =>
        have hg : d.pwr.gated[sequencerOf c] = false := haw.resolve_left fun hn => by
          rw [hn] at hw
          exact hng _ hw
        exact if_neg (show ¬ d.pwr.gated[sequencerOf c] = true by rw [hg]; decide)
      next => rfl
    have htr' (w2 w3 : Word) : (d.updCtx c f).trace P c 3 w2 w3 = d.updCtx c f := if_neg (by
      rw [show (d.updCtx c f).traced c = d.traced c from rfl, htr]
      decide)
    unfold Dev.setRun
    dsimp only
    rw [hself, hgo, htr', ite_self]
    rfl

end ActsOn

/-- A change of the issuing context alone, as the statements say it. -/
theorem acts_completes {i : Instr} {s : State} {c : CtxId} {t : Dev} {quiet : Prop} {f g : Ctx → Ctx} (hc : Completes i s t)
    (ht : ActsOn quiet (s.issued c) t c f) (hfg : f ((s.issued c).ctx[c]) = g ((s.issued c).ctx[c])) :
    ∃ t, Completes i s t ∧ t.ctx = upd (s.issued c).ctx c g ∧ (quiet → t = { s.issued c with ctx := t.ctx } ∧ sameBytes s.dev t) := by
  refine ⟨t, hc, ht.ctx.trans (upd_congr _ _ _ _ hfg), fun hq => ⟨ht.frame hq, fun a => ?_⟩⟩
  rw [Dev.byte, ht.mem]
  exact issued_sameBytes s c a

/-- A body that changes the issuing context alone, as the statements say it. -/
theorem updCtx_completes {i : Instr} {s : State} {c : CtxId} {f g : Ctx → Ctx} (hc : Completes i s ((s.issued c).updCtx c f))
    (hfg : f ((s.issued c).ctx[c]) = g ((s.issued c).ctx[c])) : Completes i s ((s.issued c).updCtx c g) := by
  rw [← updCtx_congr _ _ _ _ hfg]
  exact hc

/-! ### Branches and jumps -/

/-- A taken jump, with its packet (14 R349). -/
theorem acts_jump (P : Part) (d : Dev) (c : CtxId) (target : Word) : ActsOn (d.traced c = false) d (d.jump P c target) c fun x => { x with pc := target } :=
  have h0 : ActsOn (d.traced c = false) d d c id := ⟨(upd_self _ _ _ rfl).symm, rfl, rfl, fun _ => rfl⟩
  (h0.then_trace fun h => h).trans .of_updCtx

/-- A branch goes to its target when its condition holds and to the next instruction when it does not (04 R102). -/
theorem branch_completes {i : Instr} {s : State} {c : CtxId} {imm : Imm14} {cond : Ctx → Bool} {taken : Bool} (h : s.issues c)
    (hi : exec i s = act (fun P d => d.branch P c imm cond) s) (hc : cond ((s.issued c).ctx[c]) = taken) :
    ∃ t, Completes i s t ∧
      t.ctx = upd (s.issued c).ctx c (fun y => { y with pc := if taken then (s.dev.ctx[c]).pc + (imm.signExtend 32 <<< 2) else (s.dev.ctx[c]).pc + 4 }) ∧
      (taken = false ∨ s.dev.traced c = false → t = { s.issued c with ctx := t.ctx } ∧ sameBytes s.dev t) := by
  have hb := issue_completes h (b := fun P d => if cond d.ctx[c] then d.jump P c (branchTarget (d.ctx[c]).pc imm) else d.advance c) hi
  have hpc : ((s.issued c).ctx[c]).pc = (s.dev.ctx[c]).pc := by rw [issued_self]
  simp only [hc] at hb
  cases taken with
  | true =>
    rw [if_pos rfl] at hb
    obtain ⟨t, ht, hctx, hf⟩ := acts_completes hb (acts_jump _ _ _ _) (g := fun y => { y with pc := (s.dev.ctx[c]).pc + (imm.signExtend 32 <<< 2) })
      (by rw [hpc, branchTarget, sext])
    exact ⟨t, ht, hctx, fun hq => hf (by rw [issued_traced]; exact hq.resolve_left (by decide))⟩
  | false =>
    rw [if_neg (by decide)] at hb
    obtain ⟨t, ht, hctx, hf⟩ := acts_completes (quiet := True) hb ActsOn.of_updCtx (g := fun y => { y with pc := (s.dev.ctx[c]).pc + 4 }) (by rw [hpc])
    exact ⟨t, ht, hctx, fun _ => hf trivial⟩

/-- A register and PC written in either order (04 R103). -/
theorem wr_withPc (x : Ctx) (r : Reg) (v p : Word) : ({ x with pc := p } : Ctx).wr r v = { x.wr r v with pc := p } := by
  unfold Ctx.wr
  split <;> rfl

/-- Settles O11: branches by their condition, jumps by their link and their packet, a misaligned JR by its freeze. -/
theorem branchesAndJumps : Obligations.BranchesAndJumps := by
  refine ⟨fun s c ga gb imm h => ?_, fun s c gd ga imm imm26 h => ?_⟩
  · refine ⟨branch_completes h rfl ?_, branch_completes h rfl ?_, branch_completes h rfl ?_, branch_completes h rfl ?_, branch_completes h rfl ?_,
      branch_completes h rfl ?_, branch_completes h rfl ?_, branch_completes h rfl ?_, branch_completes h rfl ?_, branch_completes h rfl ?_,
      branch_completes h rfl ?_, branch_completes h rfl ?_⟩
    · rw [issued_rd, issued_rd]
    · rw [issued_rd, issued_rd]
    · rw [issued_rd, issued_rd, BitVec.slt_eq_decide]
    · rw [issued_rd, issued_rd, BitVec.sle_eq_decide]
    · rw [issued_rd, issued_rd]
      rfl
    all_goals rw [issued_self]
  · have hpc : ((s.issued c).ctx[c]).pc = (s.dev.ctx[c]).pc := by rw [issued_self]
    have hto (target : Word) (r : Reg) : ActsOn (s.dev.traced c = false) (s.issued c)
        (((s.issued c).jump s.part c target).updCtx c fun x => x.wr r (((s.issued c).ctx[c]).pc + 4)) c
        fun x => { x.wr r ((s.dev.ctx[c]).pc + 4) with pc := target } := by
      have ht := (acts_jump s.part (s.issued c) c target).trans (.of_updCtx (f := fun x => x.wr r (((s.issued c).ctx[c]).pc + 4)))
      rw [issued_traced] at ht
      simpa only [wr_withPc, hpc] using ht
    refine ⟨?_, fun ha => ?_, fun ha => ?_⟩
    · exact acts_completes (issue_completes h (b := fun P => Dev.jalBody P c imm26) rfl) (hto _ _) (by rw [hpc, jumpTarget, sext])
    · have hb := issue_completes h (i := .jr c gd ga imm) (b := fun P => Dev.jrBody P c gd ga imm (fmtA 0x26 gd ga 0 imm)) rfl
      rw [Dev.jrBody, Ctx.addr14, issued_rd, sext, if_neg (not_not.mpr ha)] at hb
      exact acts_completes hb (hto _ _) rfl
    · have hb := issue_completes h (i := .jr c gd ga imm) (b := fun P => Dev.jrBody P c gd ga imm (fmtA 0x26 gd ga 0 imm)) rfl
      rw [Dev.jrBody, Ctx.addr14, issued_rd, sext, if_pos ha] at hb
      exact hb

/-! ### Plain and waiting instructions -/

/-- The oldest record of a selected source leaves the queue (04 R105). -/
theorem takeQueued_some {m : BitVec 64} {r : EvRec} (after : List EvRec) (hr : m.getLsbD r.src.val = true) :
    ∀ before : List EvRec, (∀ q ∈ before, m.getLsbD q.src.val = false) → takeQueued m (before ++ r :: after) = some (r, before ++ after) := by
  intro before
  induction before with
  | nil => exact fun _ => if_pos hr
  | cons q before ih =>
    intro hb
    rw [List.cons_append, takeQueued, if_neg (by rw [hb q List.mem_cons_self]; decide), ih fun q hq => hb q (.tail _ hq)]
    rfl

/-- A queue without a record of a selected source gives none (04 R105). -/
theorem takeQueued_none {m : BitVec 64} : ∀ q : List EvRec, (∀ r ∈ q, m.getLsbD r.src.val = false) → takeQueued m q = none := by
  intro q
  induction q with
  | nil => exact fun _ => rfl
  | cons r q ih =>
    intro hq
    rw [takeQueued, if_neg (by rw [hq r List.mem_cons_self]; decide), ih fun r hr => hq r (.tail _ hr)]
    rfl

/-- Settles O12: each instruction by its body, WAIT by what the queue holds of the sources it selects. -/
theorem plainAndWaitingInstructions : Obligations.PlainAndWaitingInstructions := by
  refine ⟨fun s c gd ga n h => ?_, fun s c ga gb h => ?_⟩
  · refine ⟨issue_completes h (b := fun _ => Dev.yieldBody c) rfl, fun hne => ?_, issue_completes h (b := fun P d => d.updCtx c fun x => { x.wr gd P.caps with abs := false, pc := x.pc + 4 }) rfl,
      fun hs => ?_, fun hs => ?_, fun hs => ?_⟩
    · have hb := issue_completes h (i := .ts c gd ga) (b := fun P d => if gd = ga ∧ gd ≠ 0 then d.violate P c 1 (fmtA 0x2C gd ga 0 0) else Dev.tsBody c gd ga d) rfl
      rw [if_neg (by tauto)] at hb
      exact updCtx_completes hb (by rw [(issued_fields' s c).2.1])
    all_goals have he : (s.dev.ctx[c]).sbuf.isEmpty = true := by rw [hs]; rfl
    · have hb := issueWhen_completes h (i := .emit c n ga) (r := fun d => (d.ctx[c]).sbuf.isEmpty)
        (b := fun _ d => (d.swRaise n ((d.ctx[c]).rd ga) c.val).advance c) rfl he
      rw [issued_rd] at hb
      exact hb
    · exact issueWhen_completes h (r := fun d => (d.ctx[c]).sbuf.isEmpty) (b := fun _ d => d.advance c) rfl he
    · exact issueWhen_completes h (r := fun d => (d.ctx[c]).sbuf.isEmpty) (b := fun _ d => d.advance c) rfl he
  · have hpc : ((s.issued c).ctx[c]).pc = (s.dev.ctx[c]).pc := by rw [issued_self]
    have hq : ((s.issued c).ctx[c]).queue = (s.dev.ctx[c]).queue := by rw [issued_self]
    have hb := issue_completes h (i := .wait c ga gb) (b := fun P => Dev.waitBody P c ga gb) rfl
    unfold Dev.waitBody at hb
    simp only [issued_rd, hq] at hb
    refine ⟨fun hm => ?_, fun hm before after r hqueue hbefore hr => ?_, fun hm hnone => ?_, ?_⟩
    · rw [if_pos hm, hm, Dev.yieldBody, updCtx_updCtx] at hb
      exact updCtx_completes hb (by rw [hpc])
    · rw [if_neg hm, hqueue, takeQueued_some after hr before hbefore] at hb
      refine acts_completes hb (ActsOn.of_updCtx.then_trace fun hq => (issued_traced s c c).trans hq) ?_
      rw [Ctx.takeRec, issued_self]
    · rw [if_neg hm, takeQueued_none _ hnone] at hb
      exact acts_completes hb (ActsOn.of_setRun fun hq => ⟨(issued_traced s c c).trans hq, .inl rfl⟩) rfl
    · have hh := issue_completes h (i := .halt c) (b := fun P d => (d.advance c).ctxHalt P c) rfl
      exact acts_completes hh (ActsOn.trans .of_updCtx (.of_setRun fun hq => ⟨(issued_traced s c c).trans hq, .inl rfl⟩)) (by rw [hpc])

/-! ### Violations by the word itself -/

section Violation

variable {i : Instr} {s : State} {c : CtxId} {k : Nat} {insn : Word}

/-- A violation that names no address: what the record layout leaves open is a free value (03 R77, R81). -/
theorem violate_completes (hc : Completes i s ((s.issued c).violate s.part c k insn)) : ∃ (a : Word) (n : Nat), (k = 1 → a = 0) ∧
    Completes i s ({ s.issued c with free := s.dev.free + 1 }.freezeCtx s.part c k { addr := a, size := n } insn) := by
  refine ⟨if k = 1 then 0 else Config.noAccessAddr (s.issued c).free, Config.noAccessSize (s.issued c).free, fun h => if_pos h, ?_⟩
  have hfree : (s.issued c).free = s.dev.free := by simp
  rw [← hfree]
  exact hc

variable (h : s.issues c)

include h

/-- A supervisor instruction in U privilege violates, and waits for nothing (04 R114). -/
theorem supInsn_violates {r : Dev → Bool} {f : Part → Dev → Dev} (hp : (s.dev.ctx[c]).priv = false)
    (hi : exec i s = act (fun P d => d.supInsn P c (r d) insn (f P)) s) : Completes i s ((s.issued c).violate s.part c 5 insn) := by
  have hready : (r s.dev || !(s.dev.ctx[c]).priv) = true := by rw [hp, Bool.not_false, Bool.or_true]
  have hb := issueWhen_completes h (r := fun d => r d || !(d.ctx[c]).priv) (b := fun P d => if (d.ctx[c]).priv then f P d else d.violate P c 5 insn) hi hready
  rw [issued_self, if_neg (by rw [hp]; decide)] at hb
  exact hb

/-- So does a CTX operation (04 R114). -/
theorem ctxInsn_violates {ga : Reg} {op : Nat} (hp : (s.dev.ctx[c]).priv = false)
    (hi : exec i s = act (fun P d => d.ctxInsn P c ga op insn) s) : Completes i s ((s.issued c).violate s.part c 5 insn) := by
  unfold Dev.ctxInsn at hi
  exact supInsn_violates h (r := fun _ => true) hp hi

/-- A CRED instruction on a stream comes to the check of its owner (02 R44). -/
theorem credInsn_completes {ga : Reg} {f : Fin 64 → Dev → Dev} (hi : exec i s = act (fun P d => d.credInsn P c ga insn f) s) :
    Completes i s (if !(s.dev.ctx[c]).priv && (s.dev.hng.streams[(s.dev.ctx[c]).stream ga]).owner.toNat != c.val
      then (s.issued c).violate s.part c 5 insn else f ((s.dev.ctx[c]).stream ga) (s.issued c)) := by
  have hb := issue_completes h (b := fun P d => if !(d.ctx[c]).priv && (d.hng.streams[(d.ctx[c]).stream ga]).owner.toNat != c.val
    then d.violate P c 5 insn else f ((d.ctx[c]).stream ga) d) hi
  have hs : ((s.issued c).ctx[c]).stream ga = (s.dev.ctx[c]).stream ga := by rw [Ctx.stream, issued_rd, Ctx.stream]
  have hp : ((s.issued c).ctx[c]).priv = (s.dev.ctx[c]).priv := by rw [issued_self]
  have hh : (s.issued c).hng = s.dev.hng := by simp
  simp only [hs, hp, hh] at hb
  exact hb

/-- A CRED instruction in U privilege on a stream of another owner violates (02 R44). -/
theorem credInsn_violates {ga : Reg} {f : Fin 64 → Dev → Dev} (hp : (s.dev.ctx[c]).priv = false)
    (ho : (s.dev.hng.streams[(s.dev.ctx[c]).stream ga]).owner.toNat ≠ c.val) (hi : exec i s = act (fun P d => d.credInsn P c ga insn f) s) :
    Completes i s ((s.issued c).violate s.part c 5 insn) := by
  have hb := credInsn_completes h hi
  rw [if_pos (by rw [hp, Bool.not_false, Bool.true_and, bne_iff_ne]; exact ho)] at hb
  exact hb

end Violation

/-- An illegal word violates at its issue (04 R93). -/
theorem exec_illegalOp (s : State) (c : CtxId) {w : Word} (hw : legalWord w = false) :
    exec (.illegalOp c w) s = act (fun P d => d.issue P c fun d => d.violate P c 1 w) s := by
  show execIllegalOp c w s = _
  unfold execIllegalOp act Dev.when
  simp only [hw, Bool.not_false, if_true]

/-- A MOVE in mode 2 with a register in its unused field violates at its issue (04 R93; log 61). -/
theorem exec_moveRun_unused (s : State) (c : CtxId) (m : AxisId) {gd : Reg} (ga : Reg) (hd : gd ≠ 0) : exec (.moveRun c m gd ga) s =
    act (fun P d => d.issue P c fun d => d.violate P c 1 (fmtA 0x32 gd ga 0 (BitVec.ofNat 14 (4 + m.val)))) s := by
  show execMoveRun c m gd ga s = _
  unfold execMoveRun
  simp only [if_neg hd]

/-- Settles O13: each instruction by the check that stands in front of its effect. -/
theorem illegalAndPrivileged : Obligations.IllegalAndPrivileged := by
  refine fun s c gd ga gb k w h => ⟨fun hw => violate_completes ?_, fun hd => ⟨violate_completes ?_, fun m => violate_completes ?_⟩, fun hp => ?_, fun hp ho => ?_⟩
  · exact issue_completes h (b := fun P d => d.violate P c 1 w) (exec_illegalOp s c hw)
  · have hb := issue_completes h (i := .ts c gd gd) (b := fun P d => if gd = gd ∧ gd ≠ 0 then d.violate P c 1 (fmtA 0x2C gd gd 0 0) else Dev.tsBody c gd gd d) rfl
    rw [if_pos ⟨rfl, hd⟩] at hb
    exact hb
  · exact issue_completes h (b := fun P d => d.violate P c 1 _) (exec_moveRun_unused s c m ga hd)
  · have hsup {i : Instr} {insn : Word} (f : Part → Dev → Dev) (hi : exec i s = act (fun P d => d.supInsn P c true insn (f P)) s) :=
      violate_completes (supInsn_violates h (r := fun _ => true) hp hi)
    have hctx {i : Instr} {op : Nat} {insn : Word} (hi : exec i s = act (fun P d => d.ctxInsn P c ga op insn) s) :=
      violate_completes (ctxInsn_violates h hp hi)
    exact ⟨hctx rfl, hctx rfl, hctx rfl, hctx rfl, hctx rfl, hsup (fun P => Dev.winBody P c k gd ga gb) rfl, hsup (fun P => Dev.thawBody P c ga) rfl,
      violate_completes (supInsn_violates h (r := fun d => (d.ctx[c]).sbuf.isEmpty) (f := fun P d => d.resetDev P 6) hp rfl),
      hsup (fun P d => (d.standbyReq P).2.devDone c (d.standbyReq P).1) rfl,
      hsup (fun P d => (d.updCtx c fun x => x.wr gd (P.fuse (fld (x.rd ga) 0 6))).advance c) rfl⟩
  · exact ⟨violate_completes (credInsn_violates h hp ho rfl), violate_completes (credInsn_violates h hp ho rfl),
      violate_completes (credInsn_violates h hp ho rfl), violate_completes (credInsn_violates h hp ho rfl)⟩

end Sys2Proof.Proofs.Control
end

section
/-!
Supervisor instructions: CTX operations at an instruction boundary, WIN, THAW and fuses, and instructions on what the variant lacks (00 R5, 03 R65, R71, R74, R82 to R84, 04 R110, R114, R115, 09 R217, 16 R366).
-/
namespace Sys2Proof.Proofs.Supervisor

open Sys2Proof.Machine Sys2Proof.Laws Sys2Proof.Proofs.Interconnect Sys2Proof.Proofs.Reads Sys2Proof.Proofs.LinkFrame Sys2Proof.Proofs.Alu Sys2Proof.Proofs.Control

/-! ### Operations at an instruction boundary -/

section Boundary

variable (P : Part) {d : Dev} {c : CtxId}

/-- What waits for the boundary of a context that stands at one waits for nothing. -/
theorem atNextBoundary_now (hl : (d.ctx[c]).load = none) (hh : (d.ctx[c]).held = none) (f : Machine.Boundary → Machine.Boundary) :
    d.atNextBoundary P c f = (d.updCtx c fun x => { x with due := f x.due }).boundary P c := by
  have hb : ((d.updCtx c fun x => { x with due := f x.due }).ctx[c]).atBoundary = true := by
    rw [(updCtx_fields d c _).1, upd_get_self, Ctx.atBoundary, hl, hh]
    rfl
  exact if_pos hb

/-- A boundary taken and left again. -/
theorem due_cleared (hd : (d.ctx[c]).due = {}) (f : Machine.Boundary → Machine.Boundary) :
    ((d.updCtx c fun x => { x with due := f x.due }).updCtx c fun x => { x with due := {} }) = d := by
  rw [updCtx_updCtx]
  refine updCtx_self d c _ ?_
  generalize d.ctx[c] = x at hd
  cases x
  cases hd
  rfl

/-- A STOP taken at a boundary. -/
theorem boundary_stop (h : (d.ctx[c]).due = { stop := true }) : d.boundary P c = (d.updCtx c fun x => { x with due := {} }).ctxHalt P c := by
  unfold Dev.boundary
  rw [h]
  rfl

/-- A RESET taken at a boundary. -/
theorem boundary_reset (h : (d.ctx[c]).due = { reset := true }) : d.boundary P c = (d.updCtx c fun x => { x with due := {} }).resetNow P c := by
  unfold Dev.boundary
  rw [h]
  rfl

/-- A privilege taken at a boundary. -/
theorem boundary_priv (s : Bool) (h : (d.ctx[c]).due = { priv := some s }) :
    d.boundary P c = (d.updCtx c fun x => { x with due := {} }).updCtx c fun x => { x with priv := s } := by
  unfold Dev.boundary
  rw [h]
  rfl

/-- What is put off to the boundary of a context for which nothing waits. -/
theorem due_set (hd : (d.ctx[c]).due = {}) (f : Machine.Boundary → Machine.Boundary) (b : Machine.Boundary) (hf : f {} = b) :
    ((d.updCtx c fun x => { x with due := f x.due }).ctx[c]).due = b := by
  rw [(updCtx_fields d c _).1, upd_get_self, hd, hf]

variable (hl : (d.ctx[c]).load = none) (hh : (d.ctx[c]).held = none) (hd : (d.ctx[c]).due = {})

include hl hh hd

/-- CTX STOP at a boundary (03 R84). -/
theorem ctxStop_now (hr : (d.ctx[c]).run ≠ .stopped) (hz : (d.ctx[c]).resetting = false) : d.ctxStop P c = d.ctxHalt P c := by
  rw [Dev.ctxStop, if_neg (by rw [hz]; tauto), atNextBoundary_now P hl hh, boundary_stop P (due_set hd (fun b => { b with stop := true }) _ rfl),
    due_cleared hd fun b => { b with stop := true }]

/-- CTX RESET at a boundary (03 R83). -/
theorem ctxReset_now : d.ctxReset P c = d.resetNow P c := by
  rw [Dev.ctxReset, atNextBoundary_now P hl hh, boundary_reset P (due_set hd (fun b => { b with reset := true }) _ rfl),
    due_cleared hd fun b => { b with reset := true }]

/-- CTX set U and set S at a boundary (03 R71). -/
theorem ctxPriv_now (s : Bool) : d.ctxPriv P c s = d.updCtx c fun x => { x with priv := s } := by
  rw [Dev.ctxPriv, atNextBoundary_now P hl hh, boundary_priv P s (due_set hd (fun b => { b with priv := some s }) _ rfl),
    due_cleared hd fun b => { b with priv := some s }]

end Boundary

/-- A context stopped and marked for its reset (03 R83). -/
def resetting (x : Ctx) : Ctx := { x with run := .stopped, urgent := 0, resetting := true }

/-- A context whose state a CTX RESET has cleared (03 R83). -/
def cleared (cycle : Nat) (x : Ctx) : Ctx := { x with
  g := Vector.replicate 16 0, z := false, n := false, c := false, v := false, abs := false, pc := x.entry
  emask := 0, queue := [], wrec := Vector.replicate 4 0, wake := none, cold := false, firstDue := false, fetched := false, resetting := false
  issuableSince := cycle }

/-- A CTX RESET with an empty store buffer clears its context at once (03 R83). -/
theorem resetNow_empty (P : Part) {d : Dev} {c : CtxId} (hs : (d.ctx[c]).sbuf = []) :
    d.resetNow P c = (d.setRun P c resetting).updCtx c (cleared d.cycle) := by
  have hx : (d.setRun P c resetting).ctx[c] = resetting d.ctx[c] := by rw [setRun_ctx, upd_get_self]
  have hc : (d.setRun P c resetting).cycle = d.cycle := by simp
  have hw : ¬ (((d.setRun P c resetting).updCtx c (cleared d.cycle)).ctx[c]).awake = true := by
    rw [(updCtx_fields _ c _).1, upd_get_self, hx]
    exact Bool.false_ne_true
  show (d.setRun P c resetting).finishReset P c = _
  rw [Dev.finishReset, if_pos (by rw [hx]; exact ⟨rfl, hs⟩), hc, Dev.nowIssuable]
  exact if_neg hw

/-! ### CTX operations -/

/-- The device as a CTX operation or WIN finds it: PC of the caller is on the next instruction (04 R115). -/
def advanced (s : State) (c : CtxId) : Dev := (s.issued c).advance c

theorem advanced_ctx (s : State) (c : CtxId) : (advanced s c).ctx = upd (s.issued c).ctx c fun x => { x with pc := x.pc + 4 } := rfl

/-- What an issue and the step of PC leave of any context, its caller's included. -/
theorem advanced_get (s : State) (c n : CtxId) : ((advanced s c).ctx[n]).run = (s.dev.ctx[n]).run ∧
    ((advanced s c).ctx[n]).resetting = (s.dev.ctx[n]).resetting ∧ ((advanced s c).ctx[n]).held = (s.dev.ctx[n]).held ∧
    ((advanced s c).ctx[n]).load = (s.dev.ctx[n]).load ∧ ((advanced s c).ctx[n]).due = (s.dev.ctx[n]).due ∧
    ((advanced s c).ctx[n]).sbuf = (s.dev.ctx[n]).sbuf := by
  rw [advanced_ctx, issued_ctx, upd_upd, upd_get]
  split
  next h =>
    subst h
    exact ⟨rfl, rfl, rfl, rfl, rfl, rfl⟩
  next => exact ⟨rfl, rfl, rfl, rfl, rfl, rfl⟩

/-- A step of a supervisor instruction that changes its target alone, the caller's PC apart: nothing else changes where the target is not traced and its sequencer's clock runs. -/
def quietAt (s : State) (n : CtxId) : Prop := s.dev.traced n = false ∧ s.dev.pwr.gated[sequencerOf n] = false

/-- The low bits of a word as a number. -/
theorem fld_low (w : Word) (n : Nat) : fld w 0 n = w.toNat % 2 ^ n := by
  rw [fld, BitVec.extractLsb'_toNat, Nat.shiftRight_zero]

section Target

variable {i : Instr} {s : State} {c : CtxId} {ga : Reg} (h : s.issues c) (hp : (s.dev.ctx[c]).priv = true)

/-- The target is the same after the issue. -/
theorem issued_target (s : State) (c : CtxId) (ga : Reg) : ((s.issued c).ctx[c]).target ga = (s.dev.ctx[c]).target ga := by
  rw [Ctx.target, issued_rd, Ctx.target]

/-- A change of the target, as the statements say it. -/
theorem target_completes {t : Dev} {n : CtxId} {f g : Ctx → Ctx} (hc : Completes i s t) (ht : ActsOn (quietAt s n) (advanced s c) t n f)
    (hfg : f ((advanced s c).ctx[n]) = g ((advanced s c).ctx[n])) : ∃ t, Completes i s t ∧
    t.ctx = upd (upd (s.issued c).ctx c fun x => { x with pc := x.pc + 4 }) n g ∧
    (s.dev.traced n = false → s.dev.pwr.gated[sequencerOf n] = false → t = { s.issued c with ctx := t.ctx } ∧ sameBytes s.dev t) := by
  refine ⟨t, hc, ht.ctx.trans (upd_congr _ _ _ _ hfg), fun h1 h2 => ⟨ht.frame ⟨h1, h2⟩, fun a => ?_⟩⟩
  rw [Dev.byte, ht.mem]
  exact issued_sameBytes s c a

/-- A change of a context's run state is quiet where the context is. -/
theorem acts_setRun (P : Part) (s : State) (c n : CtxId) (f : Ctx → Ctx) :
    ActsOn (quietAt s n) (advanced s c) ((advanced s c).setRun P n f) n f :=
  .of_setRun fun hq => ⟨(issued_traced s c n).trans hq.1, .inr (by
    show (s.issued c).pwr.gated[sequencerOf n] = false
    rw [show (s.issued c).pwr = s.dev.pwr by simp]
    exact hq.2)⟩

include h hp

/-- A CTX operation on a context that the variant has acts on it (04 R114). -/
theorem ctxInsn_completes {op : Nat} {insn : Word} (hi : exec i s = act (fun P d => d.ctxInsn P c ga op insn) s)
    (hc : ctxPresent s.part ((s.dev.ctx[c]).target ga) = true) :
    Completes i s ((advanced s c).ctxOp s.part op ((s.dev.ctx[c]).target ga)) := by
  unfold Dev.ctxInsn at hi
  have hb := supInsn_completes h (f := fun P d =>
    if ctxPresent P ((d.ctx[c]).target ga) then (d.advance c).ctxOp P op ((d.ctx[c]).target ga) else Dev.absentCtx c d) hi hp
  rw [issued_target, if_pos hc] at hb
  exact hb

/-- A CTX operation on a context that the variant lacks tells it in ST.ABS (00 R5). -/
theorem ctxInsn_absent {op : Nat} {insn : Word} (hi : exec i s = act (fun P d => d.ctxInsn P c ga op insn) s)
    (hc : ctxPresent s.part ((s.dev.ctx[c]).target ga) = false) :
    Completes i s ((s.issued c).updCtx c fun x => { x with abs := true, pc := x.pc + 4 }) := by
  unfold Dev.ctxInsn at hi
  have hb := supInsn_completes h (f := fun P d =>
    if ctxPresent P ((d.ctx[c]).target ga) then (d.advance c).ctxOp P op ((d.ctx[c]).target ga) else Dev.absentCtx c d) hi hp
  rw [issued_target, if_neg (by rw [hc]; decide)] at hb
  exact hb

/-- THAW of a master that the part has (03 R82). -/
theorem thaw_completes {z : Bool} {t : Dev} (ha : masterAbsent s.part (((s.dev.ctx[c]).rd ga).toNat % 256) = false)
    (ht : (s.issued c).thawNum s.part (((s.dev.ctx[c]).rd ga).toNat % 256) = (z, t)) :
    Completes (.thaw c ga) s (t.updCtx c fun x => { x with z := z, pc := x.pc + 4 }) := by
  have hb := supInsn_completes h (i := .thaw c ga) (f := fun P => Dev.thawBody P c ga) rfl hp
  have hn : fld ((s.dev.ctx[c]).rd ga) 0 8 = ((s.dev.ctx[c]).rd ga).toNat % 256 := fld_low _ 8
  rw [Dev.thawBody, issued_rd, hn, if_neg (by rw [ha]; decide), ht] at hb
  exact hb

end Target

/-! ### Masters thawed -/

/-- A master that the part has is thawed by its number (03 R82). -/
theorem thawNum_of {P : Part} {d : Dev} {m : Master} (ha : masterAbsent P (mnum m) = false) : d.thawNum P (mnum m) = d.thawMaster P m := by
  rw [Dev.thawNum, if_neg (by rw [ha]; decide), masterOf_mnum]

/-- A number above those of contexts and channels names no absent master (03 R82). -/
theorem masterAbsent_high (P : Part) {n : Nat} (h : 80 ≤ n) : masterAbsent P n = false := by
  rw [masterAbsent, show decide (n < 64) = false from decide_eq_false (by omega), show decide (64 ≤ n ∧ n < 80) = false from decide_eq_false (by omega)]
  rfl

/-- THAW of a fixed master that may freeze acts on its bit alone (03 R78, R82). -/
theorem thawNum_fixed (P : Part) (d : Dev) (q : Fin 5) : d.thawNum P (80 + q.val) =
    if d.mfrozen.getLsbD (16 + q.val) then (true, { d with mfrozen := d.mfrozen &&& ~~~(1#21 <<< (16 + q.val)) }) else (false, d) := by
  rw [Dev.thawNum, if_neg (by rw [masterAbsent_high P (by omega)]; decide)]
  fin_cases q <;> rfl

/-- A number of a master that never freezes, or of none, thaws nothing (03 R78, R82). -/
theorem thawNum_never (P : Part) (d : Dev) {n : Nat} (h : 84 < n) : d.thawNum P n = (false, d) := by
  have hbit (k : Nat) (hk : 21 ≤ k) : ¬ d.mfrozen.getLsbD k = true := by
    rw [BitVec.getLsbD_of_ge _ _ hk]
    decide
  have ha := masterAbsent_high P (n := n) (by omega)
  rcases show n = 85 ∨ n = 86 ∨ 86 < n by omega with rfl | rfl | hn
  · exact (thawNum_of (m := .writer) ha).trans (if_neg (hbit 21 (by decide)))
  · exact (thawNum_of (m := .mgmt) ha).trans (if_neg (hbit 22 (by decide)))
  · have hm : masterOf n = none := by
      have hne (k : Nat) (hk : k ≤ 86) : (n == k) = false := beq_false_of_ne (by omega)
      rw [masterOf, dif_neg (by omega), dif_neg (by omega)]
      simp [List.lookup, hne]
    rw [Dev.thawNum, if_neg (by rw [ha]; decide), hm]

/-! ### A line abandoned -/

/-- What the end of a line changes: the links, the streams, the slots and the fabric. -/
def LineEnded (d t : Dev) : Prop := t = { d with kl := t.kl, out := t.out, hng := t.hng, ls := t.ls, ev := t.ev }

namespace LineEnded

theorem refl (d : Dev) : LineEnded d d := rfl

theorem trans {d e t : Dev} (h : LineEnded d e) (h' : LineEnded e t) : LineEnded d t := by
  unfold LineEnded at *
  exact h'.trans (by rw [h])

theorem foldl {α : Type} {f : Dev → α → Dev} (h : ∀ d x, LineEnded d (f d x)) (l : List α) : ∀ d : Dev, LineEnded d (l.foldl f d) := by
  induction l with
  | nil => exact refl
  | cons x l ih => exact fun d => (h d x).trans (ih _)

theorem raise (d : Dev) (n : Fin 64) (w : Word) : LineEnded d (d.raise n w) := by
  unfold LineEnded
  rw [Raise.raise_eq]

theorem moveSlot (d : Dev) (n : Fin 256) (f : Slot → Slot) : LineEnded d (d.moveSlot n f) := by
  unfold Dev.moveSlot Dev.lowCheck
  dsimp only
  split
  · exact trans (e := { d.updSlot n f with ls := { (d.updSlot n f).ls with lowArmed := false } }) rfl (raise _ _ _)
  · split <;> rfl

theorem stage (d : Dev) (f : Staged) : LineEnded d (d.stage f) := by
  have hw (e : Dev) (k : LinkId) : LineEnded e (e.linkWake k) := by
    have hl := linkOnly_linkWake e k
    unfold LinkOnly at hl
    unfold LineEnded
    rw [hl]
  unfold Dev.stage
  dsimp only
  split
  · exact (show LineEnded d (d.updKl _) from rfl).trans (hw _ _)
  · rfl

theorem cutLine (P : Part) (d : Dev) (s : Fin 64) (o : OpenLine) (data : List Byte) (last aborted : Bool) :
    LineEnded d (d.cutLine P s o data last aborted) := stage d _

theorem cutFull (P : Part) (s : Fin 64) (fuel : Nat) : ∀ (d : Dev) (o : OpenLine), LineEnded d (d.cutFull P s fuel o).2 := by
  induction fuel with
  | zero => exact fun d _ => refl d
  | succ fuel ih =>
    intro d o
    unfold Dev.cutFull
    dsimp only
    split
    · exact (cutLine P d s o _ false false).trans (ih _ _)
    · exact refl d

/-- What finishLine writes once the frames of a line are cut. -/
theorem settled (d : Dev) (s : Fin 64) (f : Machine.Stream → Machine.Stream) (g : Kl → Kl) : LineEnded d (((d.setOpen s.val none).updStream s f).updKl g) := rfl

theorem finishLine (P : Part) (d : Dev) (s : Fin 64) (o : OpenLine) (aborted : Bool) : LineEnded d (d.finishLine P s o aborted) := by
  have hr := cutFull P s (o.bytes.length + 1) d o
  unfold Dev.finishLine
  generalize d.cutFull P s (o.bytes.length + 1) o = r at hr
  refine trans ?_ (settled _ _ _ _)
  refine hr.trans ?_
  cases aborted
  · exact cutLine P _ _ _ _ _ _
  · refine trans ?_ (cutLine P _ _ _ _ _ _)
    split
    · exact refl _
    · exact cutLine P _ _ _ _ _ _

theorem openLine (d : Dev) (s : Fin 64) (ch : DmaId) (n : Fin 256) (line : Word) (hdr : LineHdr) : LineEnded d (d.openLine s ch n line hdr).2 := rfl

theorem updKl (d : Dev) (f : Kl → Kl) : LineEnded d (d.updKl f) := rfl

theorem finishLater (P : Part) (d : Dev) (s : Fin 64) (ch : DmaId) (n : Fin 256) : LineEnded d (d.finishLater P s ch n) :=
  (updKl d _).trans (foldl (fun e y => (openLine e s ch n y.line y.hdr).trans (finishLine P _ _ _ _)) _ _)

theorem closeLine (P : Part) (d : Dev) (s : Fin 64) (ch : DmaId) (n : Fin 256) (aborted : Bool) : LineEnded d (d.closeLine P s ch n aborted) := by
  unfold Dev.closeLine
  split
  next o _ =>
    split
    · exact (finishLine P d s o aborted).trans (finishLater P _ _ _ _)
    · exact updKl d _
  next => exact (openLine d s ch n (d.ls.slots[n]).line (d.ls.slots[n]).hdr).trans (finishLine P _ _ _ _)

theorem cutCascade (flush : Bool) (fuel : Nat) : ∀ (d : Dev) (o : OpenLine), LineEnded d (d.cutCascade flush fuel o) := by
  induction fuel with
  | zero => exact fun _ _ => rfl
  | succ fuel ih =>
    intro d o
    unfold Dev.cutCascade
    dsimp only
    split
    · exact (stage d _).trans (ih _ _)
    · rfl

theorem closeCascade (d : Dev) (ch : DmaId) (n : Fin 256) : LineEnded d (d.closeCascade ch n) := by
  unfold Dev.closeCascade
  dsimp only
  refine trans ?_ (stage _ _)
  split
  · split
    · exact (cutCascade _ _ _ _).trans rfl
    · rfl
  · rfl

theorem dmaClose (P : Part) (d : Dev) (n : DmaId) (w : Vector Word 7) (s : Fin 256) (aborted : Bool) : LineEnded d (d.dmaClose P n w s aborted) := by
  have hcasc : LineEnded d (if d.endsCascade n w then (if aborted then (if d.openedBy 64 n then d.setOpen 64 none else d) else d.closeCascade n s) else d) := by
    split
    · split
      · split <;> rfl
      · exact closeCascade d n s
    · rfl
  unfold Dev.dmaClose
  split
  · rfl
  · dsimp only
    generalize (if d.endsCascade n w then _ else d : Dev) = e at hcasc ⊢
    refine hcasc.trans ?_
    split
    · split
      · exact closeLine P _ _ _ _ _
      · rfl
    · rfl

theorem clearHold (P : Part) (d : Dev) (n : Fin 256) (b : Nat) : LineEnded d (d.clearHold P n b) := by
  unfold Dev.clearHold Dev.settleSlot
  dsimp only
  split
  · exact trans (e := d.updSlot n _) rfl (moveSlot _ _ _)
  · rfl

theorem dmaAbandon1 (P : Part) (d : Dev) (n : DmaId) (s : Fin 256) : LineEnded d (d.dmaAbandon1 P n s) := by
  have hc := dmaClose P d n (((d.dma[n]).desc).getD (d.regWords n)) s true
  unfold Dev.dmaAbandon1 Dev.dmaErr
  dsimp only
  generalize d.dmaClose P n _ s true = e at hc ⊢
  refine hc.trans (trans ?_ ((clearHold P _ s n.val).trans (raise _ _ _)))
  split <;> rfl

end LineEnded

/-- A channel that has abandoned its bound line and its list (09 R217). -/
def abandoned (some : Bool) (k : Chan) : Chan := { k with
  st := .idle, cut := true, bound := none, shut := none, list := [], buf := [], seen := [], flight := [], burst := 0, ringLat := false
  reread := false, goClear := false, atTail := false, abandon := k.abandon || some }

/-- A channel that abandons its lines stands in IDLE without a bound line or a list; contexts, memory and who is frozen stay (09 R217). -/
theorem dmaAbandon_effect (P : Part) (d : Dev) (n : DmaId) : (d.dmaAbandon P n).ctx = d.ctx ∧ (d.dmaAbandon P n).mem = d.mem ∧
    (d.dmaAbandon P n).mfrozen = d.mfrozen ∧ ((d.dmaAbandon P n).dma[n]).st = .idle ∧ ((d.dmaAbandon P n).dma[n]).bound = none ∧
    ((d.dmaAbandon P n).dma[n]).list = [] := by
  have hl := LineEnded.foldl (fun e s => LineEnded.dmaAbandon1 P e n s) ((d.dma[n]).bound.toList ++ (d.dma[n]).list) d
  unfold Dev.dmaAbandon
  dsimp only
  generalize List.foldl _ d _ = e at hl ⊢
  have hn : (e.updDma n (abandoned (!((d.dma[n]).bound.toList ++ (d.dma[n]).list).isEmpty))).dma[n] = _ := upd_get_self e.dma n _
  refine ⟨by rw [hl]; rfl, by rw [hl]; rfl, by rw [hl]; rfl, congrArg Chan.st hn, congrArg Chan.bound hn, congrArg Chan.list hn⟩

/-- Two changes of contexts that agree in either order. -/
theorem updCtx_comm (d : Dev) (a b : CtxId) (f g : Ctx → Ctx) (h : ∀ x, f (g x) = g (f x)) : (d.updCtx a f).updCtx b g = (d.updCtx b g).updCtx a f := by
  have hc : upd (upd d.ctx a f) b g = upd (upd d.ctx b g) a f := by
    refine Vector.ext fun i hi => ?_
    have e1 := upd_get (upd d.ctx a f) b ⟨i, hi⟩ g
    have e2 := upd_get (upd d.ctx b g) a ⟨i, hi⟩ f
    have e3 := upd_get d.ctx a ⟨i, hi⟩ f
    have e4 := upd_get d.ctx b ⟨i, hi⟩ g
    simp only [Fin.getElem_fin] at e1 e2 e3 e4
    rw [e1, e2, e3, e4]
    split <;> split <;> simp [h]
  exact congrArg (fun x => { d with ctx := x }) hc

section Target

variable {s : State} {c : CtxId} (h : s.issues c) (hp : (s.dev.ctx[c]).priv = true)

include h hp

/-- WIN writes both registers of a window of a context that the variant has (03 R74). -/
theorem win_completes (k : Fin 4) (gd ga gb : Reg) (hc : ctxPresent s.part ((s.dev.ctx[c]).target ga) = true) :
    Completes (.win c k gd ga gb) s ((advanced s c).updCtx ((s.dev.ctx[c]).target ga) fun y =>
      { y with win := y.win.set k ⟨winBase ((s.dev.ctx[c]).rd gb), winLimit ((s.dev.ctx[c]).rd gd)⟩ }) := by
  have hb := supInsn_completes h (i := .win c k gd ga gb) (f := fun P => Dev.winBody P c k gd ga gb) rfl hp
  rw [Dev.winBody] at hb
  simp only [issued_target, issued_rd] at hb
  rw [if_pos hc, Dev.advance, updCtx_comm] at hb
  · exact hb
  · exact fun _ => rfl

/-- WIN on a context that the variant lacks tells it in ST.ABS (00 R5). -/
theorem win_absent (k : Fin 4) (gd ga gb : Reg) (hc : ctxPresent s.part ((s.dev.ctx[c]).target ga) = false) :
    Completes (.win c k gd ga gb) s ((s.issued c).updCtx c fun x => { x with abs := true, pc := x.pc + 4 }) := by
  have hb := supInsn_completes h (i := .win c k gd ga gb) (f := fun P => Dev.winBody P c k gd ga gb) rfl hp
  rw [Dev.winBody] at hb
  simp only [issued_target] at hb
  rw [if_neg (by rw [hc]; decide)] at hb
  exact hb

/-- SYS FUSE reads a fuse word (16 R366). -/
theorem sysFuse_completes (gd ga : Reg) : Completes (.sysFuse c gd ga) s ((s.issued c).updCtx c fun x' =>
    { x'.wr gd (s.part.fuse (((s.dev.ctx[c]).rd ga).toNat % 64)) with pc := (s.dev.ctx[c]).pc + 4 }) := by
  have hb := supInsn_completes h (i := .sysFuse c gd ga) (f := fun P d =>
    (d.updCtx c fun x => x.wr gd (P.fuse (fld (x.rd ga) 0 6))).advance c) rfl hp
  rw [Dev.advance, updCtx_updCtx] at hb
  have hx (x : Ctx) (v : Word) : ({ x.wr gd v with pc := (x.wr gd v).pc + 4 } : Ctx) = { x.wr gd v with pc := x.pc + 4 } := by
    unfold Ctx.wr
    split <;> rfl
  have hpc : ((s.issued c).ctx[c]).pc = (s.dev.ctx[c]).pc := by rw [issued_self]
  rw [updCtx_congr _ _ _ (fun x' => { x'.wr gd (s.part.fuse (((s.dev.ctx[c]).rd ga).toNat % 64)) with pc := (s.dev.ctx[c]).pc + 4 })
    (by rw [issued_rd, fld_low, hx, hpc]; rfl)] at hb
  exact hb

end Target

/-! ### Masters thawed by number -/

/-- A context that the part has is no absent master (03 R82). -/
theorem masterAbsent_ctx {P : Part} {n : CtxId} (hc : ctxPresent P n = true) : masterAbsent P n.val = false := by
  have hn : n.val < P.contexts := of_decide_eq_true hc
  rw [masterAbsent, show decide (P.contexts ≤ n.val) = false from decide_eq_false (by omega),
    show decide (64 ≤ n.val ∧ n.val < 80) = false from decide_eq_false (by omega), Bool.and_false]
  rfl

/-- A channel that the part has is no absent master (03 R82). -/
theorem masterAbsent_dma {P : Part} {n : DmaId} (hc : dmaPresent P n = true) : masterAbsent P (64 + n.val) = false := by
  have hn : n.val < P.dmach := of_decide_eq_true hc
  rw [masterAbsent, show decide (64 + n.val < 64) = false from decide_eq_false (by omega),
    show decide (P.dmach ≤ 64 + n.val - 64) = false from decide_eq_false (by omega), Bool.and_false]
  rfl

/-- A context thawed (03 R82). -/
def thawed (cycle : Nat) (x : Ctx) : Ctx := { x with frozen := false, fetched := false, issuableSince := cycle }

/-- THAW of a context by its number (03 R82). -/
theorem thawNum_ctx {P : Part} {n : CtxId} (hc : ctxPresent P n = true) (d : Dev) :
    d.thawNum P n.val = if (d.ctx[n]).frozen = true then (true, d.setRun P n (thawed d.cycle)) else (false, d) :=
  thawNum_of (m := .ctx n) (masterAbsent_ctx hc)

/-- THAW of a channel by its number (03 R82, 09 R217). -/
theorem thawNum_dma {P : Part} {n : DmaId} (hc : dmaPresent P n = true) (d : Dev) :
    d.thawNum P (64 + n.val) = if d.frozen (.dma n) = true then
      (true, ({ d with mfrozen := d.mfrozen &&& ~~~(1#21 <<< n.val) }).dmaAbandon P n) else (false, d) :=
  thawNum_of (m := .dma n) (masterAbsent_dma hc)

/-- An issue freezes no context and thaws none. -/
theorem issued_frozen (s : State) (c n : CtxId) : ((s.issued c).ctx[n]).frozen = (s.dev.ctx[n]).frozen := by
  rw [issued_ctx, upd_get]
  split
  next he =>
    subst he
    rfl
  next => rfl

section Thaw

variable {s : State} {c : CtxId} {ga : Reg} (h : s.issues c) (hp : (s.dev.ctx[c]).priv = true)

include h hp

/-- THAW of a frozen context that the part has (03 R82). -/
theorem thaw_ctx_completes {n : CtxId} (hc : ctxPresent s.part n = true) (hnum : ((s.dev.ctx[c]).rd ga).toNat % 256 = n.val)
    (hn : n ≠ c) (hf : (s.dev.ctx[n]).frozen = true) : ∃ t, Completes (.thaw c ga) s t ∧
      t.ctx = upd (upd (s.issued c).ctx n (thawed s.dev.cycle)) c (fun x => { x with z := true, pc := x.pc + 4 }) ∧
      (s.dev.traced n = false → s.dev.pwr.gated[sequencerOf n] = false → t = { s.issued c with ctx := t.ctx } ∧ sameBytes s.dev t) := by
  have hfi : ((s.issued c).ctx[n]).frozen = true := by
    rw [issued_ctx, upd_get_ne _ _ _ _ (Ne.symm hn)]
    exact hf
  have hcyc : (s.issued c).cycle = s.dev.cycle := by simp
  have hpw : (s.issued c).pwr = s.dev.pwr := by simp
  have hz : (s.issued c).thawNum s.part (((s.dev.ctx[c]).rd ga).toNat % 256) = _ := hnum ▸ (thawNum_ctx hc _).trans (if_pos hfi)
  have ht := thaw_completes h hp (by rw [hnum]; exact masterAbsent_ctx hc) hz
  have hs : ActsOn (quietAt s n) (s.issued c) ((s.issued c).setRun s.part n (thawed (s.issued c).cycle)) n (thawed (s.issued c).cycle) :=
    .of_setRun fun hq => ⟨(issued_traced s c n).trans hq.1, .inr (by rw [hpw]; exact hq.2)⟩
  generalize Dev.setRun s.part (s.issued c) n _ = u at ht hs
  rw [hcyc] at hs
  refine ⟨_, ht, ?_, fun h1 h2 => ⟨?_, fun a => ?_⟩⟩
  · rw [(updCtx_fields _ c _).1, hs.ctx]
  · conv_lhs => rw [hs.frame ⟨h1, h2⟩]
    rfl
  · show u.byte a = _
    rw [Dev.byte, hs.mem]
    exact issued_sameBytes s c a

/-- THAW of a context or channel that the part lacks (00 R5, 03 R82). -/
theorem thaw_absent (ha : masterAbsent s.part (((s.dev.ctx[c]).rd ga).toNat % 256) = true) :
    Completes (.thaw c ga) s ((s.issued c).updCtx c fun x => { x with z := false, abs := true, pc := x.pc + 4 }) := by
  have hb := supInsn_completes h (i := .thaw c ga) (f := fun P => Dev.thawBody P c ga) rfl hp
  have hn : fld ((s.dev.ctx[c]).rd ga) 0 8 = ((s.dev.ctx[c]).rd ga).toNat % 256 := fld_low _ 8
  rw [Dev.thawBody, issued_rd, hn, if_pos ha] at hb
  exact hb

end Thaw

/-- Settles O18: an operation at a boundary acts at once, on the device in which the caller's PC has moved on. -/
theorem supervisorInstructions : Obligations.SupervisorInstructions := by
  intro s c gd ga gb k h x n y goes hp hc
  obtain ⟨hrun, hrst, hheld, hload, hdue, hsb⟩ := advanced_get s c n
  have hcyc : (advanced s c).cycle = s.dev.cycle := show (s.issued c).cycle = _ by simp
  have goesOn {i : Instr} {op : Nat} {insn : Word} {t : Dev} (hi : exec i s = act (fun P d => d.ctxInsn P c ga op insn) s)
      (ht : (advanced s c).ctxOp s.part op n = t) : Completes i s t := ht ▸ ctxInsn_completes h hp hi hc
  refine ⟨fun hr ho => ?_, fun hr hz hh hl hd => ?_, fun hh hl hd hs => ?_, fun hh hl hd => ?_, fun hh hl hd => ?_, fun hn hnum hf => ?_, ?_, ?_⟩
  · have ht : Completes (.ctxStart c ga) s _ := goesOn rfl (if_pos ⟨hrun.trans hr, show (s.issued c).sys.outcome ≠ 3 by simpa using ho⟩)
    rw [hcyc] at ht
    exact target_completes ht (acts_setRun _ _ _ _ _) rfl
  · have ht : Completes (.ctxStop c ga) s _ :=
      goesOn rfl (ctxStop_now s.part (hload.trans hl) (hheld.trans hh) (hdue.trans hd) (by rw [hrun]; exact hr) (hrst.trans hz))
    exact target_completes ht (acts_setRun _ _ _ _ _) rfl
  · have ht : Completes (.ctxReset c ga) s _ :=
      goesOn rfl ((ctxReset_now s.part (hload.trans hl) (hheld.trans hh) (hdue.trans hd)).trans (resetNow_empty s.part (hsb.trans hs)))
    rw [hcyc] at ht
    exact target_completes ht ((acts_setRun _ _ _ _ _).trans .of_updCtx) rfl
  · have ht : Completes (.ctxSetU c ga) s _ := goesOn rfl (ctxPriv_now s.part (hload.trans hl) (hheld.trans hh) (hdue.trans hd) false)
    exact target_completes ht .of_updCtx rfl
  · have ht : Completes (.ctxSetS c ga) s _ := goesOn rfl (ctxPriv_now s.part (hload.trans hl) (hheld.trans hh) (hdue.trans hd) true)
    exact target_completes ht .of_updCtx rfl
  · obtain ⟨t, ht, hctx, -⟩ := thaw_ctx_completes h hp hc hnum hn hf
    refine ⟨t, ht, ?_, ?_, ?_⟩
    · rw [hctx, upd_get_ne _ _ _ _ (Ne.symm hn), upd_get_self]
      rfl
    · rw [hctx, upd_get_self]
    · rw [hctx, upd_get_self, upd_get_ne _ _ _ _ hn, issued_self]
  · exact target_completes (win_completes h hp k gd ga gb hc) .of_updCtx rfl
  · exact sysFuse_completes h hp gd ga

/-! ### Instructions on absent units -/

section Absent

variable {i : Instr} {s : State} {c : CtxId} (h : s.issues c)

include h

/-- A device instruction of a unit that the variant lacks (00 R5, 04 R110). -/
theorem absentBody_completes {gd : Reg} (hi : exec i s = act (fun P d => d.issue P c (Dev.absentBody c gd)) s) :
    Completes i s ((s.issued c).updCtx c fun y => { y.wr gd 0 with z := false, abs := true, pc := y.pc + 4 }) :=
  issue_completes h (b := fun _ => Dev.absentBody c gd) hi

/-- A device instruction without a destination, of a unit that the variant lacks (00 R5, 04 R110). -/
theorem unitInsn_absent {present : Part → Bool} {f : Part → Dev → Bool × Dev} (hi : exec i s = act (fun P d => d.unitInsn P c (present P) (f P)) s)
    (hp : present s.part = false) :
    Completes i s ((s.issued c).updCtx c fun y => { y with z := false, abs := true, pc := y.pc + 4 }) := by
  refine absentBody_completes h (gd := 0) (hi.trans ?_)
  unfold act Dev.unitInsn
  simp only [hp, Bool.false_eq_true, if_false]

/-- An HKREQ on a part without the front end (00 R5, 04 R110). -/
theorem hkreq_absent {f : Part → Dev → Bool × Dev} (hi : exec i s = act (fun P d => d.hkreq P c (f P)) s) (hk : s.part.hkin = 0) :
    Completes i s ((s.issued c).updCtx c fun y => { y with z := false, abs := true, pc := y.pc + 4 }) := by
  refine absentBody_completes h (gd := 0) (hi.trans ?_)
  unfold act Dev.hkreq Dev.unitInsn Dev.when
  simp only [hk]
  rfl

end Absent

/-- Settles O19: the number says which master is thawed, and an absent unit answers Z = 0. -/
theorem thawAndAbsentUnits : Obligations.ThawAndAbsentUnits := by
  refine ⟨?_, ?_⟩
  · intro s c gd ga gb k ch q h x n num frees nothing hp
    have thaws {z : Bool} {t : Dev} (ha : masterAbsent s.part num = false) (ht : (s.issued c).thawNum s.part num = (z, t)) :=
      thaw_completes h hp (ga := ga) ha ht
    have hm : (s.issued c).mfrozen = s.dev.mfrozen := by simp
    have hfro (ch : DmaId) : (s.issued c).frozen (.dma ch) = s.dev.frozen (.dma ch) := by
      show (s.issued c).mfrozen.getLsbD _ = s.dev.mfrozen.getLsbD _
      rw [hm]
    refine ⟨fun hn hc hnum hf => thaw_ctx_completes h hp hc hnum hn hf, fun hc hnum hf => ?_, fun hc hnum => ⟨fun hf => ?_, fun hf => ?_⟩,
      fun hnum => ⟨fun hf => ?_, fun hf => ?_⟩, fun hnum => ?_, fun ha => ?_, fun hc i hi => ?_⟩
    · have hfi : ¬ ((s.issued c).ctx[n]).frozen = true := by
        rw [issued_frozen, hf]
        decide
      exact thaws (hnum ▸ masterAbsent_ctx hc) (hnum ▸ (thawNum_ctx hc _).trans (if_neg hfi))
    · have hfi : ¬ (s.issued c).frozen (.dma ch) = true := by
        rw [hfro, hf]
        decide
      exact thaws (hnum ▸ masterAbsent_dma hc) (hnum ▸ (thawNum_dma hc _).trans (if_neg hfi))
    · have ht := thaws (hnum ▸ masterAbsent_dma hc) (hnum ▸ (thawNum_dma hc _).trans (if_pos ((hfro ch).trans hf)))
      obtain ⟨hctx, hmem, hfrz, hst, hbound, hlist⟩ := dmaAbandon_effect s.part { s.issued c with mfrozen := (s.issued c).mfrozen &&& ~~~(1#21 <<< ch.val) } ch
      refine ⟨_, ht, hfrz.trans ?_, hst, hbound, hlist, ?_, fun a => ?_⟩
      · rw [hm]
      · rw [(updCtx_fields _ c _).1, hctx]
      · show Dev.byte (Dev.dmaAbandon _ _ _) a = _
        rw [Dev.byte, hmem]
        exact issued_sameBytes s c a
    · exact thaws (masterAbsent_high _ (by omega)) (hnum ▸ (thawNum_fixed _ _ q).trans (if_pos (by rw [hm]; exact hf)))
    · exact thaws (masterAbsent_high _ (by omega)) (hnum ▸ (thawNum_fixed _ _ q).trans (if_neg (by rw [hm, hf]; decide)))
    · exact thaws (masterAbsent_high _ (by omega)) (thawNum_never _ _ hnum)
    · exact thaw_absent h hp ha
    · simp only [List.mem_cons, List.not_mem_nil, or_false] at hi
      obtain rfl | rfl | rfl | rfl | rfl | rfl := hi
      · exact ctxInsn_absent h hp rfl hc
      · exact ctxInsn_absent h hp rfl hc
      · exact ctxInsn_absent h hp rfl hc
      · exact ctxInsn_absent h hp rfl hc
      · exact ctxInsn_absent h hp rfl hc
      · exact win_absent h hp k gd ga gb hc
  · intro s c gd ga p b ch u e peek h absent
    refine ⟨fun hp => ?_, fun hp => ⟨?_, ?_⟩, fun hp => ⟨?_, ?_, ?_, ?_⟩⟩
    · exact unitInsn_absent h (present := fun P => portPresent P p) (f := fun _ d => d.armPort p b) rfl hp
    · exact unitInsn_absent h (present := fun P => dmaPresent P ch) (f := fun P d => d.dmaXfer P ch ((d.ctx[c]).rd ga)) rfl hp
    · exact unitInsn_absent h (present := fun P => dmaPresent P ch) (f := fun _ d => (true, d.dmaRing ch)) rfl hp
    · exact hkreq_absent h (f := fun _ d => if d.hkStart.1 then (d.cross 4).hkStart else d.hkStart) rfl hp
    · exact hkreq_absent h (f := fun _ d => d.hkUrgent u e) rfl hp
    · exact hkreq_absent h (f := fun _ d => (true, (d.cross 4).hkStop)) rfl hp
    · exact absentBody_completes h (show execHkrd c gd e peek s = _ by unfold execHkrd act; simp only [hp, if_true])

end Sys2Proof.Proofs.Supervisor
end

section
/-!
CRED instructions and the pacing book (02 R41, R43, R44, 04 R112).
-/
namespace Sys2Proof.Proofs.Credits

open Sys2Proof.Machine Sys2Proof.Laws Sys2Proof.Proofs.Alu Sys2Proof.Proofs.Control Sys2Proof.Proofs.Correlation

/-- A change of one stream's book: the other streams, all outside the Hinge and the fabric, and the Hinge's note of a grant over the bound are as they were or as told. -/
structure BookMoved (d t : Dev) (n : Fin 64) (f : Stream → Stream) (ovf : Bool) : Prop where
  frame : t = { d with hng := t.hng, ev := t.ev }
  streams : t.hng.streams = upd d.hng.streams n f
  crovf : t.hng.crovf = ovf

namespace BookMoved

variable {d t : Dev} {n : Fin 64} {f : Stream → Stream} {ovf : Bool}

/-- Event 11 is judged after the change of a book (02 R47). -/
theorem creditCheck (h : BookMoved d t n f ovf) (b : Option Nat) : BookMoved d (t.creditCheck b) n f ovf := by
  have hc := creditCheck_fields t b
  generalize t.creditCheck b = u at hc
  refine ⟨?_, ?_, ?_⟩
  · rw [hc, h.frame]
  · rw [hc]
    exact h.streams
  · rw [hc]
    exact h.crovf

/-- A credit takes back the freeze that waits (02 R42). -/
theorem stopDue (h : BookMoved d t n f ovf) : BookMoved d (if t.cNow = some 0 then t else t.updHng fun h => { h with stopDue := none }) n f ovf := by
  split
  · exact h
  · exact ⟨by rw [h.frame]; rfl, h.streams, h.crovf⟩

/-- Nothing outside the Hinge and the fabric moves. -/
theorem outside (h : BookMoved d t n f ovf) : t.ctx = d.ctx ∧ t.mem = d.mem ∧ t.mot = d.mot := by
  rw [h.frame]
  exact ⟨rfl, rfl, rfl⟩

end BookMoved

/-- The book of an open stream that takes k lines in a cycle (02 R41, R42). -/
def granted (cycle k : Nat) (b : Stream) : Stream := { b with
  granted := b.granted + nword k, avail := b.avail + nword k, recent := b.recent + k
  newIn := (if b.newAt = cycle then b.newIn else 0) + k, newAt := cycle }

/-- A grant to an open stream: as many lines as its bound leaves room for (02 R41). -/
theorem grant_open (d : Dev) (n : Fin 64) (a : Nat) (ho : (d.hng.streams[n]).opened = true) :
    let room := 0xFFFFFF - (d.hng.streams[n]).avail.toNat
    (d.grant n a).1 = decide (a ≤ room) ∧
    BookMoved d (d.grant n a).2 n (granted d.cycle (min a room)) (d.hng.crovf || decide (room < a)) := by
  intro room
  have hk : (min a room == a) = decide (a ≤ room) := by
    by_cases ha : a ≤ room
    · rw [min_eq_left ha, decide_eq_true ha, beq_self_eq_true]
    · rw [min_eq_right (by omega), decide_eq_false ha]
      exact beq_false_of_ne (by omega)
  have hg : BookMoved d (if min a room < a then (d.updStream n (granted d.cycle (min a room))).updHng fun h => { h with crovf := true }
      else d.updStream n (granted d.cycle (min a room))) n (granted d.cycle (min a room)) (d.hng.crovf || decide (room < a)) := by
    split
    next hlt => exact ⟨rfl, rfl, by rw [decide_eq_true (by omega), Bool.or_true]; rfl⟩
    next hle => exact ⟨rfl, rfl, by rw [decide_eq_false (by omega), Bool.or_false]; rfl⟩
  unfold Dev.grant
  dsimp only
  rw [if_neg (by rw [ho]; decide)]
  exact ⟨hk, (hg.creditCheck d.cNow).stopDue⟩

/-- The book of a stream closed (02 R43). -/
def closedBook (b : Stream) : Stream := { b with opened := false, granted := b.granted - b.avail, avail := 0, after := [] }

/-- The book of a stream opened by CRED OPEN (02 R43). -/
def openBook (b : Stream) : Stream := { b with
  opened := true, granted := 0, delivered := 0, avail := 0, gap := 0, gapAdd := 0, gapOut := 0, newIn := 0, after := [] }

/-- An open stream closed (02 R43). -/
theorem closeStream_open (d : Dev) (n : Fin 64) (ho : (d.hng.streams[n]).opened = true) :
    (d.closeStream n).1 = true ∧ BookMoved d (d.closeStream n).2 n closedBook d.hng.crovf := by
  rw [Dev.closeStream, if_pos ho]
  exact ⟨rfl, BookMoved.creditCheck ⟨rfl, rfl, rfl⟩ _⟩

/-- A closed stream opened (02 R43). -/
theorem openStream_closed (d : Dev) (n : Fin 64) (ho : (d.hng.streams[n]).opened = false) :
    (d.openStream n).1 = true ∧ BookMoved d (d.openStream n).2 n openBook d.hng.crovf := by
  rw [Dev.openStream, if_neg (by rw [ho]; decide)]
  exact ⟨rfl, BookMoved.creditCheck ⟨rfl, rfl, rfl⟩ _⟩

section Owner

variable {i : Instr} {s : State} {c : CtxId} {ga : Reg} (h : s.issues c)
  (hp : (s.dev.ctx[c]).priv = true ∨ (s.dev.hng.streams[(s.dev.ctx[c]).stream ga]).owner.toNat = c.val)

include h hp

/-- A CRED instruction that its owner or an S context issues acts (02 R44). -/
theorem cred_completes {insn : Word} {f : Fin 64 → Dev → Dev} (hi : exec i s = act (fun P d => d.credInsn P c ga insn f) s) :
    Completes i s (f ((s.dev.ctx[c]).stream ga) (s.issued c)) := by
  have hb := credInsn_completes h hi
  have hno : ¬ (!(s.dev.ctx[c]).priv && (s.dev.hng.streams[(s.dev.ctx[c]).stream ga]).owner.toNat != c.val) = true := by
    rcases hp with hp | hp
    · rw [hp, Bool.not_true, Bool.false_and]
      decide
    · rw [hp, bne_self_eq_false, Bool.and_false]
      decide
  rw [if_neg hno] at hb
  exact hb

/-- A CRED instruction that acts on nothing tells its Z (02 R43, R44). -/
theorem cred_nothing {insn : Word} {f : Fin 64 → Dev → Bool × Dev} {z : Bool}
    (hi : exec i s = act (fun P d => d.credInsn P c ga insn fun n d => (f n d).2.devDone c (f n d).1) s)
    (hf : f ((s.dev.ctx[c]).stream ga) (s.issued c) = (z, s.issued c)) :
    Completes i s ((s.issued c).updCtx c fun y => { y with z := z, pc := y.pc + 4 }) := by
  have hb := cred_completes h hp (f := fun n d => (f n d).2.devDone c (f n d).1) hi
  rw [hf] at hb
  exact hb

/-- A CRED instruction that moves the book of its stream: Z and PC, and the frame. -/
theorem cred_moves {insn : Word} {f : Fin 64 → Dev → Bool × Dev} {z ovf : Bool} {g : Stream → Stream}
    (hi : exec i s = act (fun P d => d.credInsn P c ga insn fun n d => (f n d).2.devDone c (f n d).1) s)
    (hz : (f ((s.dev.ctx[c]).stream ga) (s.issued c)).1 = z)
    (hf : BookMoved (s.issued c) (f ((s.dev.ctx[c]).stream ga) (s.issued c)).2 ((s.dev.ctx[c]).stream ga) g ovf) :
    ∃ t, Completes i s t ∧ t.ctx = upd (s.issued c).ctx c (fun y => { y with z := z, pc := y.pc + 4 }) ∧
      (sameBytes s.dev t ∧ t.mot = s.dev.mot ∧ ∀ j : Fin 64, j ≠ (s.dev.ctx[c]).stream ga → t.hng.streams[j] = s.dev.hng.streams[j]) ∧
      t.hng.streams[(s.dev.ctx[c]).stream ga] = g s.dev.hng.streams[(s.dev.ctx[c]).stream ga] ∧ t.hng.crovf = ovf := by
  have hb := cred_completes h hp (f := fun n d => (f n d).2.devDone c (f n d).1) hi
  generalize f ((s.dev.ctx[c]).stream ga) (s.issued c) = r at hz hf hb
  obtain ⟨hctx, hmem, hmot⟩ := hf.outside
  have hstr : r.2.hng.streams = upd s.dev.hng.streams ((s.dev.ctx[c]).stream ga) g := by
    rw [hf.streams, show (s.issued c).hng = s.dev.hng by simp]
  refine ⟨_, hb, ?_, ⟨fun a => ?_, hmot.trans (by simp), fun j hj => ?_⟩, ?_, hf.crovf⟩
  · show (r.2.devDone c r.1).ctx = _
    rw [Dev.devDone, (updCtx_fields _ c _).1, hctx, hz]
  · show r.2.byte a = _
    rw [Dev.byte, hmem]
    exact issued_sameBytes s c a
  · show r.2.hng.streams[j] = _
    rw [hstr, upd_get_ne _ _ _ _ (Ne.symm hj)]
  · show r.2.hng.streams[_] = _
    rw [hstr, upd_get_self]

end Owner

/-- Settles O16: each CRED form moves one book as the rule says, or acts on nothing. -/
theorem creditInstructions : Obligations.CreditInstructions := by
  intro s c gd ga gb h x n b room k at_ nothing others hp
  have hh : (s.issued c).hng = s.dev.hng := by simp
  have hcyc : (s.issued c).cycle = s.dev.cycle := by simp
  have hopen (z : Bool) (ho : b.opened = z) : ((s.issued c).hng.streams[n]).opened = z := by simp only [hh]; exact ho
  have grants := fun ho => grant_open (s.issued c) n (x.rd gb).toNat (hopen true ho)
  have closes := fun ho => closeStream_open (s.issued c) n (hopen true ho)
  have opens := fun ho => openStream_closed (s.issued c) n (hopen false ho)
  simp only [hh, hcyc] at grants closes opens
  have hrd : ((s.issued c).ctx[c]).rd gb = x.rd gb := issued_rd s c gb
  refine ⟨fun ho => ?_, fun ho => ?_, fun ho => ?_, fun ho => ?_, fun ho => ?_, fun ho => ?_, ?_⟩
  · obtain ⟨hz, hm⟩ := grants ho
    obtain ⟨t, ht, hctx, hother, hbook, hov⟩ := cred_moves h hp (i := .credGrant c ga gb) (z := decide ((x.rd gb).toNat ≤ room))
      (f := fun n d => d.grant n ((d.ctx[c]).rd gb).toNat) rfl (by rw [hrd]; exact hz) (by rw [hrd]; exact hm)
    exact ⟨t, ht, hctx, hother, hbook, hov⟩
  · exact cred_nothing h hp (f := fun n d => d.grant n ((d.ctx[c]).rd gb).toNat) rfl (if_pos (by rw [hopen false ho]; rfl))
  · obtain ⟨hz, hm⟩ := closes ho
    obtain ⟨t, ht, hctx, hother, hbook, -⟩ := cred_moves h hp (i := .credClose c ga) (f := fun n d => d.closeStream n) rfl hz hm
    exact ⟨t, ht, hctx, hother, hbook⟩
  · exact cred_nothing h hp (f := fun n d => d.closeStream n) rfl (if_neg (by rw [hopen false ho]; decide))
  · obtain ⟨hz, hm⟩ := opens ho
    obtain ⟨t, ht, hctx, hother, hbook, -⟩ := cred_moves h hp (i := .credOpen c ga) (f := fun n d => d.openStream n) rfl hz hm
    exact ⟨t, ht, hctx, hother, hbook⟩
  · exact cred_nothing h hp (f := fun n d => d.openStream n) rfl (if_pos (hopen true ho))
  · have ht := cred_completes h hp (i := .credRead c gd ga) (f := fun n d =>
      (d.updCtx c fun x => x.wr gd (d.hng.streams[n]).avail).devDone c (d.hng.streams[n]).opened) rfl
    have hw (y : Ctx) : ({ y.wr gd b.avail with z := b.opened, pc := (y.wr gd b.avail).pc + 4 } : Ctx) =
        { y.wr gd b.avail with z := b.opened, pc := y.pc + 4 } := by
      rw [(wr_fields y gd b.avail).1]
    rw [Dev.devDone, updCtx_updCtx] at ht
    simp only [hh] at ht
    rw [← funext hw]
    exact ht

end Sys2Proof.Proofs.Credits
end

section
/-!
MOVE and MSTOP (08 R189 to R191, R193, 04 R112).
-/
namespace Sys2Proof.Proofs.Moves

open Sys2Proof.Machine Sys2Proof.Laws Sys2Proof.Proofs.Alu Sys2Proof.Proofs.Control

/-- An axis whose programs command it: M1 always, M0 outside a run of the Hinge (08 R189). -/
def commanded (d : Dev) (m : AxisId) : Prop := ¬ (m = 0 ∧ d.running = true)

/-- A MOVE is kept for the next interval (08 R190). -/
theorem moveAxis_commanded {d : Dev} {m : AxisId} (h : commanded d m) (k : MoveCmd) :
    d.moveAxis m k = (true, d.updMot m fun y => { y with next := some k }) := if_neg h

/-- A run of the Hinge refuses a MOVE of M0 (08 R191). -/
theorem moveAxis_refused {d : Dev} {m : AxisId} (h : ¬ commanded d m) (k : MoveCmd) : d.moveAxis m k = (false, d) := if_pos (not_not.mp h)

/-- The base of a MOVE in mode 1 (08 R190). -/
theorem moveBase_eq (d : Dev) (m : AxisId) : d.moveBase m =
    if (d.mot[m]).next = some .stop then d.posNow m else match (d.mot[m]).cmd with | .pos t => t | _ => d.posNow m := by
  unfold Dev.moveBase
  split
  next hs => rw [if_pos hs]
  next hc hs => rw [if_neg fun he => hs he, hc]
  next hs hc =>
    rw [if_neg fun he => hs he]
    split
    next t ht => exact absurd ht (hc t)
    next => rfl

/-- A program move is in progress or accepted on an axis (08 R189, R190). -/
def inProgress (d : Dev) (m : AxisId) : Prop :=
  (d.mot[m]).next ≠ none ∨ ((d.mot[m]).cmd ≠ .none ∧ ¬ (m = 0 ∧ d.hng.takeM0 = true))

/-- How the model tells a program move. -/
theorem inProgress_iff (d : Dev) (m : AxisId) :
    ((d.mot[m]).next.isSome || ((d.mot[m]).cmd != .none && !(m == 0 && d.hng.takeM0))) = true ↔ inProgress d m := by
  rw [inProgress, Bool.or_eq_true, Bool.and_eq_true, bne_iff_ne, Bool.not_eq_true', Bool.and_eq_false_iff, Option.isSome_iff_ne_none,
    not_and_or, beq_eq_false_iff_ne, Bool.not_eq_true]

section Stop

variable {d : Dev} {m : AxisId} (h : commanded d m)

include h

/-- MSTOP of an axis that stands held: a kept move is taken away and ends (08 R191). -/
theorem mstop_held (hh : d.held m = true) : d.mstopAxis m =
    (true, if (d.mot[m]).next.isSome then (d.updMot m fun y => { y with next := none }).motDone m true else d) := by
  unfold Dev.mstopAxis
  rw [if_neg h]
  dsimp only
  rw [if_pos hh]

/-- MSTOP of an axis that moves freely keeps a stop for the interval where a program move is there (08 R190). -/
theorem mstop_free (hh : d.held m = false) (ht : (d.mot[m]).takeUp = none) :
    (inProgress d m → d.mstopAxis m = (true, d.updMot m fun y => { y with next := some .stop })) ∧ (¬ inProgress d m → d.mstopAxis m = (true, d)) := by
  unfold Dev.mstopAxis
  rw [if_neg h]
  dsimp only
  rw [if_neg (by rw [hh]; decide), if_neg (by rw [ht]; decide)]
  exact ⟨fun hp => if_pos ((inProgress_iff d m).mpr hp), fun hp => if_neg fun hb => hp ((inProgress_iff d m).mp hb)⟩

omit h in
/-- An axis at rest judged again: neither its move nor its take-up changes (08 R180). -/
theorem restUpdate_effect (d : Dev) (m : AxisId) : let t := d.restUpdate m
    t = { d with mot := t.mot } ∧ (t.mot[m]).takeUp = (d.mot[m]).takeUp ∧ (t.mot[m]).cmd = (d.mot[m]).cmd ∧ (t.mot[m]).next = (d.mot[m]).next := by
  refine ⟨rfl, ?_⟩
  unfold Dev.restUpdate
  rw [(updMot_fields d m _).1, upd_get_self]
  split
  · exact ⟨rfl, rfl, rfl⟩
  · split
    · exact ⟨rfl, rfl, rfl⟩
    · exact ⟨rfl, rfl, rfl⟩

/-- MSTOP during the take-up of backlash ends the move where it stands (08 R193). -/
theorem mstop_takeUp (hh : d.held m = false) (ht : (d.mot[m]).takeUp ≠ none) : let t := (d.mstopAxis m).2
    (d.mstopAxis m).1 = true ∧ t = { d with mot := t.mot, ev := t.ev } ∧
    (t.mot[m]).takeUp = none ∧ (t.mot[m]).cmd = .none ∧ (t.mot[m]).next = none := by
  intro t
  obtain ⟨u, hu⟩ : ∃ u : Dev, u = (d.updMot m fun x => { x with blOff := d.blNow m, takeUp := none, cmd := .none, next := none }).segHold m := ⟨_, rfl⟩
  obtain ⟨v, hv, hvu⟩ : ∃ v : Dev, d.mstopAxis m = (true, v.restUpdate m) ∧ v = { u with ev := v.ev } := by
    unfold Dev.mstopAxis
    rw [if_neg h]
    dsimp only
    rw [if_neg (by rw [hh]; decide), if_pos (Option.isSome_iff_ne_none.mpr ht), ← hu]
    refine ⟨_, rfl, ?_⟩
    split
    · exact Raise.raise_eq u _ _
    · rfl
  have hud : u = { d with mot := u.mot } := by
    rw [hu]
    rfl
  have hum : u.mot[m] = { d.mot[m] with
      blOff := d.blNow m, takeUp := none, cmd := .none, next := none, segAt := d.cycle, pStart := (d.mot[m]).p, pMove := 0, blStart := d.blNow m
      blRate := 0 } := by
    rw [hu, Dev.segHold, (updMot_fields _ m _).1, upd_get_self, (updMot_fields d m _).1, upd_get_self]
    rfl
  have hvm : v.mot[m] = u.mot[m] := by rw [hvu]
  obtain ⟨hr, htk, hcmd, hnext⟩ := restUpdate_effect v m
  have hte : t = v.restUpdate m := by
    show (d.mstopAxis m).2 = _
    rw [hv]
  refine ⟨by rw [hv], ?_, ?_, ?_, ?_⟩
  · rw [hte, hr, hvu, hud]
  · rw [hte, htk, hvm, hum]
  · rw [hte, hcmd, hvm, hum]
  · rw [hte, hnext, hvm, hum]

end Stop

/-- A signed 48-bit value of two registers, as the low bits of both (04 R112). -/
theorem pos48_eq (hi lo : Word) : pos48 hi lo = ((hi ++ lo : BitVec 64).extractLsb' 0 48).toInt := by
  rw [pos48]
  congr 1
  refine BitVec.eq_of_getLsbD_eq fun i hi' => ?_
  simp only [BitVec.getLsbD_append, BitVec.getLsbD_extractLsb', Nat.zero_add, hi', decide_true, Bool.true_and]
  split
  · rfl
  · rw [decide_eq_true (by omega), Bool.true_and]

/-- An issue leaves what MOVE and MSTOP ask of an axis (08 R190). -/
theorem issued_motion (s : State) (c : CtxId) (m : AxisId) : (s.issued c).posNow m = s.dev.posNow m ∧ (s.issued c).held m = s.dev.held m ∧
    (s.issued c).running = s.dev.running ∧ (inProgress (s.issued c) m ↔ inProgress s.dev m) := by
  rw [issued_frame]
  exact ⟨rfl, rfl, rfl, Iff.rfl⟩

/-- Settles O15: what the axis does decides, and the issue leaves it as it was. -/
theorem moveInstructions : Obligations.MoveInstructions := by
  intro s c gd ga m h x p0 keeps nothing now prog base
  obtain ⟨hpos, hheld, hrun, hprog⟩ := issued_motion s c m
  have hmot : (s.issued c).mot = s.dev.mot := by simp
  have hrunst : s.dev.running = true ↔ s.dev.hng.st ≠ .off := bne_iff_ne
  have hp0 : ((s.issued c).ctx[c]).pair48 gd ga = p0.toInt := by
    rw [Ctx.pair48, issued_rd, issued_rd, pos48_eq]
  have hbase : (s.issued c).moveBase m = base := by
    have hb := moveBase_eq (s.issued c) m
    rw [hpos, hmot] at hb
    exact hb
  have runs (hz : gd = 0) (f : Dev → Bool × Dev) {z : Bool} {t : Dev}
      (hf : f = fun d => d.moveAxis m (.vel ((d.ctx[c]).rd ga).toInt)) (ht : f (s.issued c) = (z, t)) :
      Completes (.moveRun c m gd ga) s (t.updCtx c fun y => { y with z := z, pc := y.pc + 4 }) := by
    refine devInsn_completes h (f := fun _ => f) ?_ ht
    subst hf
    show execMoveRun c m gd ga s = _
    unfold execMoveRun act
    simp only [if_pos hz]
  refine ⟨fun hm => ?_, fun hm hst => ?_⟩
  · have hc : commanded (s.issued c) m := by
      rintro ⟨h0, hr⟩
      rw [hrun, hrunst] at hr
      rcases hm with hm | hm
      · exact absurd (h0.symm.trans hm) (by decide)
      · exact hr hm
    refine ⟨?_, ?_, fun hz => ?_, fun hh ht hp => ?_, fun hh ht hp => ?_, fun hh hn => ?_, fun hh hn => ?_, fun hh ht => ?_⟩
    · exact devInsn_completes h (f := fun _ d => d.moveAxis m (.pos ((d.ctx[c]).pair48 gd ga * 65536))) rfl (by rw [hp0]; exact moveAxis_commanded hc _)
    · exact devInsn_completes h (f := fun _ d => d.moveAxis m (.pos (d.moveBase m + (d.ctx[c]).pair48 gd ga * 65536))) rfl
        (by rw [hp0, hbase]; exact moveAxis_commanded hc _)
    · exact runs hz _ rfl (by rw [issued_rd]; exact moveAxis_commanded hc _)
    · exact devInsn_completes h (f := fun _ d => d.mstopAxis m) rfl ((mstop_free hc (hheld.trans hh) (by rw [hmot]; exact ht)).1 (hprog.mpr hp))
    · exact devInsn_completes h (f := fun _ d => d.mstopAxis m) rfl ((mstop_free hc (hheld.trans hh) (by rw [hmot]; exact ht)).2 fun hq => hp (hprog.mp hq))
    · exact devInsn_completes h (f := fun _ d => d.mstopAxis m) rfl ((mstop_held hc (hheld.trans hh)).trans (by rw [hmot]; exact congrArg _ (if_neg (by rw [hn]; decide))))
    · exact devInsn_completes h (f := fun _ d => d.mstopAxis m) rfl ((mstop_held hc (hheld.trans hh)).trans
        (by rw [hmot]; exact congrArg _ (if_pos (Option.isSome_iff_ne_none.mpr hn))))
    · obtain ⟨hz, hfr, htk, hcmd, hnext⟩ := mstop_takeUp hc (hheld.trans hh) (by rw [hmot]; exact ht)
      have hd := devInsn_completes h (i := .mstop c m) (f := fun _ d => d.mstopAxis m) rfl (Prod.ext hz rfl)
      refine ⟨_, hd, fun a => ?_, ?_, htk, hcmd, hnext⟩
      · show Dev.byte ((s.issued c).mstopAxis m).2 a = _
        rw [hfr]
        exact issued_sameBytes s c a
      · have hctx : ((s.issued c).mstopAxis m).2.ctx = (s.issued c).ctx := by
          conv_lhs => rw [hfr]
        rw [(updCtx_fields _ c _).1, hctx]
  · have hc : ¬ commanded (s.issued c) m := not_not.mpr ⟨hm, by rw [hrun, hrunst]; exact hst⟩
    refine ⟨?_, ?_, fun hz => ?_, ?_⟩
    · exact devInsn_completes h (f := fun _ d => d.moveAxis m (.pos ((d.ctx[c]).pair48 gd ga * 65536))) rfl (moveAxis_refused hc _)
    · exact devInsn_completes h (f := fun _ d => d.moveAxis m (.pos (d.moveBase m + (d.ctx[c]).pair48 gd ga * 65536))) rfl (moveAxis_refused hc _)
    · exact runs hz _ rfl (moveAxis_refused hc _)
    · exact devInsn_completes h (f := fun _ d => d.mstopAxis m) rfl (if_pos (not_not.mp hc))

end Sys2Proof.Proofs.Moves
end

section
/-!
LINE and SEAM instructions (02 R33, R49, R55, 04 R112, 07 R170, 13 R305).
-/
namespace Sys2Proof.Proofs.LineControl

open Sys2Proof.Machine Sys2Proof.Laws Sys2Proof.Proofs.Alu Sys2Proof.Proofs.Control Sys2Proof.Proofs.MgmtRequests Sys2Proof.Proofs.LineCaptures

/-- What a line's start and stop are judged by: the Hinge, and that contexts and memory stay. -/
def runView (d : Dev) : Hinge × Vector Ctx 64 × Mem := (d.hng, d.ctx, d.mem)

/-- The Hinge's part that a start sets or keeps (02 R33). -/
def gridOf (h : Hinge) : HState × Int × Int × Word × Nat × Half × Reason × Bool × Vector Machine.Stream 64 × Byte × Byte :=
  (h.st, h.origin, h.next, h.lineNo, h.fired, h.seamCnt, h.reason, h.valid, h.streams, h.voff, h.hoff)

/-- A choice between a device and one of the same view. -/
theorem runView_ite {p : Prop} [Decidable p] {t d : Dev} (h : runView t = runView d) : runView (if p then t else d) = runView d := by
  split
  · exact h
  · rfl

/-- The mark of the store's free slots is judged (07 R177). -/
theorem runView_lowCheck (d : Dev) (b : Nat) : runView (d.lowCheck b) = runView d := by
  unfold Dev.lowCheck
  dsimp only
  split
  · rw [Raise.raise_eq]
    rfl
  · exact runView_ite rfl

/-- A slot moves (07 R177). -/
theorem runView_moveSlot (d : Dev) (n : Fin 256) (f : Slot → Slot) : runView (d.moveSlot n f) = runView d := runView_lowCheck (d.updSlot n f) _

/-- Slots that are pinned no more fall free (09 R202). -/
theorem runView_unpin (P : Part) (d : Dev) : runView (d.unpin P) = runView d :=
  foldl_keeps runView _ (fun d n => runView_ite (runView_moveSlot d n _)) _ _

/-- Overlap slots fall free (02 R57). -/
theorem runView_freeOverlaps (d : Dev) : runView d.freeOverlaps = runView d :=
  foldl_keeps runView _ (fun d n => runView_ite (runView_moveSlot d n _)) _ _

/-- A geometry that waits takes effect, or waits on (09 R401). -/
theorem runView_geometryApply (d : Dev) : runView d.geometryApply = runView d := by
  unfold Dev.geometryApply
  split
  · exact runView_ite (runView_lowCheck _ _)
  · rfl

/-- LINE START sets the geometry (09 R197, R401). -/
theorem runView_startGeom (P : Part) (d : Dev) : runView (d.startGeom P) = runView d := by
  unfold Dev.startGeom
  dsimp only
  split
  · rfl
  · exact runView_geometryApply _

/-- A message is put up for the members (13 R305). -/
theorem runView_stageMsg (d : Dev) (k : LinkId) (t : Nat) (tag : Word) (body : List Word) (a : Bool) :
    runView (d.stageMsg k t tag body a) = runView d := by
  rw [(stageMsg_fields d k t tag body a).1]
  rfl

/-- M0 returns to programs (08 R189). -/
theorem releaseM0_eq (d : Dev) : d.releaseM0 = { d with hng := { d.hng with ownsM0 := d.releaseM0.hng.ownsM0 } } := by
  unfold Dev.releaseM0
  split <;> rfl

/-- The view of a start: its grid, and that contexts and memory stay. -/
def startView (d : Dev) : (HState × Int × Int × Word × Nat × Half × Reason × Bool × Vector Machine.Stream 64 × Byte × Byte) × Vector Ctx 64 × Mem :=
  (gridOf d.hng, d.ctx, d.mem)

/-- What keeps the Hinge keeps the view of a start. -/
theorem startView_of {t d : Dev} (h : runView t = runView d) : startView t = startView d :=
  congrArg (fun v : Hinge × Vector Ctx 64 × Mem => (gridOf v.1, v.2)) h

/-- A reach noted (02 R35). -/
theorem startView_noteReach (d : Dev) : startView d.noteReach = startView d := by
  rw [noteReach_eq]
  rfl

/-- The Hinge and its axis as a run starts at a position with a line's number (02 R33, 08 R189). -/
def opened (g : Geom) (p0 : Int) (n0 : Word) (d : Dev) : Dev :=
  let k := max 2 (min 8 (fld d.hngCtl 4 4))
  let d := d.updHng fun h => { h with
    st := .run, seamCnt := 0, valid := false, weak := false, score := 0, keff := min k ((g.nslot - 2) / 2)
    origin := p0, next := p0, last := p0 - d.pitch, lineNo := n0, fired := 0, kp := 0, lLast := n0 - 1, pLast := p0 - d.pitch
    resumed := false, newLine := false, dup := false, ovl := 0, ovlDone := 0, grd := 0, corr := .idle
    reached := [], fullRaised := 0, takeM0 := true, endM0 := d.progM0 || h.endM0, revDone := false, vtgt := nword d.paceSpeed }
  (d.updMot 0 fun x => { x with next := none }).agePrevious.updPix fun x => { x with hist := [] }

/-- What a start sets of the Hinge's grid and what it keeps (02 R33). -/
theorem startView_opened (g : Geom) (p0 : Int) (n0 : Word) (d : Dev) : startView (opened g p0 n0 d) =
    ((.run, p0, p0, n0, 0, 0, d.hng.reason, false, d.hng.streams, d.hng.voff, d.hng.hoff), d.ctx, d.mem) := rfl

/-- A segment that does not fit is marked as a run starts (13 R306). -/
def warned (P : Part) (d : Dev) : Dev := if d.assembling P ∧ bit (d.reg 0x70000) 0 then d.cfgErr else d

/-- The members are told that a run starts (13 R305). -/
def toldStart (P : Part) (g : Geom) (n0 : Word) (d : Dev) : Dev :=
  if d.tellsMembers P then (d.stageMsg 2 0x13 0 [n0, nword (g.pstr % 2 ^ 18)] false).updCas fun c => { c with sentStart := true } else d

/-- The members are told that a run stops (13 R305). -/
def toldStop (P : Part) (d : Dev) : Dev := if d.tellsMembers P then d.stageMsg 2 0x14 0 [] false else d

theorem runView_warned (P : Part) (d : Dev) : runView (warned P d) = runView d := runView_ite rfl

theorem runView_toldStart (P : Part) (g : Geom) (n0 : Word) (d : Dev) : runView (toldStart P g n0 d) = runView d :=
  runView_ite (runView_stageMsg _ _ _ _ _ _)

theorem runView_toldStop (P : Part) (d : Dev) : runView (toldStop P d) = runView d := runView_ite (runView_stageMsg _ _ _ _ _ _)

/-- A run started (02 R33). -/
theorem lineStart_effect (P : Part) (d : Dev) (p0 : Int) (n0 : Word) (h : ¬ (d.hng.st ≠ .off ∨ d.slaved P ∨ d.cas.pair = .standby ∨ d.cas.pair = .takeover)) :
    (d.lineStart P p0 n0).1 = true ∧ startView (d.lineStart P p0 n0).2 =
      ((.run, p0, p0, n0, 0, 0, d.hng.reason, false, d.hng.streams, d.hng.voff, d.hng.hoff), d.ctx, d.mem) := by
  have hg : ((d.startGeom P).hng, (d.startGeom P).ctx, (d.startGeom P).mem) = (d.hng, d.ctx, d.mem) := runView_startGeom P d
  simp only [Prod.mk.injEq] at hg
  obtain ⟨hh, hc, hm⟩ := hg
  have hl : d.lineStart P p0 n0 = (true, (toldStart P (d.newGeom P) n0 (warned P (opened (d.newGeom P) p0 n0 (d.startGeom P)))).noteReach) := by
    unfold Dev.lineStart toldStart warned opened
    rw [if_neg h]
  rw [hl]
  refine ⟨rfl, ?_⟩
  rw [startView_noteReach, startView_of (runView_toldStart P _ _ _), startView_of (runView_warned P _), startView_opened, hh, hc, hm]

/-- A run stopped (02 "Hinge transitions"). -/
theorem lineStop_effect (P : Part) (d : Dev) (h : d.hng.st ≠ .off) : let t := (d.lineStop P).2
    (d.lineStop P).1 = true ∧ t.ctx = d.ctx ∧ t.mem = d.mem ∧
    ∃ owns, t.hng = { d.hng with st := .off, vtgt := 0, kp := 0, corr := .idle, reached := [], newLine := false, dup := false, ownsM0 := owns } := by
  intro t
  obtain ⟨u, hu⟩ : ∃ u, u = d.updHng fun h => { h with st := .off, vtgt := 0, kp := 0, corr := .idle, reached := [], newLine := false, dup := false } :=
    ⟨_, rfl⟩
  have hl : d.lineStop P = (true, (toldStop P ((u.unpin P).freeOverlaps).geometryApply).releaseM0) := by
    rw [hu]
    exact if_neg h
  have he : runView (toldStop P ((u.unpin P).freeOverlaps).geometryApply) = runView u := by
    rw [runView_toldStop, runView_geometryApply, runView_freeOverlaps, runView_unpin]
  have ht : t = (toldStop P ((u.unpin P).freeOverlaps).geometryApply).releaseM0 := congrArg Prod.snd hl
  generalize toldStop P ((u.unpin P).freeOverlaps).geometryApply = e at he hl ht
  obtain ⟨hh, hc, hm⟩ : e.hng = u.hng ∧ e.ctx = u.ctx ∧ e.mem = u.mem := by
    simp only [runView, Prod.mk.injEq] at he
    exact he
  refine ⟨by rw [hl], ?_, ?_, e.releaseM0.hng.ownsM0, ?_⟩
  · rw [ht, releaseM0_eq, hc, hu]
    rfl
  · rw [ht, releaseM0_eq, hm, hu]
    rfl
  · rw [ht, releaseM0_eq, hh, hu]
    rfl

/-- A freeze from RUN (02 R48 to R53). -/
theorem freeze_run (P : Part) (d : Dev) (r : Reason) (h : d.hng.st = .run) : let t := d.freeze P r
    t.ctx = d.ctx ∧ t.mem = d.mem ∧ t.hng.st = .freezing ∧ t.hng.reason = r ∧ t.hng.vtgt = 0 ∧ t.hng.lLast = d.hng.lineNo - 1 ∧
    t.hng.next = d.hng.next ∧ t.hng.streams = d.hng.streams := by
  have hu (u : Dev) : (u.unpin P).hng = u.hng ∧ (u.unpin P).ctx = u.ctx ∧ (u.unpin P).mem = u.mem := by
    have hr := runView_unpin P u
    simp only [runView, Prod.mk.injEq] at hr
    exact hr
  unfold Dev.freeze
  dsimp only
  rw [if_pos h, (hu _).1, (hu _).2.1, (hu _).2.2]
  exact ⟨rfl, rfl, rfl, rfl, rfl, rfl, rfl, rfl⟩

section Acts

variable {i : Instr} {s : State} {c : CtxId} (h : s.issues c)

include h

/-- A device instruction that acts on what no context and no byte of memory sees, as the statements say it. -/
theorem devInsn_acts {f : Part → Dev → Bool × Dev} {z : Bool} (hi : exec i s = act (fun P d => d.devInsn P c (f P)) s)
    (hz : (f s.part (s.issued c)).1 = z) (hctx : (f s.part (s.issued c)).2.ctx = (s.issued c).ctx)
    (hmem : (f s.part (s.issued c)).2.mem = (s.issued c).mem) : ∃ t, Completes i s t ∧
      t.ctx = upd (s.issued c).ctx c (fun y => { y with z := z, pc := y.pc + 4 }) ∧ sameBytes s.dev t ∧
      t.hng = (f s.part (s.issued c)).2.hng ∧ t.kl = (f s.part (s.issued c)).2.kl := by
  refine ⟨_, devInsn_completes h hi (Prod.ext hz rfl), ?_, fun a => ?_, rfl, rfl⟩
  · rw [(updCtx_fields _ c _).1, hctx]
  · show Dev.byte (f s.part (s.issued c)).2 a = _
    rw [Dev.byte, hmem]
    exact issued_sameBytes s c a

end Acts

/-- SEAM RESUME (02 R55). -/
theorem seamResume_eq (d : Dev) :
    ((d.hng.st = .freezing ∨ d.hng.st = .frozenWait) ∧ (d.hng.reason = .stall ∨ d.hng.reason = .soft) →
      d.seamResume = (true, d.updHng fun y => { y with resumed := true })) ∧
    (¬ ((d.hng.st = .freezing ∨ d.hng.st = .frozenWait) ∧ (d.hng.reason = .stall ∨ d.hng.reason = .soft)) → d.seamResume = (false, d)) :=
  ⟨fun h => if_pos h, fun h => if_neg h⟩

/-- A message of three words put up for the members, where their link takes it whole (13 R305). -/
theorem stageMsg_three (d : Dev) (mt : Nat) (a b : Word) (hcap : 12 ≤ d.payCap 2) : ∃ fr, (d.stageMsg 2 mt a [b] false).kl.staged = d.kl.staged ++ [fr] ∧
    fr.link = 2 ∧ fr.vc = 64 ∧ fr.typ = 2 ∧ fr.payload = [place mt 0 ||| place 4 16, a, b].flatMap wordBytes := by
  refine ⟨messageFrame d 2 mt a [b] false, ?_, rfl, rfl, rfl, rfl⟩
  rw [(stageMsg_fields d 2 mt a [b] false).2]
  congr 1
  exact if_pos (.inl hcap)

/-- SEAM RESET without members to tell (07 R170). -/
theorem loadOffsets_alone {P : Part} {d : Dev} (v h : Byte) (ht : d.tellsMembers P = false) :
    d.loadOffsets P v h = d.updHng fun x => { x with voff := v, hoff := h } := if_neg (by
  show ¬ d.tellsMembers P = true
  rw [ht]
  decide)

/-- SEAM RESET with members to tell (13 R305). -/
theorem loadOffsets_told {P : Part} {d : Dev} (v h : Byte) (ht : d.tellsMembers P = true) :
    d.loadOffsets P v h = (d.updHng fun x => { x with voff := v, hoff := h }).stageMsg 2 0x15 0 [v.setWidth 32 ||| (h.setWidth 32 <<< 8)] false := if_pos ht

/-- An issue leaves what LINE and SEAM ask of the device (02 R33, 13 R305). -/
theorem issued_line (s : State) (c : CtxId) : (s.issued c).hng = s.dev.hng ∧ (s.issued c).slaved s.part = s.dev.slaved s.part ∧
    (s.issued c).cas = s.dev.cas ∧ (s.issued c).hngCtl = s.dev.hngCtl ∧ (s.issued c).tellsMembers s.part = s.dev.tellsMembers s.part ∧
    (s.issued c).kl = s.dev.kl ∧ (s.issued c).payCap 2 = s.dev.payCap 2 := by
  rw [issued_frame]
  exact ⟨rfl, rfl, rfl, rfl, rfl, rfl, rfl⟩

/-- Settles O14: each form acts on the Hinge where its state lets it, and on nothing where not. -/
theorem lineAndSeamInstructions : Obligations.LineAndSeamInstructions := by
  intro s c gd ga gb h x p0 hg at_ nothing
  obtain ⟨hh, hsl, hcas, hctl, htell, hkl, hcap⟩ := issued_line s c
  have hp0 : ((s.issued c).ctx[c]).pair48 gd ga = p0.toInt := by rw [Ctx.pair48, issued_rd, issued_rd, Moves.pos48_eq]
  have hgb : ((s.issued c).ctx[c]).rd gb = x.rd gb := issued_rd s c gb
  refine ⟨fun ho hs hp1 hp2 => ?_, fun hn => ?_, fun ho => ?_, fun ho => ?_, fun hr he => ?_, fun hn => ?_, fun hst hre => ?_, fun hn => ?_,
    fun ht => ?_, fun ht hc => ?_⟩
  · have hno : ¬ ((s.issued c).hng.st ≠ .off ∨ (s.issued c).slaved s.part = true ∨ (s.issued c).cas.pair = .standby ∨ (s.issued c).cas.pair = .takeover) := by
      rw [hh, hsl, hcas, hs]
      rintro (h1 | h1 | h1 | h1)
      · exact h1 ho
      · exact Bool.false_ne_true h1
      · exact hp1 h1
      · exact hp2 h1
    obtain ⟨hz, hv⟩ := lineStart_effect s.part (s.issued c) p0.toInt (x.rd gb) hno
    simp only [startView, gridOf, Prod.mk.injEq] at hv
    obtain ⟨⟨h1, h2, h3, h4, h5, h6, h7, h8, h9, h10, h11⟩, hctx, hmem⟩ := hv
    obtain ⟨t, ht, hat, hb, hth, -⟩ := devInsn_acts h (i := .lineStart c gd ga gb) (z := true)
      (f := fun P d => d.lineStart P ((d.ctx[c]).pair48 gd ga) ((d.ctx[c]).rd gb)) rfl
      (by rw [hp0, hgb]; exact hz) (by rw [hp0, hgb]; exact hctx) (by rw [hp0, hgb]; exact hmem)
    rw [hp0, hgb] at hth
    rw [hh] at h7 h9 h10 h11
    rw [← hth] at h1 h2 h3 h4 h5 h6 h7 h8 h9 h10 h11
    exact ⟨t, ht, hat, hb, h1, h2, h3, h4, h5, h6, h7, h8, h9, h10, h11⟩
  · exact devInsn_completes h (f := fun P d => d.lineStart P ((d.ctx[c]).pair48 gd ga) ((d.ctx[c]).rd gb)) rfl (if_pos (by rw [hh, hsl, hcas]; exact hn))
  · obtain ⟨hz, hctx, hmem, owns, hv⟩ := lineStop_effect s.part (s.issued c) (by rw [hh]; exact ho)
    obtain ⟨t, ht, hat, hb, hth, -⟩ := devInsn_acts h (i := .lineStop c) (f := fun P d => d.lineStop P) rfl hz hctx hmem
    rw [hv, hh] at hth
    exact ⟨t, ht, hat, hb, by rw [hth], by rw [hth], by rw [hth], by rw [hth], by rw [hth], by rw [hth]⟩
  · exact devInsn_completes h (f := fun P d => d.lineStop P) rfl (if_pos (by rw [hh]; exact ho))
  · have hf : (s.issued c).seamFreeze s.part = (true, (s.issued c).freeze s.part .soft) := if_pos ⟨by rw [hh]; exact hr, by rw [hctl]; exact he⟩
    obtain ⟨hctx, hmem, h1, h2, h3, h4, h5, h6⟩ := freeze_run s.part (s.issued c) .soft (by rw [hh]; exact hr)
    obtain ⟨t, ht, hat, hb, hth, -⟩ := devInsn_acts h (i := .seamFreeze c) (f := fun P d => d.seamFreeze P) (z := true) rfl
      (by rw [hf]) (by rw [hf]; exact hctx) (by rw [hf]; exact hmem)
    rw [hf] at hth
    rw [hh] at h4 h5 h6
    exact ⟨t, ht, hat, hb, by rw [hth]; exact h1, by rw [hth]; exact h2, by rw [hth]; exact h3, by rw [hth]; exact h4, by rw [hth]; exact h5,
      by rw [hth]; exact h6⟩
  · refine devInsn_completes h (f := fun P d => d.seamFreeze P) rfl (if_neg ?_)
    rw [hh, hctl]
    rintro ⟨h1, h2⟩
    rcases hn with hn | hn
    · exact hn h1
    · rw [hn] at h2
      exact Bool.false_ne_true h2
  · exact devInsn_completes h (f := fun _ d => d.seamResume) rfl ((seamResume_eq _).1 (by rw [hh]; exact ⟨hst, hre⟩))
  · exact devInsn_completes h (f := fun _ d => d.seamResume) rfl ((seamResume_eq _).2 (by rw [hh]; exact hn))
  · exact devInsn_completes h (f := fun P d => (true, d.loadOffsets P 0 0)) rfl (by rw [loadOffsets_alone 0 0 (htell.trans ht)])
  · have hl := loadOffsets_told (P := s.part) (d := s.issued c) 0 0 (htell.trans ht)
    obtain ⟨u, hu⟩ : ∃ u, u = (s.issued c).updHng fun x => { x with voff := 0, hoff := 0 } := ⟨_, rfl⟩
    have hu1 : u.hng = { s.dev.hng with voff := 0, hoff := 0 } := by
      rw [hu, ← hh]
      rfl
    have hu2 : u.kl = s.dev.kl := by
      rw [hu, ← hkl]
      rfl
    obtain ⟨fr, hst, hfr⟩ := stageMsg_three u 0x15 0 0 (by rw [Dev.payCap, hu2]; exact hc)
    have hm := (stageMsg_fields u 2 0x15 0 [0] false).1
    rw [← hu] at hl
    replace hl : (s.issued c).loadOffsets s.part 0 0 = u.stageMsg 2 0x15 0 [0] false := hl
    generalize u.stageMsg 2 0x15 0 [0] false = v at hl hst hm
    obtain ⟨t, htc, hat, hb, hth, htk⟩ := devInsn_acts h (i := .seamReset c) (f := fun P d => (true, d.loadOffsets P 0 0)) (z := true) rfl rfl
      (by rw [hl, hm, hu]; rfl) (by rw [hl, hm, hu]; rfl)
    refine ⟨t, fr, htc, hat, hb, ?_, ?_, hfr⟩
    · rw [hth, hl, hm, hu1]
    · rw [htk, hl, hst, hu2]

end Sys2Proof.Proofs.LineControl
end

section
/-!
ARM, XFER, DRING, the HKREQ forms, HKRD and KEY (04 R97, R112, R113, 06 R142, 09 R205, R216, 11 R256, R260, R261, 12 R283).
-/
namespace Sys2Proof.Proofs.Units

open Sys2Proof.Machine Sys2Proof.Laws Sys2Proof.Proofs.Reads Sys2Proof.Proofs.PlainWrites Sys2Proof.Proofs.HkSequence Sys2Proof.Proofs.HkConversion Sys2Proof.Proofs.Alu Sys2Proof.Proofs.Control

/-! ### Starts and rings of a channel -/

/-- The device in which a start in register mode is told and a bound line is in the list again (09 R205). -/
def requeued (d : Dev) (n : DmaId) (o : Nat) (v : Word) : Dev := (d.setReg o v).dmaRequeue n

/-- A register told to a channel is not its configuration. -/
theorem requeued_paced (d : Dev) (n : DmaId) {o : Nat} (v : Word) (ho : o < 0x88000) : (requeued d n o v).paced n = d.paced n := by
  show bit ((d.setReg o v).reg (0x88000 + 0x40 * n.val)) 0 = _
  rw [reg_setReg, if_neg (by omega)]
  rfl

/-- A start in chain mode (09 R205). -/
theorem dmaStartChain_effect (d : Dev) (n : DmaId) (a : Word) : let t := d.dmaStartChain n a
    t.ctx = d.ctx ∧ t.mem = d.mem ∧ (t.dma[n]).chain = true ∧ (t.dma[n]).nextAt = a &&& 0xFFFFFFE0 ∧ (t.dma[n]).done = 0 ∧ (t.dma[n]).desc = none ∧
    (t.dma[n]).st = (if d.paced n then .lineWait else .fetch) ∧ ∀ j : DmaId, j ≠ n → t.dma[j] = d.dma[j] := by
  intro t
  have hp := requeued_paced d n (a &&& 0xFFFFFFE0) (o := dmaOff n 0x14) (by rw [dmaOff]; omega)
  have hn (f : Chan → Chan) : ((requeued d n (dmaOff n 0x14) (a &&& 0xFFFFFFE0)).updDma n f).dma[n] = f _ := upd_get_self _ n f
  have ho (f : Chan → Chan) (j : DmaId) (hj : j ≠ n) : ((requeued d n (dmaOff n 0x14) (a &&& 0xFFFFFFE0)).updDma n f).dma[j] = d.dma[j] :=
    (upd_get_ne _ n j f (Ne.symm hj)).trans (upd_get_ne _ n j _ (Ne.symm hj))
  refine ⟨rfl, rfl, congrArg Chan.chain (hn _), congrArg Chan.nextAt (hn _), congrArg Chan.done (hn _), congrArg Chan.desc (hn _), ?_, ho _⟩
  rw [← hp]
  exact congrArg Chan.st (hn _)

/-- Bit 0 set. -/
theorem putBit_zero (w : Word) : putBit w 0 true = w ||| 1 := by
  have hm : ~~~mask 0 1 = ~~~(1 : Word) := by decide
  have hf : flag true 0 = (1 : Word) := by decide
  rw [putBit, hm, hf]
  ext i hi
  simp only [BitVec.getElem_or, BitVec.getElem_and, BitVec.getElem_not]
  cases w[i] <;> cases (1 : Word)[i] <;> rfl

/-- A start in register mode of a PACED channel waits for a line (09 R205). -/
theorem dmaStartReg_paced (P : Part) (d : Dev) (n : DmaId) (hp : d.paced n = true) : let t := d.dmaStartReg P n
    (t.dma[n]).st = .lineWait ∧ (t.dma[n]).chain = false ∧ (t.dma[n]).desc = none ∧ t.reg (dmaOff n 0) = d.reg (dmaOff n 0) ||| 1 ∧
    ∀ j : DmaId, j ≠ n → t.dma[j] = d.dma[j] := by
  intro t
  obtain ⟨u, hu⟩ : ∃ u, u = (requeued d n (dmaOff n 0) (putBit (d.dmaReg n 0) 0 true)).updDma n fun k =>
      { k with chain := false, atTail := false, cur := 0, goClear := false, reread := false, ringLat := false } := ⟨_, rfl⟩
  have hup : u.paced n = true := by
    rw [hu]
    exact (requeued_paced d n _ (by rw [dmaOff]; omega)).trans hp
  have ht : t = u.updDma n fun k => { k with st := .lineWait, desc := none } := by
    rw [hu] at hup ⊢
    exact if_pos hup
  have hun : (u.dma[n]).chain = false := by
    rw [hu]
    exact congrArg Chan.chain (upd_get_self _ n _)
  have htn : t.dma[n] = { u.dma[n] with st := .lineWait, desc := none } := by
    rw [ht]
    exact upd_get_self _ n _
  refine ⟨by rw [htn], by rw [htn, hun], by rw [htn], ?_, fun j hj => ?_⟩
  · rw [ht, hu]
    show (d.setReg (dmaOff n 0) (putBit (d.dmaReg n 0) 0 true)).reg (dmaOff n 0) = _
    rw [reg_setReg, if_pos rfl, putBit_zero]
    rfl
  · rw [ht, hu]
    exact (upd_get_ne _ n j _ (Ne.symm hj)).trans ((upd_get_ne _ n j _ (Ne.symm hj)).trans (upd_get_ne _ n j _ (Ne.symm hj)))

/-- A channel rung in a cycle, frozen or not (09 R216). -/
def rung (frozen : Bool) (cycle : Nat) (k : Chan) : Chan :=
  match k.st with
  | .fetch => if frozen then { k with ringLat := true } else k
  | .run => { k with ringLat := true }
  | .tailWait => { k with reread := true, askAt := if k.reread then k.askAt else cycle }
  | .idle => if k.atTail then { k with st := .tailWait, reread := true, askAt := cycle } else k
  | .lineWait => k

/-- A ring changes its channel alone (09 R216). -/
theorem dmaRing_eq (d : Dev) (n : DmaId) : d.dmaRing n = d.updDma n (rung (d.frozen (.dma n)) d.cycle) := by
  unfold Dev.dmaRing rung
  rfl

section Rung

variable (frozen : Bool) (cycle : Nat) (k : Chan)

/-- A ring that finds nothing to do (09 R216). -/
theorem rung_idle (h : (k.st = .fetch ∧ frozen = false) ∨ k.st = .lineWait ∨ (k.st = .idle ∧ k.atTail = false)) : rung frozen cycle k = k := by
  unfold rung
  rcases h with ⟨h, hf⟩ | h | ⟨h, ha⟩
  · simp only [h, hf, Bool.false_eq_true, if_false]
  · simp only [h]
  · simp only [h, ha, Bool.false_eq_true, if_false]

/-- A ring kept for the tail of the chain (09 R216). -/
theorem rung_kept (h : k.st = .run ∨ (k.st = .fetch ∧ frozen = true)) : rung frozen cycle k = { k with ringLat := true } := by
  unfold rung
  rcases h with h | ⟨h, hf⟩
  · simp only [h]
  · simp only [h, hf, if_true]

/-- A ring at the tail has it read again (09 R215, R216). -/
theorem rung_tailWait (h : k.st = .tailWait) : rung frozen cycle k = { k with reread := true, askAt := if k.reread then k.askAt else cycle } := by
  unfold rung
  simp only [h]

/-- A ring of a channel that has ended its chain has the tail read again (09 R216). -/
theorem rung_ended (h : k.st = .idle) (ha : k.atTail = true) : rung frozen cycle k = { k with st := .tailWait, reread := true, askAt := cycle } := by
  unfold rung
  simp only [h, ha, if_true]

end Rung

/-! ### The housekeeping front end -/

/-- A place taken in a crossing leaves all but the crossing and the free choices (01 R25). -/
theorem cross_eq (d : Dev) (k : Fin 9) : d.cross k = { d with free := (d.cross k).free, fifo := (d.cross k).fifo } := rfl

/-- With a conversion running, or with none waiting and the sequence at rest, nothing starts (11 R257, R261). -/
theorem hkNext_quiet {d : Dev} (hs : d.hk.conv ≠ none ∨ ((d.hk.seq = .wait ∨ d.hk.seq = .idle) ∧ ∀ v : Fin 2, d.hk.slot[v] = none)) : d.hkNext = d := by
  cases hc : d.hk.conv with
  | some k => exact hkNext_busy hc
  | none =>
    obtain hn | ⟨hs, hv⟩ := hs
    · exact absurd hc hn
    · exact hkNext_rest hc (arrived_none (hv 0)) (arrived_none (hv 1)) hs

/-- A stop of the sequence where nothing starts after it (11 R256). -/
theorem hkStop_quiet {d : Dev} {q : HkSeq} (hq : (d.hk.seq = .run ∧ q = .stopping ∧ d.hk.conv ≠ none) ∨
    ((d.hk.seq = .wait ∨ d.hk.seq = .idle) ∧ q = .idle ∧ (d.hk.conv ≠ none ∨ ∀ v : Fin 2, d.hk.slot[v] = none))) :
    d.hkStop = d.updHk fun y => { y with seq := q } := by
  have hu : d.hkStop = (d.updHk fun y => { y with seq := q }).hkNext := by
    unfold Dev.hkStop Dev.updHk
    obtain ⟨h, rfl, -⟩ | ⟨h | h, rfl, -⟩ := hq
    · simp only [h]
    · simp only [h]
    · have he : { d.hk with seq := .idle } = d.hk := by rw [← h]
      simp only [he, h]
  rw [hu]
  refine hkNext_quiet ?_
  obtain ⟨-, -, hc⟩ | ⟨-, rfl, hc | hv⟩ := hq
  · exact .inl hc
  · exact .inl hc
  · exact .inr ⟨.inr rfl, hv⟩

/-- A start of the idle sequence (11 R256). -/
theorem hkStart_idle {d : Dev} (hs : d.hk.seq = .idle) : let t := d.hkStart.2
    d.hkStart.1 = true ∧ t = { d with hk := t.hk } ∧ t.hk.seq = .run ∧ t.hk.res = d.hk.res := by
  intro t
  obtain ⟨u, hu⟩ : ∃ u, u = d.updHk fun x => { x with seq := .run, at_ := 0, redo := false, due := false } := ⟨_, rfl⟩
  have hh : d.hkStart = (true, u.hkNext) := by
    rw [hu]
    exact if_pos hs
  have ht : t = u.hkNext := congrArg Prod.snd hh
  obtain ⟨hd, hres, -, -, -, -, hseq⟩ := started_hkNext u
  rw [hh, ht]
  refine ⟨rfl, ?_, ?_, ?_⟩
  · rw [hd, hu]
    rfl
  · rw [hseq (by rw [hu]; nofun), hu]
    rfl
  · rw [hres, hu]
    rfl

/-- A read of a result: the word at the start of the cycle, its companion latched, and FRESH taken by a read that publishes nothing and peeks at nothing (11 R260). -/
theorem hkRead_effect (d : Dev) (m : Master) (e : HkEnt) (peek : Bool) : let t := (d.hkRead m e peek).2
    (d.hkRead m e peek).1 = (d.resStart e).1 ∧ t.ctx = d.ctx ∧ t.mem = d.mem ∧ t.getLatch m (0xA0180 + 4 * e.val) = (d.resStart e).2 ∧
    t.hk.res[e] = if peek || (d.hk.wasAt == d.cycle && d.hk.pubs.contains e) then d.hk.res[e] else d.hk.res[e] &&& 0xBFFFFFFF := by
  have hl := getLatch_setLatch_self d m (d.resStart e).2 (hkAux_lt e)
  unfold Dev.hkRead
  dsimp only
  split
  · exact ⟨rfl, rfl, rfl, hl, rfl⟩
  · rw [resNote_eq]
    refine ⟨rfl, rfl, rfl, hl, ?_⟩
    rw [← putBit_fresh]
    exact Vector.getElem_set_self _

section Forms

variable {i : Instr} {s : State} {c : CtxId} (h : s.issues c)

include h

/-- A device instruction of a unit that the variant has (04 R110). -/
theorem unitInsn_completes {present : Part → Bool} {f : Part → Dev → Bool × Dev} {z : Bool} {t : Dev}
    (hi : exec i s = act (fun P d => d.unitInsn P c (present P) (f P)) s) (hp : present s.part = true) (hf : f s.part (s.issued c) = (z, t)) :
    Completes i s (t.updCtx c fun y => { y with z := z, pc := y.pc + 4 }) := by
  refine devInsn_completes h (f := f) (hi.trans ?_) hf
  unfold act Dev.unitInsn
  simp only [hp, if_true]

/-- An HKREQ on a part with the front end, where the crossing has room (01 R25, 04 R97). -/
theorem hkreq_completes {f : Part → Dev → Bool × Dev} {z : Bool} {t : Dev} (hi : exec i s = act (fun P d => d.hkreq P c (f P)) s)
    (hk : s.part.hkin ≠ 0) (hr : s.dev.crossRoom 4 = true) (hf : f s.part (s.issued c) = (z, t)) :
    Completes i s (t.updCtx c fun y => { y with z := z, pc := y.pc + 4 }) := by
  refine devInsn_completes h (f := f) (hi.trans ?_) hf
  unfold act Dev.hkreq Dev.unitInsn Dev.when
  simp only [hr, Bool.or_true, if_true, hk, ne_eq, not_false_eq_true, decide_true]

/-- A KEY where the crossing has room (01 R25, 04 R97). -/
theorem key_completes {k : Fin 8} (hr : s.dev.crossRoom 6 = true) : Completes (.key c k) s (Dev.keyBody s.part c k (s.issued c)) := by
  refine issue_completes h (b := fun P => Dev.keyBody P c k) ?_
  show execKey c k s = _
  unfold execKey act Dev.when
  simp only [hr, if_true]

end Forms

section Key

variable {d : Dev} {c : CtxId} {k : Fin 8}

/-- A KEY of a slot of another context is a violation (04 R113). -/
theorem keySend_other (hb : bit (d.slotReg k) 6 = true) (hn : d.slotCtx k ≠ c) : d.keySend c k = none := if_pos ⟨hb, hn⟩

variable (hb : bit (d.slotReg k) 6 = true → d.slotCtx k = c)

include hb

/-- A KEY that the watchdog takes (12 R283). -/
theorem keySend_in (hr : d.wdt.bRun = true) (hi : d.slotIn k = true) :
    d.keySend c k = some (true, d.updWdt fun w => { w with keys := w.keys ++ [k], lastKey := w.lastKey.set k (some d.stb) }) := by
  unfold Dev.keySend
  dsimp only
  rw [if_neg fun hv => hv.2 (hb hv.1), hr, hi]
  rfl

/-- A KEY that finds the watchdog stopped or its slot out (12 R283). -/
theorem keySend_out (hn : d.wdt.bRun = false ∨ d.slotIn k = false) : d.keySend c k = some (false, d) := by
  unfold Dev.keySend
  dsimp only
  rw [if_neg fun hv => hv.2 (hb hv.1), if_pos (by simpa using hn)]

end Key

/-- What an issue leaves of the units (04 R96). -/
theorem issued_units (s : State) (c : CtxId) : (s.issued c).port = s.dev.port ∧ (s.issued c).dma = s.dev.dma ∧ (s.issued c).hk = s.dev.hk ∧
    (s.issued c).wdt = s.dev.wdt ∧ (s.issued c).cycle = s.dev.cycle ∧ (s.issued c).stb = s.dev.stb ∧
    (∀ n, (s.issued c).frozen (.dma n) = s.dev.frozen (.dma n)) ∧ (∀ n, (s.issued c).paced n = s.dev.paced n) ∧
    (∀ o, (s.issued c).reg o = s.dev.reg o) := by
  rw [issued_frame]
  exact ⟨rfl, rfl, rfl, rfl, rfl, rfl, fun _ => rfl, fun _ => rfl, fun _ => rfl⟩

/-- A change of the caller alone after one that leaves contexts and memory (04 R96). -/
theorem done_frame {s : State} {c : CtxId} {t : Dev} {f : Ctx → Ctx} (hctx : t.ctx = (s.issued c).ctx) (hmem : t.mem = (s.issued c).mem) :
    (t.updCtx c f).ctx = ((s.issued c).updCtx c f).ctx ∧ sameBytes s.dev (t.updCtx c f) := by
  refine ⟨by rw [(updCtx_fields t c f).1, hctx, (updCtx_fields _ c f).1], fun a => ?_⟩
  show t.byte a = _
  rw [Dev.byte, hmem]
  exact issued_sameBytes s c a

/-- Settles O17: each form by what its unit does with it. -/
theorem unitInstructions : Obligations.UnitInstructions := by
  intro s c gd ga p b ch u e peek k h x done chan seen published ring
  obtain ⟨hport, hdma, hhk, hwdt, hcyc, hstb, hfro, hpac, hreg⟩ := issued_units s c
  have hrd : ((s.issued c).ctx[c]).rd ga = x.rd ga := issued_rd s c ga
  have hslot : (s.issued c).slotReg k = s.dev.slotReg k := hreg _
  have hctxk : (s.issued c).slotCtx k = s.dev.slotCtx k := by
    unfold Dev.slotCtx
    simp only [hslot]
  have hslotIn : (s.issued c).slotIn k = s.dev.slotIn k := by rw [Dev.slotIn, hslot, Dev.slotIn]
  have hidle (hi : chan.st = .idle) (hf : s.dev.frozen (.dma ch) = false) : (s.issued c).dmaIdle ch = true := by
    rw [Dev.dmaIdle, hdma, hfro, hf, Bool.not_false, Bool.and_true]
    exact beq_of_eq hi
  have rings {f : Chan → Chan} (hp : dmaPresent s.part ch = true) (hr : rung (s.dev.frozen (.dma ch)) s.dev.cycle chan = f chan) : ring f := by
    refine unitInsn_completes h (present := fun P => dmaPresent P ch) (f := fun _ d => (true, d.dmaRing ch)) rfl hp ?_
    have hu : (s.issued c).updDma ch (rung (s.dev.frozen (.dma ch)) s.dev.cycle) = (s.issued c).updDma ch f :=
      congrArg (fun v => { s.issued c with dma := v }) (upd_congr _ _ _ _ (by rw [hdma]; exact hr))
    rw [dmaRing_eq, hfro, hcyc, hu]
  have stops {q : HkSeq} (hk : s.part.hkin ≠ 0) (hr : s.dev.crossRoom 4 = true) (hq : (s.dev.hk.seq = .run ∧ q = .stopping ∧ s.dev.hk.conv ≠ none) ∨
      ((s.dev.hk.seq = .wait ∨ s.dev.hk.seq = .idle) ∧ q = .idle ∧ (s.dev.hk.conv ≠ none ∨ ∀ v : Fin 2, s.dev.hk.slot[v] = none))) :
      Completes (.hkreqStop c) s (done (((s.issued c).cross 4).updHk fun y => { y with seq := q }) true) := by
    have hz : ((s.issued c).cross 4).hkStop = ((s.issued c).cross 4).updHk fun y => { y with seq := q } := by
      refine hkStop_quiet ?_
      show ((s.issued c).hk.seq = .run ∧ q = .stopping ∧ (s.issued c).hk.conv ≠ none) ∨ (((s.issued c).hk.seq = .wait ∨ (s.issued c).hk.seq = .idle) ∧
        q = .idle ∧ ((s.issued c).hk.conv ≠ none ∨ ∀ v : Fin 2, (s.issued c).hk.slot[v] = none))
      rw [hhk]
      exact hq
    exact hkreq_completes h (f := fun _ d => (true, (d.cross 4).hkStop)) rfl hk hr (by rw [hz])
  refine ⟨fun hp => ?_, fun hp => ⟨fun hi hf ha => ?_, fun hn => ?_, fun hi hf ha => ⟨?_, fun hpd => ?_⟩, fun hr => ?_, fun hr => ?_, fun hr => ?_,
    fun hr ht => ?_⟩, fun hk => ⟨fun hr => ⟨fun hs => ?_, fun hs => ?_, fun hs => ?_, fun hs => ?_, fun hs hc => ?_, fun hs hc => ?_, fun hs hc => ?_⟩, ?_⟩,
    fun hr hb => ⟨fun hrun hin => ?_, fun hn => ?_⟩, fun hr hb hn => ?_⟩
  · have hz : (s.issued c).armPort p b = ((s.dev.port[p]).arm.isNone, (s.issued c).updPort p fun y => { y with arm := some b }) := by
      rw [Dev.armPort, hport]
    exact unitInsn_completes h (present := fun P => portPresent P p) (f := fun _ d => d.armPort p b) rfl hp hz
  · have hz : (s.issued c).dmaXfer s.part ch (((s.issued c).ctx[c]).rd ga) = (true, (s.issued c).dmaStartChain ch (x.rd ga)) := by
      rw [Dev.dmaXfer, if_pos (hidle hi hf), hrd, if_neg ha]
    have ht := unitInsn_completes h (present := fun P => dmaPresent P ch) (f := fun P d => d.dmaXfer P ch ((d.ctx[c]).rd ga)) (i := .xfer c ch ga) rfl hp hz
    obtain ⟨hctx, hmem, h1, h2, h3, h4, h5, h6⟩ := dmaStartChain_effect (s.issued c) ch (x.rd ga)
    obtain ⟨hf1, hf2⟩ := done_frame (f := fun y => { y with z := true, pc := y.pc + 4 }) hctx hmem
    refine ⟨_, ht, hf1, hf2, h1, h2, h3, h4, ?_, fun j hj => ?_⟩
    · rw [← hpac]
      exact h5
    · rw [← hdma]
      exact h6 j hj
  · refine unitInsn_completes h (present := fun P => dmaPresent P ch) (f := fun P d => d.dmaXfer P ch ((d.ctx[c]).rd ga)) rfl hp ?_
    refine if_neg ?_
    rw [Dev.dmaIdle, hdma, hfro, Bool.and_eq_true, beq_iff_eq, Bool.not_eq_true']
    rintro ⟨h1, h2⟩
    rcases hn with hn | hn
    · exact hn h1
    · rw [hn] at h2
      exact Bool.false_ne_true h2.symm
  · refine unitInsn_completes h (present := fun P => dmaPresent P ch) (f := fun P d => d.dmaXfer P ch ((d.ctx[c]).rd ga)) rfl hp ?_
    rw [Dev.dmaXfer, if_pos (hidle hi hf), hrd, if_pos ha]
  · obtain ⟨h1, h2, h3, h4, h5⟩ := dmaStartReg_paced s.part (s.issued c) ch ((hpac ch).trans hpd)
    exact ⟨h1, h2, h3, by rw [← hreg]; exact h4, fun j hj => by rw [← hdma]; exact h5 j hj⟩
  · exact rings hp (rung_idle _ _ _ hr)
  · exact rings hp (rung_kept _ _ _ hr)
  · exact rings hp (rung_tailWait _ _ _ hr)
  · exact rings hp (rung_ended _ _ _ hr ht)
  · have hs4 : ((s.issued c).cross 4).hk.seq = .idle := by
      show (s.issued c).hk.seq = _
      rw [hhk, hs]
    obtain ⟨hz, hd, hq, hres⟩ := hkStart_idle hs4
    have hstart : (s.issued c).hkStart.1 = true := by
      rw [Dev.hkStart, if_pos (by rw [hhk]; exact hs)]
    have ht := hkreq_completes h (f := fun _ d => if d.hkStart.1 then (d.cross 4).hkStart else d.hkStart) (i := .hkreqSeq c) rfl hk hr
      ((if_pos hstart).trans (Prod.ext hz rfl))
    obtain ⟨hf1, hf2⟩ := done_frame (c := c) (f := fun y => { y with z := true, pc := y.pc + 4 }) (t := ((s.issued c).cross 4).hkStart.2)
      (by rw [hd]; rfl) (by rw [hd]; rfl)
    refine ⟨_, ht, hf1, hf2, hq, hres.trans ?_⟩
    show (s.issued c).hk.res = _
    rw [hhk]
  · have hz : (s.issued c).hkStart = (false, s.issued c) := if_neg (by rw [hhk]; exact hs)
    refine hkreq_completes h (f := fun _ d => if d.hkStart.1 then (d.cross 4).hkStart else d.hkStart) rfl hk hr ?_
    rw [hz]
    rfl
  · refine hkreq_completes h (f := fun _ d => d.hkUrgent u e) rfl hk hr (if_pos ?_)
    rw [hhk, hs]
    rfl
  · refine hkreq_completes h (f := fun _ d => d.hkUrgent u e) rfl hk hr (if_neg ?_)
    rw [hhk, Option.isNone_iff_eq_none]
    exact hs
  · exact stops hk hr (.inl ⟨hs, rfl, hc⟩)
  · exact stops hk hr (.inr ⟨.inl hs, rfl, hc⟩)
  · have ht := stops hk hr (.inr ⟨.inr hs, rfl, hc⟩)
    have hq : ((s.issued c).cross 4).updHk (fun y => { y with seq := .idle }) = (s.issued c).cross 4 := by
      have hy : { (s.issued c).hk with seq := .idle } = (s.issued c).hk := by
        rw [hhk, ← hs]
      exact congrArg (fun y => { (s.issued c).cross 4 with hk := y }) hy
    rw [hq] at ht
    exact ht
  · obtain ⟨hv, hctx, hmem, hlat, hres⟩ := hkRead_effect (s.issued c) (.ctx c) e peek
    have ht := issue_completes h (i := .hkrd c gd e peek) (b := fun _ => Dev.hkrdBody c gd e peek)
      (show execHkrd c gd e peek s = _ by unfold execHkrd act; simp only [hk, if_false])
    have hsn : (s.issued c).resStart e = seen := by
      rw [Dev.resStart, hhk, hcyc]
    rw [hsn] at hv hlat
    rw [hhk, hcyc] at hres
    rw [Dev.hkrdBody, Dev.devDone, updCtx_updCtx, hv] at ht
    obtain ⟨hf1, hf2⟩ := done_frame (f := fun y => { y.wr gd seen.1 with z := bit seen.1 31 && bit seen.1 30, pc := (y.wr gd seen.1).pc + 4 }) hctx hmem
    refine ⟨_, ht, hf2, hf1.trans ?_, hres, hlat⟩
    rw [(updCtx_fields _ c _).1]
    exact upd_congr _ _ _ _ (by rw [(wr_fields _ gd seen.1).1]; rfl)
  · have ht := key_completes h (k := k) hr
    rw [Dev.keyBody, keySend_in (by rw [hslot, hctxk]; exact hb) (by rw [hwdt]; exact hrun) (by rw [hslotIn]; exact hin), hstb] at ht
    exact ht
  · have ht := key_completes h (k := k) hr
    rw [Dev.keyBody, keySend_out (by rw [hslot, hctxk]; exact hb) (by rw [hwdt, hslotIn]; exact hn)] at ht
    exact ht
  · have ht := key_completes h (k := k) hr
    rw [Dev.keyBody, keySend_other (by rw [hslot]; exact hb) (by rw [hctxk]; exact hn)] at ht
    obtain ⟨a, n, -, hv⟩ := violate_completes ht
    exact ⟨a, n, hv⟩

end Sys2Proof.Proofs.Units
end

section
/-!
Loads, stores and atomics: their issue, a load's way home and a store's drain (01 R17, R22, R398, R399, 03 R66, R75, R77, R85 to R88, 04 R99, R100, 14 R341, 15 R356).
-/
namespace Sys2Proof.Proofs.Accesses

open Sys2Proof.Machine Sys2Proof.Laws Sys2Proof.Proofs.Interconnect Sys2Proof.Proofs.Freezes Sys2Proof.Proofs.Alu Sys2Proof.Proofs.Control

/-- A word cut to its low bytes (04 R99). -/
theorem lowWord_eq {n : Nat} (v : Word) (hn : n = 4 ∨ n = 2 ∨ n = 1) : lowWord v n = v &&& BitVec.ofNat 32 (2 ^ (8 * n) - 1) := by
  rcases hn with rfl | rfl | rfl
  · exact (BitVec.and_allOnes (x := v)).symm
  · rfl
  · rfl

/-! ### Issue of a load -/

section Load

variable {i : Instr} {s : State} {c : CtxId} {gd ga : Reg} {imm : Imm18} {n : Nat} {insn : Word} (h : s.issues c)
  (hi : exec i s = act (fun P d => d.load P c gd ga imm n insn) s)
  (hk : s.dev.accessCause s.part c ((s.dev.ctx[c]).addr18 ga imm).toNat n false = none)

include h hi hk

/-- A load of memory that may go ahead comes to its body (03 R86). -/
theorem load_comes (hr : s.dev.loadReady s.part c ((s.dev.ctx[c]).addr18 ga imm).toNat n = true) :
    Completes i s (Dev.loadBody s.part c gd ((s.dev.ctx[c]).addr18 ga imm) n insn (s.issued c)) ∧
    (s.issued c).checkedCause s.part c ((s.dev.ctx[c]).addr18 ga imm).toNat n false = none := by
  refine ⟨?_, (issues_checkedCause h _ n false).2.trans hk⟩
  rw [Completes, hi, act, Dev.load, issueFor_of s c _ _ _ _ h hr]

/-- A load that nothing in its own buffer overlaps asks for its port (03 R66). -/
theorem load_requests (hm : regionOf s.part ((s.dev.ctx[c]).addr18 ga imm).toNat ≠ .mmio)
    (hf : (s.dev.ctx[c]).forward ((s.dev.ctx[c]).addr18 ga imm).toNat n = none) :
    Completes i s { (s.issued c).updCtx c fun x => { x with load := some ⟨(s.dev.ctx[c]).addr18 ga imm, n, gd, insn, none⟩ } with
      reqs := s.dev.reqs ++ [⟨portOf (regionOf s.part ((s.dev.ctx[c]).addr18 ga imm).toNat), .ctx c, s.dev.cycle⟩] } := by
  have hreqs : (s.issued c).reqs = s.dev.reqs ∧ (s.issued c).cycle = s.dev.cycle := by simp
  have hfi : ((s.issued c).ctx[c]).forward ((s.dev.ctx[c]).addr18 ga imm).toNat n = none := by
    rw [issued_self]
    exact hf
  obtain ⟨hb, hc⟩ := load_comes h hi hk (by rw [Dev.loadReady, if_neg hm, hf]; exact Bool.or_true _)
  rw [Dev.loadBody] at hb
  dsimp only at hb
  rw [hc, if_neg hm, hfi, hreqs.1, hreqs.2] at hb
  exact hb

/-- A load that its own buffer holds whole takes its data there (03 R86). -/
theorem load_forwards {v : Word} (hm : regionOf s.part ((s.dev.ctx[c]).addr18 ga imm).toNat ≠ .mmio)
    (hf : (s.dev.ctx[c]).forward ((s.dev.ctx[c]).addr18 ga imm).toNat n = some (some v)) :
    Completes i s ((s.issued c).loadDone c gd (lowWord v n)) := by
  have hfi : ((s.issued c).ctx[c]).forward ((s.dev.ctx[c]).addr18 ga imm).toNat n = some (some v) := by
    rw [issued_self]
    exact hf
  obtain ⟨hb, hc⟩ := load_comes h hi hk (by rw [Dev.loadReady, if_neg hm, hf]; exact Bool.or_true _)
  rw [Dev.loadBody] at hb
  dsimp only at hb
  rw [hc, if_neg hm, hfi] at hb
  exact hb

/-- A load of a register that the port grants reads it at once (01 R17, 03 R88). -/
theorem load_register (hm : regionOf s.part ((s.dev.ctx[c]).addr18 ga imm).toNat = .mmio) (hs : (s.dev.ctx[c]).sbuf = [])
    (hg : s.dev.grantable s.part .mmio s.dev.cycle (.ctx c) = true) :
    let r := (s.issued c).mmioRead s.part (.ctx c) (((s.dev.ctx[c]).addr18 ga imm).toNat - 0x8000000)
    Completes i s (r.2.loadDone c gd r.1) := by
  have hask : s.dev.askedAt c = s.dev.cycle := by
    rw [Dev.askedAt, (issues_held h).1]
    rfl
  obtain ⟨hb, hc⟩ := load_comes h hi hk (by
    rw [Dev.loadReady, if_pos hm, hs, hask, hg]
    exact Bool.or_true _)
  rw [Dev.loadBody] at hb
  dsimp only at hb
  rw [hc, if_pos hm] at hb
  exact hb

end Load

/-- What a load finds in its own buffer (03 R86). -/
theorem forward_of_hit (x : Ctx) (a n : Nat) : (x.hit a n = none → x.forward a n = none) ∧
    (∀ e, x.hit a n = some e → e.addr.toNat = a → e.size = n → x.forward a n = some (some e.data)) := by
  unfold Ctx.hit Ctx.forward
  refine ⟨fun h => by rw [h], fun e h ha hn => ?_⟩
  rw [h]
  exact if_pos ⟨ha, hn⟩

/-! ### A load's way home -/

/-- Without a write burst in progress none ends (01 R17). -/
theorem dmaEnd_idle {P : Part} {d : Dev} (h : ∀ n : DmaId, (d.dma[n]).burst = 0) : d.dmaEnd P = d := by
  refine List.foldl_fixed' (fun n => ?_) _
  rw [Dev.dmaFlush, h n]
  rfl

/-- A load granted reads its beats and takes its bytes (01 R22, R399, 14 R341). -/
theorem grantLoad_takes {P : Part} {d : Dev} {c : CtxId} {l : Load} (hl : (d.ctx[c]).load = some l)
    (he : d.eccBad P l.addr.toNat l.size = false) (hr : regionOf P l.addr.toNat ≠ .lsAbsent) :
    d.grantLoad P c = ({ d with reqs := d.reqs.filter fun r => r.who != Master.ctx c }.beatRead P l.addr.toNat l.size).updCtx c fun x =>
      { x with load := some { l with data := some (BitVec.ofNat 32 (leNat (d.bytes l.addr.toNat l.size))) } } := by
  obtain ⟨e, hd⟩ : ∃ e, e = ({ d with reqs := d.reqs.filter fun r => r.who != Master.ctx c } : Dev) := ⟨_, rfl⟩
  have hle : (e.ctx[c]).load = some l := by rw [hd]; exact hl
  have hbad : e.eccBad P l.addr.toNat l.size = false := by rw [hd]; exact he
  have hv : e.fetchLE P l.addr.toNat l.size = BitVec.ofNat 32 (leNat (d.bytes l.addr.toNat l.size)) := by
    rw [Dev.fetchLE, if_neg hr, hd]
    rfl
  unfold Dev.grantLoad
  rw [← hd]
  dsimp only
  rw [hle]
  dsimp only
  rw [hbad, if_neg Bool.false_ne_true, if_neg hr, hv]

/-- A load whose data has come completes (03 R77). -/
theorem loadComplete_ends {P : Part} {d : Dev} {c : CtxId} {l : Load} {v : Word} (hl : (d.ctx[c]).load = some l) (hv : l.data = some v)
    (hd : (d.ctx[c]).due = {}) :
    d.loadComplete P c = d.updCtx c fun x => { x.wr l.gd v with load := none, issuableSince := d.cycle, pc := x.pc + 4 } := by
  have hx (x : Ctx) : ({ ({ x with load := none, issuableSince := d.cycle } : Ctx).wr l.gd v with pc := x.pc + 4 } : Ctx) =
      { x.wr l.gd v with load := none, issuableSince := d.cycle, pc := x.pc + 4 } := by
    unfold Ctx.wr
    split <;> rfl
  unfold Dev.loadComplete
  rw [hl]
  dsimp only
  rw [hv]
  dsimp only
  rw [Dev.loadDone, updCtx_updCtx, boundary_of_due]
  · exact updCtx_congr _ _ _ _ (hx _)
  · rw [(updCtx_fields d c _).1, upd_get_self]
    simpa [-Fin.getElem_fin] using hd

/-- Settles O7: a load by what its own buffer holds, its grant by its beats, its completion by the boundary it stands at. -/
theorem loadsIssueAndReturn : Obligations.LoadsIssueAndReturn := by
  refine ⟨?_, fun s p c l hc hp hb ho hl he hr => ?_, fun s c l v hc hl hv hd => ?_⟩
  · intro s c gd ga imm h x a goes
    have hgoes {i : Instr} {n op : Nat} (hi : exec i s = act (fun P d => d.load P c gd ga imm n (fmtI op gd ga imm)) s) (hn : n = 4 ∨ n = 2 ∨ n = 1) :
        goes i n op := by
      refine fun hk => ⟨fun hm hh => load_requests h hi hk hm ((forward_of_hit _ _ _).1 hh), fun hm e hh ha hs => ?_⟩
      have ht := load_forwards h hi hk hm ((forward_of_hit _ _ _).2 e hh (congrArg BitVec.toNat ha) hs)
      have hpc : ((s.issued c).ctx[c]).pc = x.pc := by rw [issued_self]
      rw [Dev.loadDone, lowWord_eq _ hn, updCtx_congr _ _ _ (fun y => { y.wr gd (e.data &&& BitVec.ofNat 32 (2 ^ (8 * n) - 1)) with pc := x.pc + 4 })
        (by rw [hpc])] at ht
      exact ht
    exact ⟨hgoes rfl (.inl rfl), hgoes rfl (.inr (.inl rfl)), hgoes rfl (.inr (.inr rfl)), fun hk hm hs hg => load_register h rfl hk hm hs hg⟩
  · have ht := core_completes (.burstGrant p) s (fun P d => d.burstGrant P p) rfl hc
    have hg : s.dev.burstGrant s.part p = s.dev.grantLoad s.part c := by
      unfold Dev.burstGrant
      rw [if_neg ?_]
      · dsimp only
        rw [dmaEnd_idle hb, ho]
      · rintro ⟨h1, h2⟩
        rw [hp h1] at h2
        exact Bool.false_ne_true h2
    rw [hg, grantLoad_takes hl he hr] at ht
    exact ht
  · have ht := core_completes (.loadComplete c) s (fun P d => d.loadComplete P c) rfl hc
    rw [loadComplete_ends hl hv hd] at ht
    exact ht

end Sys2Proof.Proofs.Accesses
end

section
/-!
Stores and atomics: into the buffer, from it to memory, and at once (01 R17, R25, R398, 03 R67, R75, R85, R87, R88, 04 R99, R100).
-/
namespace Sys2Proof.Proofs.Stores

open Sys2Proof.Machine Sys2Proof.Laws Sys2Proof.Proofs.Interconnect Sys2Proof.Proofs.Freezes Sys2Proof.Proofs.Alu Sys2Proof.Proofs.Control Sys2Proof.Proofs.Accesses

/-! ### Issue of a store -/

/-- No crossing keeps a store back that passes none, or one with room (01 R25, 04 R97). -/
theorem crossFull_store {P : Part} {d : Dev} {c : CtxId} {op : Nat} {gd ga : Reg} {imm : Imm18} (hop : op = 0x13 ∨ op = 0x14 ∨ op = 0x15)
    (hr : regionOf P ((d.ctx[c]).addr18 ga imm).toNat ≠ .mmio ∨ d.writeRoom P (((d.ctx[c]).addr18 ga imm).toNat - 0x8000000) = true) :
    d.crossFull P c (fmtI op gd ga imm) = false := by
  obtain ⟨hfop, hfga, hfimm⟩ := fmtI_fields gd ga imm (op := op) (by omega)
  unfold Dev.crossFull
  rw [hfop, hfga, hfimm]
  rcases hop with rfl | rfl | rfl
  · rw [Ctx.addr18] at hr
    dsimp only
    rcases hr with hr | hr
    · rw [beq_false_of_ne hr]
      rfl
    · rw [hr, Bool.not_true, Bool.and_false]
      rfl
  · rfl
  · rfl

section Store

variable {i : Instr} {s : State} {c : CtxId} {op : Nat} {gd ga : Reg} {imm : Imm18} {n : Nat} (h : s.issues c)
  (hop : op = 0x13 ∨ op = 0x14 ∨ op = 0x15)
  (hi : exec i s = act (fun P d => d.storeInsn P c gd ga imm n (fmtI op gd ga imm)) s)
  (hk : s.dev.accessCause s.part c ((s.dev.ctx[c]).addr18 ga imm).toNat n true = none)

include h hop hi hk

/-- A store that may go ahead comes to its body (03 R85, R88). -/
theorem store_comes (hc : regionOf s.part ((s.dev.ctx[c]).addr18 ga imm).toNat ≠ .mmio ∨
      s.dev.writeRoom s.part (((s.dev.ctx[c]).addr18 ga imm).toNat - 0x8000000) = true)
    (hr : s.dev.storeReady s.part c ((s.dev.ctx[c]).addr18 ga imm).toNat n = true) :
    Completes i s (Dev.storeBody s.part c ((s.dev.ctx[c]).rd gd) ((s.dev.ctx[c]).addr18 ga imm) n (fmtI op gd ga imm) (s.issued c)) ∧
    (s.issued c).checkedCause s.part c ((s.dev.ctx[c]).addr18 ga imm).toNat n true = none := by
  refine ⟨?_, (issues_checkedCause h _ n true).2.trans hk⟩
  rw [Completes, hi, act, Dev.storeInsn, Dev.when, crossFull_store hop hc, Bool.not_false, Bool.or_true, if_pos rfl,
    issueFor_of s c _ _ _ _ h hr]

/-- A store of memory joins its buffer (03 R85). -/
theorem store_buffered (hm : regionOf s.part ((s.dev.ctx[c]).addr18 ga imm).toNat ≠ .mmio) :
    Completes i s ((s.issued c).updCtx c fun y => { y with
      pc := y.pc + 4, sbuf := y.sbuf ++ [⟨(s.dev.ctx[c]).addr18 ga imm, n, lowWord ((s.dev.ctx[c]).rd gd) n⟩]
      sbAt := if y.sbuf.isEmpty then s.dev.cycle else y.sbAt }) := by
  have hcyc : (s.issued c).cycle = s.dev.cycle := by simp
  obtain ⟨hb, hc⟩ := store_comes h hop hi hk (.inl hm) (by
    rw [Dev.storeReady, bne_iff_ne.mpr hm, Bool.or_true, Bool.true_or])
  rw [Dev.storeBody] at hb
  rw [hc, if_neg hm, hcyc] at hb
  exact hb

/-- A store of a register that the port grants and its crossing has room for writes it at once (01 R17, R25, 03 R88). -/
theorem store_register (hm : regionOf s.part ((s.dev.ctx[c]).addr18 ga imm).toNat = .mmio) (hs : (s.dev.ctx[c]).sbuf = [])
    (hw : s.dev.writeRoom s.part (((s.dev.ctx[c]).addr18 ga imm).toNat - 0x8000000) = true)
    (hg : s.dev.grantable s.part .mmio s.dev.cycle (.ctx c) = true) :
    Completes i s (((s.issued c).advance c).accept s.part (.ctx c) (s.dev.ctx[c]).pc (fmtI op gd ga imm)
      (((s.dev.ctx[c]).addr18 ga imm).toNat - 0x8000000) ((s.dev.ctx[c]).rd gd)) := by
  have hask : s.dev.askedAt c = s.dev.cycle := by
    rw [Dev.askedAt, (issues_held h).1]
    rfl
  have hpc : ((s.issued c).ctx[c]).pc = (s.dev.ctx[c]).pc := by rw [issued_self]
  obtain ⟨hb, hc⟩ := store_comes h hop hi hk (.inr hw) (by
    rw [Dev.storeReady, hs, hask, hg, hw]
    exact Bool.or_true _)
  rw [Dev.storeBody] at hb
  rw [hc, if_pos hm, hpc] at hb
  exact hb

end Store

/-! ### A store drained -/

/-- A short access whose first and last byte are present lies present whole (01 R21). -/
theorem presentLen_whole {P : Part} {a n : Nat} (hn : n ≤ 4) (hr : regionOf P (a + n - 1) ≠ .lsAbsent) : presentLen P a n = n := by
  have hl : P.lsBytes = 0x300000 ∨ P.lsBytes + 4 ≤ 0x300000 := by
    unfold Part.lsBytes Part.caps
    cases P.variant <;> decide
  unfold presentLen
  split
  next h =>
    obtain ⟨h1, h2, h3⟩ := h
    refine Nat.min_eq_left (Nat.le_of_not_lt fun hlt => ?_)
    rcases hl with hl | hl
    · simp [regionOf, hl] at h3
    · refine hr ?_
      rw [regionOf, if_neg (by omega), if_neg (by omega), if_neg (by omega), if_pos (by omega)]
  next => rfl

/-- The bytes of a store, least significant first (03 R85). -/
theorem lowBytes_get {w : Word} {n i : Nat} (hn : n ≤ 4) (hi : i < n) : (lowBytes w n)[i]? = some (w.extractLsb' (8 * i) 8) := by
  rw [lowBytes, List.getElem?_take_of_lt hi]
  match i, Nat.lt_of_lt_of_le hi hn with
  | 0, _ => rfl
  | 1, _ => rfl
  | 2, _ => rfl
  | 3, _ => rfl

theorem lowBytes_length (w : Word) {n : Nat} (hn : n ≤ 4) : (lowBytes w n).length = n := by
  rw [lowBytes, List.length_take]
  exact Nat.min_eq_left hn

/-- A context's buffer without its oldest entry, and issuable again where it was full (03 R67, R85). -/
def drained (cycle : Nat) (rest : List SbEntry) (x : Ctx) : Ctx := { x with
  sbuf := rest, sbAt := cycle, issuableSince := if 8 ≤ x.sbuf.length then cycle else x.issuableSince }

/-- A context that a drain makes issuable: its sequencer's clock runs on where it runs (14 R322). -/
theorem nowIssuable_effect (P : Part) (d : Dev) (c : CtxId) : (d.nowIssuable P c).ctx = d.ctx ∧
    (d.pwr.gated[sequencerOf c] = false → d.nowIssuable P c = d) := by
  unfold Dev.nowIssuable
  split
  · refine ⟨by simp, fun hg => if_neg ?_⟩
    rw [hg]
    decide
  · exact ⟨rfl, fun _ => rfl⟩

/-- The oldest store of a buffer accepted: the entry leaves, and its bytes are stored (03 R85). -/
theorem drainOne_effect {P : Part} {d : Dev} {c : CtxId} {e : SbEntry} {rest : List SbEntry} (hs : (d.ctx[c]).sbuf = e :: rest)
    (hr : (d.ctx[c]).resetting = false) : (d.drainOne P c).ctx = upd d.ctx c (drained d.cycle rest) ∧
    (d.pwr.gated[sequencerOf c] = false →
      d.drainOne P c = { d.store P e.addr.toNat (lowBytes e.data e.size) with ctx := upd d.ctx c (drained d.cycle rest) }) := by
  obtain ⟨u, hu⟩ : ∃ u, u = d.store P e.addr.toNat (lowBytes e.data e.size) := ⟨_, rfl⟩
  have huc : u.ctx = d.ctx := by simp [hu]
  have hucyc : u.cycle = d.cycle := by simp [hu]
  have hup : u.pwr = d.pwr := by simp [hu]
  have hfin : (u.updCtx c fun x => { x with sbuf := rest, sbAt := d.cycle }).finishReset P c = u.updCtx c fun x => { x with sbuf := rest, sbAt := d.cycle } := by
    refine if_neg fun hf => ?_
    have hres := hf.1
    rw [(updCtx_fields u c _).1, upd_get_self, huc, hr] at hres
    exact Bool.false_ne_true hres
  have hd : d.drainOne P c = if 8 ≤ (e :: rest).length then
      ((u.updCtx c fun x => { x with sbuf := rest, sbAt := d.cycle }).updCtx c fun x => { x with issuableSince := u.cycle }).nowIssuable P c
      else u.updCtx c fun x => { x with sbuf := rest, sbAt := d.cycle } := by
    unfold Dev.drainOne
    rw [hs]
    dsimp only
    rw [← hu, hfin]
    rfl
  rw [hd, ← hu]
  by_cases hfull : 8 ≤ (e :: rest).length
  · have hx : upd (upd u.ctx c fun x => { x with sbuf := rest, sbAt := d.cycle }) c (fun x => { x with issuableSince := u.cycle }) =
        upd d.ctx c (drained d.cycle rest) := by
      rw [upd_upd, huc, hucyc]
      refine upd_congr _ _ _ _ ?_
      rw [drained, hs, if_pos hfull]
    obtain ⟨h1, h2⟩ := nowIssuable_effect P ((u.updCtx c fun x => { x with sbuf := rest, sbAt := d.cycle }).updCtx c fun x => { x with issuableSince := u.cycle }) c
    rw [if_pos hfull]
    refine ⟨h1.trans hx, fun hg => (h2 (by rw [← hup] at hg; exact hg)).trans ?_⟩
    exact congrArg (fun v => { u with ctx := v }) hx
  · have hx : upd u.ctx c (fun x => { x with sbuf := rest, sbAt := d.cycle }) = upd d.ctx c (drained d.cycle rest) := by
      rw [huc]
      refine upd_congr _ _ _ _ ?_
      rw [drained, hs, if_neg hfull]
    rw [if_neg hfull]
    exact ⟨hx, fun _ => congrArg (fun v => { u with ctx := v }) hx⟩

/-- Settles O8: a store by the room that it finds, its drain by the bytes that it puts. -/
theorem storesIssueAndDrain : Obligations.StoresIssueAndDrain := by
  refine ⟨?_, fun s c e rest hc hs hr hn ha hb ho => ?_⟩
  · intro s c gd ga imm h x a goes
    have hgoes {i : Instr} {n op : Nat} (hop : op = 0x13 ∨ op = 0x14 ∨ op = 0x15)
        (hi : exec i s = act (fun P d => d.storeInsn P c gd ga imm n (fmtI op gd ga imm)) s) (hn : n = 4 ∨ n = 2 ∨ n = 1) : goes i n := by
      refine fun hk hm => ⟨?_, issued_sameBytes s c⟩
      have ht := store_buffered h hop hi hk hm
      rw [updCtx_congr _ _ _ (fun y => { y with
          pc := x.pc + 4, sbuf := x.sbuf ++ [⟨a, n, x.rd gd &&& BitVec.ofNat 32 (2 ^ (8 * n) - 1)⟩]
          sbAt := if x.sbuf.isEmpty then s.dev.cycle else x.sbAt }) (by rw [lowWord_eq _ hn, issued_self]; rfl)] at ht
      exact ht
    exact ⟨hgoes (.inl rfl) rfl (.inl rfl), hgoes (.inr (.inl rfl)) rfl (.inr (.inl rfl)), hgoes (.inr (.inr rfl)) rfl (.inr (.inr rfl)),
      fun hk hm hs hw hg => store_register h (.inl rfl) rfl hk hm hs hw hg⟩
  · have ht := core_completes (.storeBufferDrain c) s (fun P d => d.drainGranted P c) rfl hc
    have hg : s.dev.drainGranted s.part c = s.dev.drainOne s.part c := by
      unfold Dev.drainGranted
      rw [hs]
      exact if_pos ho
    rw [hg] at ht
    obtain ⟨hctx, hfr⟩ := drainOne_effect (P := s.part) hs hr
    refine ⟨_, ht, hctx, fun hgate => ?_⟩
    have hlen := lowBytes_length e.data hn
    have hp : presentLen s.part e.addr.toNat (lowBytes e.data e.size).length = (lowBytes e.data e.size).length := by
      rw [hlen]
      exact presentLen_whole hn hb
    have hw := Cascade.wrote_store s.part s.dev (lowBytes e.data e.size) ha hp
    have hst := MgmtWords.store_frame s.part s.dev (lowBytes e.data e.size) ha hp
    have hbyte (a : Nat) : (s.dev.drainOne s.part c).byte a = (s.dev.store s.part e.addr.toNat (lowBytes e.data e.size)).byte a := by
      rw [hfr hgate]
      rfl
    refine ⟨fun i hi => ?_, fun a hx => ?_, ?_⟩
    · rw [hbyte, hw, if_pos (by omega), Nat.add_sub_cancel_left, lowBytes_get hn hi]
      rfl
    · rw [hbyte]
      exact hw.others a (by rw [hlen]; exact hx)
    · rw [hctx, hfr hgate, hst]

/-! ### SWAP and CAS -/

/-- A word of the memory that programs hold lies present whole (01 R21). -/
theorem presentLen_word {P : Part} {a : Nat} (ha : a % 4 = 0) : presentLen P a 4 = 4 := by
  have hl : P.lsBytes % 4 = 0 := by
    unfold Part.lsBytes Part.caps
    cases P.variant <;> decide
  unfold presentLen
  split
  next h => exact Nat.min_eq_left (by omega)
  next => rfl

/-- An atomic access without a violation is to a whole word (03 R75). -/
theorem atomic_aligned {P : Part} {d : Dev} {c : CtxId} {a : Nat} (h : d.atomicCause P c a = none) : a % 4 = 0 := by
  unfold Dev.atomicCause at h
  dsimp only at h
  split at h
  · exact absurd h (by decide)
  · exact absurd h (by decide)
  · exact absurd h (by decide)
  · by_contra hne
    rw [if_pos hne] at h
    exact absurd h (by decide)

/-- The fetch of an instruction reveals and hides no uncorrectable error (01 R22). -/
theorem issued_eccBad (s : State) (c : CtxId) (a n : Nat) : (s.issued c).eccBad s.part a n = s.dev.eccBad s.part a n := by
  show (s.dev.fetchEcc s.part c).eccBad s.part a n = _
  unfold Dev.fetchEcc Dev.fetchBeat
  split
  · rfl
  · split
    · exact MgmtWords.eccBad_eccRead _ _ _ _ _ _
    · rfl

/-- A word written, or none (04 R100). -/
def written (P : Part) (d : Dev) (a : Nat) (w : Option Word) : Dev :=
  match w with
  | some v => d.store P a (wordBytes v)
  | none => d

/-- A whole word written, or none: the word, and every other byte as it was (04 R100). -/
theorem written_effect {P : Part} {d : Dev} {a : Nat} (w : Option Word) (ha : a % 4 = 0) (hr : regionOf P a ≠ .lsAbsent) :
    (written P d a w).ctx = d.ctx ∧ (written P d a w).word a = w.getD (d.word a) ∧ sameBytesBut d (written P d a w) a 4 := by
  cases w with
  | none => exact ⟨rfl, rfl, fun _ _ => rfl⟩
  | some v =>
    refine ⟨by simp [written], Words.word_of_memPuts_wordBytes (Words.store_mem_whole P d a (wordBytes v) hr (presentLen_word ha)), fun x hx => ?_⟩
    exact Words.byte_store_out P d (wordBytes v) hx

/-- An atomic access that its port grants, without a violation and without an uncorrectable error (03 R75, R87, 04 R100). -/
theorem atomic_completes {i : Instr} {s : State} {c : CtxId} {gd ga : Reg} {imm : Imm14} {insn : Word} {f : Dev → Word → Option Word × Option Bool}
    (h : s.issues c) (hi : exec i s = act (fun P d => d.atomic P c gd ga imm insn (f d)) s) (hs : (s.dev.ctx[c]).sbuf = [])
    {a : Nat} (ha : ((s.dev.ctx[c]).addr14 ga imm).toNat = a) (hk : s.dev.atomicCause s.part c a = none) (he : s.dev.eccBad s.part a 4 = false)
    (hr : regionOf s.part a ≠ .lsAbsent) (hg : s.dev.grantable s.part (portOf (regionOf s.part a)) s.dev.cycle (.ctx c) = true) :
    ∃ t, Completes i s t ∧ t.word a = (f s.dev (s.dev.word a)).1.getD (s.dev.word a) ∧ sameBytesBut s.dev t a 4 ∧
      t.ctx = upd (s.issued c).ctx c fun y => { y.wr gd (s.dev.word a) with pc := y.pc + 4, z := (f s.dev (s.dev.word a)).2.getD y.z } := by
  subst ha
  obtain ⟨u, hu⟩ : ∃ u, u = (s.issued c).beatRead s.part ((s.dev.ctx[c]).addr14 ga imm).toNat 4 := ⟨_, rfl⟩
  have hask : s.dev.askedAt c = s.dev.cycle := by
    rw [Dev.askedAt, (issues_held h).1]
    rfl
  have hchk := checked_beatRead s.part (s.issued c) ((s.dev.ctx[c]).addr14 ga imm).toNat 4
  rw [← hu] at hchk
  have hbyte (x : Nat) : u.byte x = s.dev.byte x := by
    rw [hchk]
    exact issued_sameBytes s c x
  have hword : u.word ((s.dev.ctx[c]).addr14 ga imm).toNat = s.dev.word ((s.dev.ctx[c]).addr14 ga imm).toNat := Words.word_congr fun i _ => hbyte _
  have hold : u.fetchLE s.part ((s.dev.ctx[c]).addr14 ga imm).toNat 4 = s.dev.word ((s.dev.ctx[c]).addr14 ga imm).toNat := by
    rw [Dev.fetchLE, if_neg hr, ← hword]
    rfl
  obtain ⟨h1, h2⟩ := issues_checkedAtomic h ((s.dev.ctx[c]).addr14 ga imm).toNat
  have ht : Completes i s (Dev.atomicBody s.part c gd ((s.dev.ctx[c]).addr14 ga imm) insn (f s.dev) (s.issued c)) := by
    rw [Completes, hi, act, Dev.atomic, issueFor_of s c _ _ _ _ h (by rw [Dev.atomicReady, hs, hask, hg]; exact Bool.or_true _)]
  rw [Dev.atomicBody, h2, hk] at ht
  dsimp only at ht
  rw [issued_eccBad, he, if_neg Bool.false_ne_true, ← hu, hold, if_neg hr] at ht
  obtain ⟨hctx, hw, hb⟩ := written_effect (d := u) (f s.dev (s.dev.word ((s.dev.ctx[c]).addr14 ga imm).toNat)).1 (atomic_aligned hk) hr
  refine ⟨_, ht, ?_, fun x hx => ?_, ?_⟩
  · exact hw.trans (by rw [hword])
  · exact (hb x hx).trans (hbyte x)
  · rw [(updCtx_fields _ c _).1]
    have hcu : u.ctx = (s.issued c).ctx := by rw [hchk]
    exact congrArg (fun v => upd v c _) (hctx.trans hcu)

/-- Settles O9: SWAP and CAS by the word that each writes, or does not. -/
theorem atomicAccesses : Obligations.AtomicAccesses := by
  intro s c gd ga gb imm h hs x a old hk he hr hg
  refine ⟨?_, ?_⟩
  · obtain ⟨t, ht, hw, hb, hctx⟩ := atomic_completes (i := .swap c gd ga gb imm) (f := fun d => swapRule ((d.ctx[c]).rd gb)) h rfl hs rfl hk he hr hg
    refine ⟨t, ht, ?_, hw, hctx.trans (upd_congr _ _ _ _ ?_), hb⟩
    case refine_2 =>
      have hz : ∀ y : Ctx, y.z = (y.wr gd old).z := fun y => by simp
      show ({ Ctx.wr _ gd old with pc := _, z := Ctx.z _ } : Ctx) = _
      rw [hz]
    rw [hctx, upd_get_self]
    show Ctx.rd (Ctx.wr _ gd old) gd = _
    rw [wr_rd, if_pos rfl]
  · obtain ⟨t, ht, hw, hb, hctx⟩ := atomic_completes (i := .cas c gd ga gb imm) (f := fun d => casRule ((d.ctx[c]).rd gd) ((d.ctx[c]).rd gb)) h rfl hs rfl hk he hr hg
    refine ⟨t, ht, hw.trans ?_, hctx, hb⟩
    show Option.getD (if old = x.rd gd then some (x.rd gb) else none) old = _
    split <;> rfl

end Sys2Proof.Proofs.Stores
end

section
/-!
Instruction words: their fields, which are legal, and the decoder with its inverse (04 R92 to R94).
-/
namespace Sys2Proof.Proofs.Decoding

open Sys2Proof Sys2Proof.Machine Sys2Proof.Proofs.Freezes Sys2Proof.Proofs.Words

/-! ### Fields of a word -/

/-- A field as a number (04 R92). -/
theorem fld_eq (w : Word) (lo n : Nat) : fld w lo n = w.toNat / 2 ^ lo % 2 ^ n := by
  rw [fld, BitVec.extractLsb'_toNat, Nat.shiftRight_eq_div_pow]

/-- The register fields as numbers (04 R92). -/
theorem field_vals (w : Word) : (fieldD w).val = fld w 22 4 ∧ (fieldA w).val = fld w 18 4 ∧ (fieldB w).val = fld w 14 4 := by
  have h (lo : Nat) : fld w lo 4 < 16 := BitVec.isLt _
  exact ⟨Nat.mod_eq_of_lt (h 22), Nat.mod_eq_of_lt (h 18), Nat.mod_eq_of_lt (h 14)⟩

/-- The value of an A-format word (04 R92). -/
theorem fmtA_toNat {op : Nat} (gd ga gb : Reg) (imm : Imm14) (h : op < 64) :
    (fmtA op gd ga gb imm).toNat = imm.toNat + gb.val * 2 ^ 14 + ga.val * 2 ^ 18 + gd.val * 2 ^ 22 + op * 2 ^ 26 := by
  have hi : (imm.setWidth 32).toNat = imm.toNat := by
    rw [BitVec.toNat_setWidth]
    omega
  have turn : ∀ a b c d e : Word, a ||| b ||| c ||| d ||| e = e ||| d ||| c ||| b ||| a := fun a b c d e => by ac_rfl
  have hgb := or_place_toNat (w := imm.setWidth 32) (v := gb.val) (k := 14) (by omega) (by omega)
  have hga := or_place_toNat (w := imm.setWidth 32 ||| place gb.val 14) (v := ga.val) (k := 18) (by omega) (by omega)
  have hgd := or_place_toNat (w := imm.setWidth 32 ||| place gb.val 14 ||| place ga.val 18) (v := gd.val) (k := 22) (by omega) (by omega)
  rw [fmtA, turn, or_place_toNat (by omega) (by omega), hgd, hga, hgb, hi]

/-- The value of a J-format word (04 R92). -/
theorem fmtJ_toNat {op : Nat} (imm : Imm26) (h : op < 64) : (fmtJ op imm).toNat = imm.toNat + op * 2 ^ 26 := by
  have hi : (imm.setWidth 32).toNat = imm.toNat := by
    rw [BitVec.toNat_setWidth]
    omega
  rw [fmtJ, BitVec.or_comm, or_place_toNat (by omega) (by omega), hi]

section Put

variable {w : Word} {op : Nat} {gd ga gb : Reg} (hop : fld w 26 6 = op)

include hop

/-- A word is the A-format word of its fields (04 R92). -/
theorem fmtA_of {imm : Imm14} (hd : gd.val = fld w 22 4) (ha : ga.val = fld w 18 4) (hb : gb.val = fld w 14 4) (hi : imm.toNat = fld w 0 14) :
    fmtA op gd ga gb imm = w := by
  have hw := w.isLt
  simp only [fld_eq] at hop hd ha hb hi
  refine BitVec.eq_of_toNat_eq ?_
  rw [fmtA_toNat _ _ _ _ (by omega)]
  omega

/-- A word is the I-format word of its fields (04 R92). -/
theorem fmtI_of {imm : Imm18} (hd : gd.val = fld w 22 4) (ha : ga.val = fld w 18 4) (hi : imm.toNat = fld w 0 18) : fmtI op gd ga imm = w := by
  have hw := w.isLt
  simp only [fld_eq] at hop hd ha hi
  refine BitVec.eq_of_toNat_eq ?_
  rw [fmtI_toNat _ _ _ (by omega)]
  omega

/-- A word is the J-format word of its fields (04 R92). -/
theorem fmtJ_of {imm : Imm26} (hi : imm.toNat = fld w 0 26) : fmtJ op imm = w := by
  have hw := w.isLt
  simp only [fld_eq] at hop hi
  refine BitVec.eq_of_toNat_eq ?_
  rw [fmtJ_toNat _ (by omega)]
  omega

end Put

/-- No bit of a field is set where the field is 0. -/
theorem and_mask_eq_zero {w : Word} {lo n : Nat} (h : lo + n ≤ 32) : w &&& mask lo n = 0 ↔ fld w lo n = 0 := by
  have hm (i : Nat) (hi : i < 32) : (mask lo n).getLsbD i = decide (lo ≤ i ∧ i < lo + n) := by
    rw [mask, BitVec.getLsbD_shiftLeft, BitVec.getLsbD_ofNat, Nat.testBit_two_pow_sub_one]
    rw [Bool.eq_iff_iff]
    simp only [Bool.and_eq_true, decide_eq_true_eq, Bool.not_eq_true', decide_eq_false_iff_not]
    omega
  have hf : fld w lo n = 0 ↔ w.extractLsb' lo n = 0 := by
    rw [fld, ← BitVec.toNat_inj]
    rfl
  rw [hf]
  constructor
  · intro hz
    refine BitVec.eq_of_getLsbD_eq fun i hi => ?_
    have hb := congrArg (fun v : Word => v.getLsbD (lo + i)) hz
    simp only [BitVec.getLsbD_and, hm _ (show lo + i < 32 by omega)] at hb
    simp only [BitVec.getLsbD_extractLsb', hi, decide_true, Bool.true_and]
    rw [decide_eq_true (by omega), Bool.and_true] at hb
    simpa using hb
  · intro hz
    refine BitVec.eq_of_getLsbD_eq fun i hi => ?_
    rw [BitVec.getLsbD_and, hm i hi]
    by_cases hin : lo ≤ i ∧ i < lo + n
    · have hb := congrArg (fun v : BitVec n => v.getLsbD (i - lo)) hz
      simp only [BitVec.getLsbD_extractLsb', show i - lo < n by omega, decide_true, Bool.true_and, show lo + (i - lo) = i by omega] at hb
      rw [hb]
      simp
    · rw [decide_eq_false hin, Bool.and_false]
      simp

/-- The unused fields of a word are 0 (04 R93). -/
theorem unusedOk_iff {w m : Word} {gd ga gb : Bool} : unusedOk w gd ga gb m = true ↔
    (gd = true → fld w 22 4 = 0) ∧ (ga = true → fld w 18 4 = 0) ∧ (gb = true → fld w 14 4 = 0) ∧ w &&& (mask 0 14 &&& ~~~m) = 0 := by
  have hor (x y : Word) : w &&& (x ||| y) = 0 ↔ w &&& x = 0 ∧ w &&& y = 0 := by
    rw [BitVec.and_or_distrib_left]
    exact BitVec.or_eq_zero_iff
  have hif (b : Bool) (lo : Nat) (h : lo + 4 ≤ 32) : w &&& (if b then mask lo 4 else 0) = 0 ↔ (b = true → fld w lo 4 = 0) := by
    cases b
    · simp
    · simpa using and_mask_eq_zero h
  rw [unusedOk, beq_iff_eq, hor, hor, hor, hif gd 22 (by decide), hif ga 18 (by decide), hif gb 14 (by decide), and_assoc, and_assoc]

/-- A field within the immediate is the immediate's (04 R92). -/
theorem fld_within {w : Word} {lo n : Nat} (h : lo + n ≤ 14) : fld w lo n = (field14 w).toNat / 2 ^ lo % 2 ^ n := by
  have hx : w.extractLsb' lo n = (field14 w).extractLsb' lo n := by
    refine BitVec.eq_of_getLsbD_eq fun i hi => ?_
    simp only [field14, BitVec.getLsbD_extractLsb', hi, decide_true, Bool.true_and, Nat.zero_add]
    rw [decide_eq_true (by omega), Bool.true_and]
  rw [fld, hx, BitVec.extractLsb'_toNat, Nat.shiftRight_eq_div_pow]

/-! ### Fields of the words of the formats -/

section A

variable {op : Nat} {gd ga gb : Reg} {imm : Imm14} (h : op < 64)

include h

@[simp] theorem fld_fmtA_op : fld (fmtA op gd ga gb imm) 26 6 = op := by
  rw [fld_eq, fmtA_toNat _ _ _ _ h]
  omega

@[simp] theorem fld_fmtA_d : fld (fmtA op gd ga gb imm) 22 4 = gd.val := by
  rw [fld_eq, fmtA_toNat _ _ _ _ h]
  omega

@[simp] theorem fld_fmtA_a : fld (fmtA op gd ga gb imm) 18 4 = ga.val := by
  rw [fld_eq, fmtA_toNat _ _ _ _ h]
  omega

@[simp] theorem fld_fmtA_b : fld (fmtA op gd ga gb imm) 14 4 = gb.val := by
  rw [fld_eq, fmtA_toNat _ _ _ _ h]
  omega

@[simp] theorem fld_fmtA_regs : fld (fmtA op gd ga gb imm) 14 12 = gb.val + 16 * ga.val + 256 * gd.val := by
  rw [fld_eq, fmtA_toNat _ _ _ _ h]
  omega

@[simp] theorem field14_fmtA : field14 (fmtA op gd ga gb imm) = imm := by
  refine BitVec.eq_of_toNat_eq ?_
  rw [field14, BitVec.extractLsb'_toNat, fmtA_toNat _ _ _ _ h, Nat.shiftRight_eq_div_pow]
  omega

@[simp] theorem fieldD_fmtA : fieldD (fmtA op gd ga gb imm) = gd := Fin.ext ((field_vals _).1.trans (fld_fmtA_d h))

@[simp] theorem fieldA_fmtA : fieldA (fmtA op gd ga gb imm) = ga := Fin.ext ((field_vals _).2.1.trans (fld_fmtA_a h))

@[simp] theorem fieldB_fmtA : fieldB (fmtA op gd ga gb imm) = gb := Fin.ext ((field_vals _).2.2.trans (fld_fmtA_b h))

@[simp] theorem fld_fmtA_imm {lo n : Nat} (hn : lo + n ≤ 14) : fld (fmtA op gd ga gb imm) lo n = imm.toNat / 2 ^ lo % 2 ^ n := by
  rw [fld_within hn, field14_fmtA h]

end A

section I

variable {op : Nat} {gd ga : Reg} {imm : Imm18} (h : op < 64)

include h

@[simp] theorem fld_fmtI_op : fld (fmtI op gd ga imm) 26 6 = op := (fmtI_fields gd ga imm h).1

@[simp] theorem fld_fmtI_a : fld (fmtI op gd ga imm) 18 4 = ga.val := by
  rw [fld_eq, fmtI_toNat _ _ _ h]
  omega

@[simp] theorem fieldD_fmtI : fieldD (fmtI op gd ga imm) = gd := by
  refine Fin.ext ((field_vals _).1.trans ?_)
  rw [fld_eq, fmtI_toNat _ _ _ h]
  omega

@[simp] theorem fieldA_fmtI : fieldA (fmtI op gd ga imm) = ga := (fmtI_fields gd ga imm h).2.1

@[simp] theorem field18_fmtI : field18 (fmtI op gd ga imm) = imm := (fmtI_fields gd ga imm h).2.2

end I

section J

variable {op : Nat} {imm : Imm26} (h : op < 64)

include h

@[simp] theorem fld_fmtJ_op : fld (fmtJ op imm) 26 6 = op := by
  rw [fld_eq, fmtJ_toNat _ h]
  omega

@[simp] theorem fld_fmtJ_imm : fld (fmtJ op imm) 0 26 = imm.toNat := by
  rw [fld_eq, fmtJ_toNat _ h]
  omega

@[simp] theorem field26_fmtJ : field26 (fmtJ op imm) = imm := by
  refine BitVec.eq_of_toNat_eq ?_
  rw [field26, BitVec.extractLsb'_toNat, fmtJ_toNat _ h, Nat.shiftRight_eq_div_pow]
  omega

end J

/-! ### Unused fields -/

/-- The bits of imm14 above a mask. -/
theorem above_mask : ∀ k : Fin 15, mask 0 14 &&& ~~~mask 0 k.val = mask k.val (14 - k.val) := by decide

/-- The unused fields of a word whose function code has its low bits are 0 (04 R93). -/
theorem unusedOk_low {w m : Word} {gd ga gb : Bool} {k : Nat} (hk : k < 15) (hm : m = mask 0 k) : unusedOk w gd ga gb m = true ↔
    (gd = true → fld w 22 4 = 0) ∧ (ga = true → fld w 18 4 = 0) ∧ (gb = true → fld w 14 4 = 0) ∧ fld w k (14 - k) = 0 := by
  rw [unusedOk_iff, hm, above_mask ⟨k, hk⟩, and_mask_eq_zero (by omega)]

/-- The unused fields of a word with all of imm14 in use are 0 (04 R93). -/
theorem unusedOk_regs {w : Word} {gd ga gb : Bool} : unusedOk w gd ga gb (mask 0 14) = true ↔
    (gd = true → fld w 22 4 = 0) ∧ (ga = true → fld w 18 4 = 0) ∧ (gb = true → fld w 14 4 = 0) := by
  have h0 : fld w 14 0 = 0 := by rw [fld_eq, Nat.pow_zero, Nat.mod_one]
  rw [unusedOk_low (k := 14) (by decide) rfl]
  simp only [Nat.sub_self, h0, and_true]

/-! ### Decoding a word put together -/

section Decode

variable (c : CtxId) (gd ga gb : Reg) (imm : Imm14)

/-- The flag and absence forms of the branches (04 R102). -/
theorem decode_flags : decodeInsn c (fmtA 0x20 1 0 0 imm) = .beqF c imm ∧ decodeInsn c (fmtA 0x21 1 0 0 imm) = .bneF c imm ∧
    decodeInsn c (fmtA 0x22 1 0 0 imm) = .bltF c imm ∧ decodeInsn c (fmtA 0x23 1 0 0 imm) = .bgeF c imm ∧
    decodeInsn c (fmtA 0x24 1 0 0 imm) = .bltuF c imm ∧ decodeInsn c (fmtA 0x20 2 0 0 imm) = .beqA c imm ∧
    decodeInsn c (fmtA 0x21 2 0 0 imm) = .bneA c imm := by
  simp [decodeInsn, legalWord, decodeFunction, decodePlain, branchLegal, unusedOk_regs]

/-- LINE and WAIT (04 R105, R112). -/
theorem decode_line : (∀ gd ga gb, decodeInsn c (fmtA 0x30 gd ga gb 0) = .lineStart c gd ga gb) ∧ decodeInsn c (fmtA 0x30 0 0 0 1) = .lineStop c ∧
    ∀ ga gb, decodeInsn c (fmtA 0x28 0 ga gb 0) = .wait c ga gb := by
  simp [decodeInsn, legalWord, decodeFunction, unusedOk_regs, unusedOk_low (m := 0#32) (k := 0) (by decide) (by decide)]

/-- SEAM and CAPS (04 R112). -/
theorem decode_seam : decodeInsn c (fmtA 0x39 0 0 0 0) = .seamFreeze c ∧ decodeInsn c (fmtA 0x39 0 0 0 1) = .seamResume c ∧
    decodeInsn c (fmtA 0x39 0 0 0 2) = .seamReset c ∧ ∀ gd, decodeInsn c (fmtA 0x3B gd 0 0 0) = .caps c gd := by
  simp [decodeInsn, legalWord, decodeFunction, unusedOk_regs]

/-- The forms of CRED (04 R112). -/
theorem decode_cred : (∀ ga gb, decodeInsn c (fmtA 0x3A 0 ga gb 0) = .credGrant c ga gb) ∧ (∀ ga, decodeInsn c (fmtA 0x3A 0 ga 0 1) = .credClose c ga) ∧
    (∀ ga, decodeInsn c (fmtA 0x3A 0 ga 0 2) = .credOpen c ga) ∧ ∀ gd ga, decodeInsn c (fmtA 0x3A gd ga 0 3) = .credRead c gd ga := by
  simp [decodeInsn, legalWord, decodeFunction, unusedOk_regs]

/-- The forms of CTX (04 R114). -/
theorem decode_ctx : decodeInsn c (fmtA 0x1C 0 ga 0 1) = .ctxStart c ga ∧ decodeInsn c (fmtA 0x1C 0 ga 0 2) = .ctxStop c ga ∧
    decodeInsn c (fmtA 0x1C 0 ga 0 3) = .ctxReset c ga ∧ decodeInsn c (fmtA 0x1C 0 ga 0 4) = .ctxSetU c ga ∧
    decodeInsn c (fmtA 0x1C 0 ga 0 5) = .ctxSetS c ga := by
  simp [decodeInsn, legalWord, decodeFunction, unusedOk_low (m := 15#32) (k := 4) (by decide) (by decide)]

/-- THAW and the forms of SYS (04 R114). -/
theorem decode_sys : (∀ ga, decodeInsn c (fmtA 0x1E 0 ga 0 0) = .thaw c ga) ∧ decodeInsn c (fmtA 0x1F 0 0 0 1) = .sysReset c ∧
    decodeInsn c (fmtA 0x1F 0 0 0 2) = .sysStandby c ∧ ∀ gd ga, decodeInsn c (fmtA 0x1F gd ga 0 3) = .sysFuse c gd ga := by
  simp [decodeInsn, legalWord, decodeFunction, unusedOk_regs]

/-- The forms of HKREQ for the sequence (04 R112). -/
theorem decode_hkreq : decodeInsn c (fmtA 0x36 0 0 0 0) = .hkreqSeq c ∧ decodeInsn c (fmtA 0x36 0 0 0 2) = .hkreqStop c := by
  simp [decodeInsn, legalWord, decodeFunction, unusedOk_low (m := 3#32) (k := 2) (by decide) (by decide)]

/-- TS with two registers, or with g0 twice (04 R109). -/
theorem decode_ts (hne : gd = ga → gd = 0) : decodeInsn c (fmtA 0x2C gd ga 0 0) = .ts c gd ga := by
  simp [decodeInsn, legalWord, decodeFunction, unusedOk_low (m := 0#32) (k := 0) (by decide) (by decide)]
  exact fun h => hne (Fin.ext h)

/-- A function code that is a number, and its fields (04 R94). -/
theorem fld_number {op n lo k v : Nat} (h : op < 64) (hk : lo + k ≤ 14) (hn : n < 2 ^ 14) (hv : n / 2 ^ lo % 2 ^ k = v) :
    fld (fmtA op gd ga gb (BitVec.ofNat 14 n)) lo k = v := by
  rw [fld_fmtA_imm h hk, BitVec.toNat_ofNat, Nat.mod_eq_of_lt hn, hv]

/-- The unused fields of HKREQ URGENT are 0 (04 R112). -/
theorem unusedOk_urgent {w : Word} : unusedOk w true true true 0xF7 = true ↔
    fld w 22 4 = 0 ∧ fld w 18 4 = 0 ∧ fld w 14 4 = 0 ∧ fld w 3 1 = 0 ∧ fld w 8 6 = 0 := by
  have hm : mask 0 14 &&& ~~~(0xF7 : Word) = mask 3 1 ||| mask 8 6 := by decide
  have hor : w &&& (mask 3 1 ||| mask 8 6) = 0 ↔ w &&& mask 3 1 = 0 ∧ w &&& mask 8 6 = 0 := by
    rw [BitVec.and_or_distrib_left]
    exact BitVec.or_eq_zero_iff
  rw [unusedOk_iff, hm, hor, and_mask_eq_zero (by decide), and_mask_eq_zero (by decide)]
  simp only [forall_const]

/-- A bit of a word as a field of one bit (04 R92). -/
theorem bit_eq_fld (w : Word) (i : Nat) : bit w i = decide (fld w i 1 = 1) := by
  rw [bit, BitVec.getLsbD, Nat.testBit_eq_decide_div_mod_eq, fld_eq, pow_one]

section Numbers

variable (ch : DmaId) (m : AxisId) (k : Fin 4) (b : Fin 2) (e : HkEnt) (q : Fin 8) (peek : Bool)

/-- WIN (04 R114). -/
theorem decode_win : decodeInsn c (fmtA 0x1D gd ga gb (BitVec.ofNat 14 k.val)) = .win c k gd ga gb := by
  have f {lo n v : Nat} (hn : lo + n ≤ 14) (hv : k.val / 2 ^ lo % 2 ^ n = v) := fld_number gd ga gb (op := 0x1D) (by decide) hn (by omega) hv
  simp only [decodeInsn, legalWord, decodeFunction, unusedOk_low (m := 3) (k := 2) (by decide) (by decide), fld_fmtA_op (show 0x1D < 64 by decide),
    f (lo := 0) (n := 2) (v := k.val) (by decide) (by omega), f (lo := 2) (n := 12) (v := 0) (by decide) (by omega), Fin.ofNat_val_eq_self]
  simp

/-- EMIT (04 R108). -/
theorem decode_emit : decodeInsn c (fmtA 0x29 0 ga 0 (BitVec.ofNat 14 k.val)) = .emit c k ga := by
  have f {lo n v : Nat} (hn : lo + n ≤ 14) (hv : k.val / 2 ^ lo % 2 ^ n = v) := fld_number 0 ga 0 (op := 0x29) (by decide) hn (by omega) hv
  simp only [decodeInsn, legalWord, decodeFunction, unusedOk_low (m := 3) (k := 2) (by decide) (by decide), fld_fmtA_op (show 0x29 < 64 by decide),
    f (lo := 0) (n := 2) (v := k.val) (by decide) (by omega), f (lo := 2) (n := 12) (v := 0) (by decide) (by omega), Fin.ofNat_val_eq_self]
  simp

/-- ARM (04 R112). -/
theorem decode_arm : decodeInsn c (fmtA 0x31 0 0 0 (BitVec.ofNat 14 (k.val + 4 * b.val))) = .arm c k b := by
  have f {lo n v : Nat} (hn : lo + n ≤ 14) (hv : (k.val + 4 * b.val) / 2 ^ lo % 2 ^ n = v) := fld_number 0 0 0 (op := 0x31) (by decide) hn (by omega) hv
  simp only [decodeInsn, legalWord, decodeFunction, unusedOk_low (m := 7) (k := 3) (by decide) (by decide), fld_fmtA_op (show 0x31 < 64 by decide),
    f (lo := 0) (n := 2) (v := k.val) (by decide) (by omega), f (lo := 2) (n := 1) (v := b.val) (by decide) (by omega),
    f (lo := 3) (n := 11) (v := 0) (by decide) (by omega), Fin.ofNat_val_eq_self]
  simp

/-- The modes of MOVE (04 R112): mode 2 names no register in gd. -/
theorem decode_move {mode : Nat} (hm : mode < 3) (hd : mode = 2 → gd = 0) :
    decodeInsn c (fmtA 0x32 gd ga 0 (BitVec.ofNat 14 (2 * mode + m.val))) =
      if mode = 0 then .moveTo c m gd ga else if mode = 1 then .moveBy c m gd ga else .moveRun c m gd ga := by
  have f {lo n v : Nat} (hn : lo + n ≤ 14) (hv : (2 * mode + m.val) / 2 ^ lo % 2 ^ n = v) :=
    fld_number gd ga 0 (op := 0x32) (by decide) hn (by omega) hv
  have hne : mode ≠ 3 := by omega
  simp only [decodeInsn, legalWord, decodeFunction, unusedOk_low (m := 7) (k := 3) (by decide) (by decide), fld_fmtA_op (show 0x32 < 64 by decide),
    f (lo := 0) (n := 1) (v := m.val) (by decide) (by omega), f (lo := 1) (n := 2) (v := mode) (by decide) (by omega),
    f (lo := 3) (n := 11) (v := 0) (by decide) (by omega), Fin.ofNat_val_eq_self, Bool.and_eq_true, bne_iff_ne, beq_iff_eq]
  simpa [hne] using fun h1 h2 => absurd (hd h1) h2

/-- MSTOP (04 R112). -/
theorem decode_mstop : decodeInsn c (fmtA 0x33 0 0 0 (BitVec.ofNat 14 m.val)) = .mstop c m := by
  have f {lo n v : Nat} (hn : lo + n ≤ 14) (hv : m.val / 2 ^ lo % 2 ^ n = v) := fld_number 0 0 0 (op := 0x33) (by decide) hn (by omega) hv
  simp only [decodeInsn, legalWord, decodeFunction, unusedOk_low (m := 1) (k := 1) (by decide) (by decide), fld_fmtA_op (show 0x33 < 64 by decide),
    f (lo := 0) (n := 1) (v := m.val) (by decide) (by omega), f (lo := 1) (n := 13) (v := 0) (by decide) (by omega), Fin.ofNat_val_eq_self]
  simp

/-- XFER and DRING (04 R112). -/
theorem decode_channel : decodeInsn c (fmtA 0x34 0 ga 0 (BitVec.ofNat 14 ch.val)) = .xfer c ch ga ∧
    decodeInsn c (fmtA 0x35 0 0 0 (BitVec.ofNat 14 ch.val)) = .dring c ch := by
  have f {op lo n v : Nat} (ga : Reg) (h : op < 64) (hn : lo + n ≤ 14) (hv : ch.val / 2 ^ lo % 2 ^ n = v) := fld_number 0 ga 0 (op := op) h hn (by omega) hv
  have f0 {op : Nat} (ga : Reg) (h : op < 64) := f ga h (lo := 0) (n := 4) (v := ch.val) (by decide) (by omega)
  have f4 {op : Nat} (ga : Reg) (h : op < 64) := f ga h (lo := 4) (n := 10) (v := 0) (by decide) (by omega)
  simp only [decodeInsn, legalWord, decodeFunction, unusedOk_low (m := 0xF) (k := 4) (by decide) (by decide), fld_fmtA_op (show 0x34 < 64 by decide),
    fld_fmtA_op (show 0x35 < 64 by decide), f0 ga (show 0x34 < 64 by decide), f4 ga (show 0x34 < 64 by decide), f0 0 (show 0x35 < 64 by decide),
    f4 0 (show 0x35 < 64 by decide), Fin.ofNat_val_eq_self]
  simp

/-- HKREQ URGENT (04 R112). -/
theorem decode_urgent : decodeInsn c (fmtA 0x36 0 0 0 (BitVec.ofNat 14 (1 + 4 * b.val + 16 * e.val))) = .hkreqUrgent c b e := by
  have f {lo n v : Nat} (hn : lo + n ≤ 14) (hv : (1 + 4 * b.val + 16 * e.val) / 2 ^ lo % 2 ^ n = v) :=
    fld_number 0 0 0 (op := 0x36) (by decide) hn (by omega) hv
  simp only [decodeInsn, legalWord, decodeFunction, unusedOk_urgent, fld_fmtA_op (show 0x36 < 64 by decide),
    f (lo := 0) (n := 2) (v := 1) (by decide) (by omega), f (lo := 2) (n := 1) (v := b.val) (by decide) (by omega),
    f (lo := 4) (n := 4) (v := e.val) (by decide) (by omega), f (lo := 3) (n := 1) (v := 0) (by decide) (by omega),
    f (lo := 8) (n := 6) (v := 0) (by decide) (by omega), Fin.ofNat_val_eq_self]
  simp

/-- HKRD (04 R112). -/
theorem decode_hkrd : decodeInsn c (fmtA 0x37 gd 0 0 (BitVec.ofNat 14 (e.val + 16 * peek.toNat))) = .hkrd c gd e peek := by
  have hp := peek.toNat_le
  have f {lo n v : Nat} (hn : lo + n ≤ 14) (hv : (e.val + 16 * peek.toNat) / 2 ^ lo % 2 ^ n = v) :=
    fld_number gd 0 0 (op := 0x37) (by decide) hn (by omega) hv
  simp only [decodeInsn, legalWord, decodeFunction, unusedOk_low (m := 0x1F) (k := 5) (by decide) (by decide), fld_fmtA_op (show 0x37 < 64 by decide),
    f (lo := 0) (n := 4) (v := e.val) (by decide) (by omega), f (lo := 4) (n := 1) (v := peek.toNat) (by decide) (by omega),
    f (lo := 5) (n := 9) (v := 0) (by decide) (by omega), Fin.ofNat_val_eq_self, bit_eq_fld]
  cases peek <;> simp

/-- KEY (04 R112). -/
theorem decode_key : decodeInsn c (fmtA 0x38 0 0 0 (BitVec.ofNat 14 q.val)) = .key c q := by
  have f {lo n v : Nat} (hn : lo + n ≤ 14) (hv : q.val / 2 ^ lo % 2 ^ n = v) := fld_number 0 0 0 (op := 0x38) (by decide) hn (by omega) hv
  simp only [decodeInsn, legalWord, decodeFunction, unusedOk_low (m := 7) (k := 3) (by decide) (by decide), fld_fmtA_op (show 0x38 < 64 by decide),
    f (lo := 0) (n := 3) (v := q.val) (by decide) (by omega), f (lo := 3) (n := 11) (v := 0) (by decide) (by omega), Fin.ofNat_val_eq_self]
  simp

end Numbers

end Decode

/-- The word of a well-formed instruction decodes to it (04 R92 to R94). -/
theorem decode_encode {i : Instr} {c : CtxId} {w : Word} (hw : wellFormed i = true) (he : encodeInsn i = some (c, w)) : decodeInsn c w = i := by
  cases i
  all_goals simp only [encodeInsn, reduceCtorEq, Option.some.injEq, Prod.mk.injEq] at he
  all_goals obtain ⟨rfl, rfl⟩ := he
  case add | sub | and | or | xor | shl | shr | sra | mul | mulh | min | max | cmp | addi | lui =>
    simp [decodeInsn, legalWord, decodeFunction, decodePlain]
  case ldw | ldh | ldb | stw | sth | stb | swap | cas | jal | jr | yield | halt | fenceSl | fenceAll =>
    simp [decodeInsn, legalWord, decodeFunction, decodePlain]
  case beq | bne | blt | bge | bltu => simp [decodeInsn, legalWord, decodeFunction, decodePlain, branchLegal]
  case beqF | bneF | bltF | bgeF | bltuF | beqA | bneA => simp only [decode_flags]
  case wait | lineStart | lineStop | seamFreeze | seamResume | seamReset | caps => simp only [decode_line, decode_seam]
  case credGrant | credClose | credOpen | credRead => simp only [decode_cred]
  case ctxStart | ctxStop | ctxReset | ctxSetU | ctxSetS => simp only [decode_ctx]
  case thaw | sysReset | sysStandby | sysFuse => simp only [decode_sys]
  case hkreqSeq | hkreqStop => simp only [decode_hkreq]
  case win => exact decode_win _ _ _ _ _
  case emit => exact decode_emit _ _ _
  case arm => exact decode_arm _ _ _
  case moveTo m gd ga => simpa using decode_move _ gd ga m (mode := 0) (by decide) nofun
  case moveBy m gd ga => simpa using decode_move _ gd ga m (mode := 1) (by decide) nofun
  case moveRun m gd ga =>
    have hd : gd = 0 := by
      by_contra hne
      simp [wellFormed, illFormed, need, hne] at hw
    simpa using decode_move _ gd ga m (mode := 2) (by decide) fun _ => hd
  case mstop => exact decode_mstop _ _
  case xfer => exact (decode_channel _ _ _).1
  case dring => exact (decode_channel _ 0 _).2
  case hkreqUrgent => exact decode_urgent _ _ _
  case hkrd => exact decode_hkrd _ _ _ _
  case key => exact decode_key _ _
  case ts gd ga => exact decode_ts _ gd ga (by simpa [wellFormed, illFormed, need] using hw)
  case illegalOp v =>
    have hl : legalWord v = false := by simpa [wellFormed, illFormed, need] using hw
    rw [decodeInsn, hl]
    rfl

/-! ### The instruction that a legal word spells -/

/-- An instruction that a word spells: it is well formed and a legal one, and the word is its word (04 R92, R93). -/
def Spells (c : CtxId) (w : Word) (i : Instr) : Prop := wellFormed i = true ∧ encodeInsn i = some (c, w) ∧ i ≠ .illegalOp c w

/-- An instruction whose word is put together from the fields of another spells that. -/
theorem spells_of {c : CtxId} {v w : Word} {i : Instr} (hv : v = w) (hw : wellFormed i = true) (he : encodeInsn i = some (c, v)) (hn : i ≠ .illegalOp c w) :
    Spells c w i := ⟨hw, hv ▸ he, hn⟩

/-- A field of the function code by its value (04 R94). -/
theorem fld_code {w : Word} {lo n : Nat} (h : lo + n ≤ 14) : fld w lo n = fld w 0 14 / 2 ^ lo % 2 ^ n := fld_within h

/-- A function code of a known value (04 R94). -/
theorem code_eq {w : Word} {n : Nat} (h : n = fld w 0 14) : (BitVec.ofNat 14 n).toNat = fld w 0 14 := by
  have hl : fld w 0 14 < 2 ^ 14 := BitVec.isLt _
  rw [BitVec.toNat_ofNat, Nat.mod_eq_of_lt (by omega), h]

/-- A function code in the low bits is their field (04 R94). -/
theorem code_low {w : Word} {k : Nat} (hk : k < 15) (h : fld w k (14 - k) = 0) : fld w 0 14 = fld w 0 k := by
  have hl : fld w 0 14 < 2 ^ 14 := BitVec.isLt _
  have hp : 2 ^ 14 = 2 ^ k * 2 ^ (14 - k) := by rw [← pow_add, Nat.add_sub_cancel' (by omega)]
  have hlow : fld w 0 14 < 2 ^ k := by
    rw [fld_code (by omega), Nat.mod_eq_of_lt (Nat.div_lt_of_lt_mul (hp ▸ hl))] at h
    exact (Nat.div_eq_zero_iff_lt (Nat.two_pow_pos k)).mp h
  rw [fld_code (lo := 0) (n := k) (by omega), Nat.pow_zero, Nat.div_one, Nat.mod_eq_of_lt hlow]

/-- An operand that a field names has the field's value (04 R92). -/
theorem ofNat_fld (w : Word) (lo n : Nat) : (Fin.ofNat (2 ^ n) (fld w lo n)).val = fld w lo n := Nat.mod_eq_of_lt (BitVec.isLt _)

section Rows

variable {w : Word} (c : CtxId)

section Plain

variable {op : Nat} (hop : fld w 26 6 = op)

include hop

/-- The word of its own A-format fields (04 R92). -/
theorem fmtA_all : fmtA op (fieldD w) (fieldA w) (fieldB w) (field14 w) = w :=
  fmtA_of hop (field_vals w).1 (field_vals w).2.1 (field_vals w).2.2 rfl

/-- The word of its own I-format fields (04 R92). -/
theorem fmtI_all : fmtI op (fieldD w) (fieldA w) (field18 w) = w := fmtI_of hop (field_vals w).1 (field_vals w).2.1 rfl

/-- A legal branch word is that of its register form, its flag form or its absence form (04 R102). -/
theorem branch_forms {absForm : Bool} (h : branchLegal w absForm = true) :
    (fld w 22 4 = 0 ∧ fmtA op 0 (fieldA w) (fieldB w) (field14 w) = w) ∨ (fld w 22 4 = 1 ∧ fmtA op 1 0 0 (field14 w) = w) ∨
    (absForm = true ∧ fld w 22 4 = 2 ∧ fmtA op 2 0 0 (field14 w) = w) := by
  unfold branchLegal at h
  split at h
  next hf => exact .inl ⟨hf, fmtA_of hop hf.symm (field_vals w).2.1 (field_vals w).2.2 rfl⟩
  next hf =>
    obtain ⟨-, ha, hb⟩ := unusedOk_regs.mp h
    exact .inr (.inl ⟨hf, fmtA_of hop hf.symm (ha rfl).symm (hb rfl).symm rfl⟩)
  next hf =>
    obtain ⟨hx, hu⟩ := Bool.and_eq_true_iff.mp h
    obtain ⟨-, ha, hb⟩ := unusedOk_regs.mp hu
    exact .inr (.inr ⟨hx, hf, fmtA_of hop hf.symm (ha rfl).symm (hb rfl).symm rfl⟩)
  next => exact absurd h Bool.false_ne_true

end Plain

variable (h : legalWord w = true)

include h

/-- The fences (04 R101). -/
theorem spells_fence (hop : fld w 26 6 = 0x18) : Spells c w (decodeFunction c w) := by
  simp only [legalWord, hop, Bool.and_eq_true, Bool.or_eq_true, beq_iff_eq, fld_eq] at h
  simp only [decodeFunction, decodePlain, hop, fld_eq]
  obtain ⟨hf, hz⟩ := h
  have hd : (0 : Reg).val = fld w 22 4 := by rw [fld_eq]; show 0 = _; omega
  have ha : (0 : Reg).val = fld w 18 4 := by rw [fld_eq]; show 0 = _; omega
  have hb : (0 : Reg).val = fld w 14 4 := by rw [fld_eq]; show 0 = _; omega
  split
  next h1 => exact spells_of (fmtA_of hop hd ha hb (by rw [fld_eq, h1]; rfl)) rfl rfl nofun
  next h1 => exact spells_of (fmtA_of hop hd ha hb (by rw [fld_eq, hf.resolve_left h1]; rfl)) rfl rfl nofun

/-- The branches that have an absence form (04 R102). -/
theorem spells_beq (hop : fld w 26 6 = 0x20 ∨ fld w 26 6 = 0x21) : Spells c w (decodeFunction c w) := by
  rcases hop with hop | hop <;> simp only [legalWord, hop] at h <;> simp only [decodeFunction, decodePlain, hop] <;>
    obtain ⟨hf, hw⟩ | ⟨hf, hw⟩ | ⟨-, hf, hw⟩ := branch_forms hop h <;> rw [hf] <;> exact spells_of hw rfl rfl nofun

/-- The other branches (04 R102). -/
theorem spells_blt (hop : fld w 26 6 = 0x22 ∨ fld w 26 6 = 0x23 ∨ fld w 26 6 = 0x24) : Spells c w (decodeFunction c w) := by
  rcases hop with hop | hop | hop <;> simp only [legalWord, hop] at h <;> simp only [decodeFunction, decodePlain, hop] <;>
    obtain ⟨hf, hw⟩ | ⟨hf, hw⟩ := (branch_forms hop h).imp_right fun hr => hr.resolve_right fun hx => Bool.false_ne_true hx.1
  all_goals
    rw [hf]
    exact spells_of hw rfl rfl nofun

/-- The forms of CTX (04 R114). -/
theorem spells_ctx (hop : fld w 26 6 = 0x1C) : Spells c w (decodeFunction c w) := by
  simp only [legalWord, hop, forall_const, Bool.and_eq_true, decide_eq_true_eq, unusedOk_low (m := 0xF) (k := 4) (by decide) (by decide)] at h
  obtain ⟨⟨h1, h5⟩, hd, -, hb, hz⟩ := h
  have hcode := code_low (by decide) hz
  have hs {n : Nat} (hn : fld w 0 4 = n) : fmtA 0x1C 0 (fieldA w) 0 (BitVec.ofNat 14 n) = w :=
    fmtA_of hop hd.symm (field_vals w).2.1 hb.symm (code_eq (hn.symm.trans hcode.symm))
  simp only [decodeFunction, hop]
  obtain hn | hn | hn | hn | hn : fld w 0 4 = 1 ∨ fld w 0 4 = 2 ∨ fld w 0 4 = 3 ∨ fld w 0 4 = 4 ∨ fld w 0 4 = 5 := by omega
  all_goals
    rw [hn]
    exact spells_of (hs hn) rfl rfl nofun

/-- WIN (04 R114). -/
theorem spells_win (hop : fld w 26 6 = 0x1D) : Spells c w (decodeFunction c w) := by
  simp only [legalWord, hop, unusedOk_low (m := 3) (k := 2) (by decide) (by decide)] at h
  obtain ⟨-, -, -, hz⟩ := h
  simp only [decodeFunction, hop]
  exact spells_of (fmtA_of hop (field_vals w).1 (field_vals w).2.1 (field_vals w).2.2
    (code_eq ((ofNat_fld w 0 2).trans (code_low (by decide) hz).symm))) rfl rfl nofun

/-- THAW (04 R114). -/
theorem spells_thaw (hop : fld w 26 6 = 0x1E) : Spells c w (decodeFunction c w) := by
  simp only [legalWord, hop, forall_const, Bool.and_eq_true, beq_iff_eq, unusedOk_regs] at h
  obtain ⟨hf, hd, -, hb⟩ := h
  simp only [decodeFunction, hop]
  exact spells_of (fmtA_of (imm := 0) hop hd.symm (field_vals w).2.1 hb.symm hf.symm) rfl rfl nofun

/-- The forms of SYS (04 R114). -/
theorem spells_sys (hop : fld w 26 6 = 0x1F) : Spells c w (decodeFunction c w) := by
  simp only [legalWord, hop] at h
  simp only [decodeFunction, hop]
  split at h
  next hf =>
    obtain ⟨hd, ha, hb⟩ := unusedOk_regs.mp h
    have hs {n : Imm14} (hn : fld w 0 14 = n.toNat) : fmtA 0x1F 0 0 0 n = w := fmtA_of hop (hd rfl).symm (ha rfl).symm (hb rfl).symm hn.symm
    rcases hf with hf | hf <;> rw [hf]
    · exact spells_of (hs (n := 1) hf) rfl rfl nofun
    · exact spells_of (hs (n := 2) hf) rfl rfl nofun
  next hf =>
    simp only [Bool.and_eq_true, beq_iff_eq, unusedOk_regs, forall_const] at h
    obtain ⟨h3, -, -, hb⟩ := h
    rw [h3]
    exact spells_of (fmtA_of (imm := 3) hop (field_vals w).1 (field_vals w).2.1 hb.symm h3.symm) rfl rfl nofun

/-- JR (04 R104). -/
theorem spells_jr (hop : fld w 26 6 = 0x26) : Spells c w (decodeFunction c w) := by
  simp only [legalWord, hop, beq_iff_eq] at h
  simp only [decodeFunction, decodePlain, hop]
  exact spells_of (fmtA_of hop (field_vals w).1 (field_vals w).2.1 h.symm rfl) rfl rfl nofun

/-- CMP (04 R98). -/
theorem spells_cmp (hop : fld w 26 6 = 0x0D) : Spells c w (decodeFunction c w) := by
  simp only [legalWord, hop, beq_iff_eq] at h
  simp only [decodeFunction, decodePlain, hop]
  exact spells_of (fmtA_of hop h.symm (field_vals w).2.1 (field_vals w).2.2 rfl) rfl rfl nofun

/-- LUI (04 R98). -/
theorem spells_lui (hop : fld w 26 6 = 0x0F) : Spells c w (decodeFunction c w) := by
  simp only [legalWord, hop, beq_iff_eq] at h
  simp only [decodeFunction, decodePlain, hop]
  exact spells_of (fmtI_of hop (field_vals w).1 h.symm rfl) rfl rfl nofun

/-- WAIT (04 R105). -/
theorem spells_wait (hop : fld w 26 6 = 0x28) : Spells c w (decodeFunction c w) := by
  simp only [legalWord, hop, forall_const, unusedOk_low (m := 0) (k := 0) (by decide) (by decide)] at h
  obtain ⟨hd, -, -, hz⟩ := h
  simp only [decodeFunction, hop]
  exact spells_of (fmtA_of (imm := 0) hop hd.symm (field_vals w).2.1 (field_vals w).2.2 hz.symm) rfl rfl nofun

/-- EMIT (04 R108). -/
theorem spells_emit (hop : fld w 26 6 = 0x29) : Spells c w (decodeFunction c w) := by
  simp only [legalWord, hop, forall_const, unusedOk_low (m := 3) (k := 2) (by decide) (by decide)] at h
  obtain ⟨hd, -, hb, hz⟩ := h
  simp only [decodeFunction, hop]
  exact spells_of (fmtA_of hop hd.symm (field_vals w).2.1 hb.symm (code_eq ((ofNat_fld w 0 2).trans (code_low (by decide) hz).symm)))
    rfl rfl nofun

/-- YIELD and HALT (04 R105, R106). -/
theorem spells_yield (hop : fld w 26 6 = 0x2A ∨ fld w 26 6 = 0x2B) : Spells c w (decodeFunction c w) := by
  rcases hop with hop | hop <;> simp only [legalWord, hop, beq_iff_eq] at h <;> simp only [decodeFunction, hop]
  · exact spells_of (fmtJ_of (imm := 0) hop h.symm) rfl rfl nofun
  · exact spells_of (fmtJ_of (imm := 0) hop h.symm) rfl rfl nofun

/-- TS (04 R109). -/
theorem spells_ts (hop : fld w 26 6 = 0x2C) : Spells c w (decodeFunction c w) := by
  simp only [legalWord, hop, forall_const, Bool.and_eq_true, Bool.or_eq_true, bne_iff_ne, beq_iff_eq,
    unusedOk_low (m := 0) (k := 0) (by decide) (by decide)] at h
  obtain ⟨⟨-, -, hb, hz⟩, hne⟩ := h
  have hwf : wellFormed (.ts c (fieldD w) (fieldA w)) = true := by
    have hr : fieldD w = fieldA w → fieldD w = 0 := fun heq => by
      rw [← (field_vals w).1, ← (field_vals w).2.1] at hne
      exact Fin.ext (hne.resolve_left fun hx => hx (congrArg Fin.val heq))
    simpa [wellFormed, illFormed, need] using hr
  simp only [decodeFunction, hop]
  exact spells_of (fmtA_of (imm := 0) hop (field_vals w).1 (field_vals w).2.1 hb.symm hz.symm) hwf rfl nofun

/-- LINE (04 R112). -/
theorem spells_line (hop : fld w 26 6 = 0x30) : Spells c w (decodeFunction c w) := by
  simp only [legalWord, hop, forall_const, Bool.or_eq_true, Bool.and_eq_true, beq_iff_eq, unusedOk_regs] at h
  simp only [decodeFunction, hop]
  obtain hf | ⟨hf, hd, ha, hb⟩ := h <;> rw [hf]
  · exact spells_of (fmtA_of (imm := 0) hop (field_vals w).1 (field_vals w).2.1 (field_vals w).2.2 hf.symm) rfl rfl nofun
  · exact spells_of (fmtA_of (imm := 1) hop hd.symm ha.symm hb.symm hf.symm) rfl rfl nofun

/-- ARM (04 R112). -/
theorem spells_arm (hop : fld w 26 6 = 0x31) : Spells c w (decodeFunction c w) := by
  simp only [legalWord, hop, forall_const, unusedOk_low (m := 7) (k := 3) (by decide) (by decide)] at h
  obtain ⟨hd, ha, hb, hz⟩ := h
  have hn : fld w 0 2 + 4 * fld w 2 1 = fld w 0 14 := by
    rw [code_low (by decide) hz]
    simp only [fld_eq]
    omega
  simp only [decodeFunction, hop]
  refine spells_of (fmtA_of hop hd.symm ha.symm hb.symm (code_eq ?_)) rfl rfl nofun
  rw [← hn]
  exact congrArg₂ (· + 4 * ·) (ofNat_fld w 0 2) (ofNat_fld w 2 1)

/-- MOVE (04 R112). -/
theorem spells_move (hop : fld w 26 6 = 0x32) : Spells c w (decodeFunction c w) := by
  simp only [legalWord, hop, forall_const, Bool.and_eq_true, bne_iff_ne, unusedOk_low (m := 7) (k := 3) (by decide) (by decide), beq_iff_eq] at h
  obtain ⟨h3, hd, -, hb, hz⟩ := h
  have hs {mode : Nat} (hm : fld w 1 2 = mode) :
      fmtA 0x32 (fieldD w) (fieldA w) 0 (BitVec.ofNat 14 (2 * mode + (Fin.ofNat 2 (fld w 0 1)).val)) = w := by
    refine fmtA_of hop (field_vals w).1 (field_vals w).2.1 hb.symm (code_eq ?_)
    have hx : (Fin.ofNat 2 (fld w 0 1)).val = fld w 0 1 := ofNat_fld w 0 1
    rw [hx, code_low (by decide) hz, ← hm]
    simp only [fld_eq]
    omega
  have hlt : fld w 1 2 < 2 ^ 2 := BitVec.isLt _
  simp only [decodeFunction, hop]
  split
  next h0 =>
    have hw := hs h0
    rw [Nat.mul_zero, Nat.zero_add] at hw
    exact spells_of hw rfl rfl nofun
  next h0 =>
    split
    next h1 => exact spells_of (hs h1) rfl rfl nofun
    next h1 =>
      have h2 : fld w 1 2 = 2 := by omega
      have hwf : wellFormed (.moveRun c (Fin.ofNat 2 (fld w 0 1)) (fieldD w) (fieldA w)) = true := by
        have hz : fieldD w = 0 := Fin.ext ((field_vals w).1.trans (hd h2))
        simp [wellFormed, illFormed, need, hz]
      exact spells_of (hs h2) hwf rfl nofun

/-- MSTOP (04 R112). -/
theorem spells_mstop (hop : fld w 26 6 = 0x33) : Spells c w (decodeFunction c w) := by
  simp only [legalWord, hop, forall_const, unusedOk_low (m := 1) (k := 1) (by decide) (by decide)] at h
  obtain ⟨hd, ha, hb, hz⟩ := h
  simp only [decodeFunction, hop]
  exact spells_of (fmtA_of hop hd.symm ha.symm hb.symm (code_eq ((ofNat_fld w 0 1).trans (code_low (by decide) hz).symm)))
    rfl rfl nofun

/-- XFER (04 R112). -/
theorem spells_xfer (hop : fld w 26 6 = 0x34) : Spells c w (decodeFunction c w) := by
  simp only [legalWord, hop, forall_const, unusedOk_low (m := 0xF) (k := 4) (by decide) (by decide)] at h
  obtain ⟨hd, -, hb, hz⟩ := h
  simp only [decodeFunction, hop]
  exact spells_of (fmtA_of hop hd.symm (field_vals w).2.1 hb.symm (code_eq ((ofNat_fld w 0 4).trans (code_low (by decide) hz).symm)))
    rfl rfl nofun

/-- DRING (04 R112). -/
theorem spells_dring (hop : fld w 26 6 = 0x35) : Spells c w (decodeFunction c w) := by
  simp only [legalWord, hop, forall_const, unusedOk_low (m := 0xF) (k := 4) (by decide) (by decide)] at h
  obtain ⟨hd, ha, hb, hz⟩ := h
  simp only [decodeFunction, hop]
  exact spells_of (fmtA_of hop hd.symm ha.symm hb.symm (code_eq ((ofNat_fld w 0 4).trans (code_low (by decide) hz).symm)))
    rfl rfl nofun

/-- The forms of HKREQ (04 R112). -/
theorem spells_hkreq (hop : fld w 26 6 = 0x36) : Spells c w (decodeFunction c w) := by
  simp only [legalWord, hop] at h
  simp only [decodeFunction, hop]
  split at h
  next hf =>
    obtain ⟨hd, ha, hb, hz⟩ := (unusedOk_low (m := 3) (k := 2) (by decide) (by decide)).mp h
    rw [hf]
    exact spells_of (fmtA_of (imm := 0) hop (hd rfl).symm (ha rfl).symm (hb rfl).symm (hf.symm.trans (code_low (by decide) hz).symm)) rfl rfl nofun
  next hf =>
    obtain ⟨hd, ha, hb, h3, h8⟩ := unusedOk_urgent.mp h
    have hn : 1 + 4 * fld w 2 1 + 16 * fld w 4 4 = fld w 0 14 := by
      simp only [fld_eq] at hf h3 h8 ⊢
      omega
    rw [hf]
    refine spells_of (fmtA_of hop hd.symm ha.symm hb.symm (code_eq ?_)) rfl rfl nofun
    rw [← hn]
    exact congrArg₂ (1 + 4 * · + 16 * ·) (ofNat_fld w 2 1) (ofNat_fld w 4 4)
  next hf =>
    obtain ⟨hd, ha, hb, hz⟩ := (unusedOk_low (m := 3) (k := 2) (by decide) (by decide)).mp h
    rw [hf]
    exact spells_of (fmtA_of (imm := 2) hop (hd rfl).symm (ha rfl).symm (hb rfl).symm (hf.symm.trans (code_low (by decide) hz).symm)) rfl rfl nofun
  next => exact absurd h Bool.false_ne_true

/-- HKRD (04 R112). -/
theorem spells_hkrd (hop : fld w 26 6 = 0x37) : Spells c w (decodeFunction c w) := by
  simp only [legalWord, hop, forall_const, unusedOk_low (m := 0x1F) (k := 5) (by decide) (by decide)] at h
  obtain ⟨-, ha, hb, hz⟩ := h
  have hp : (bit w 4).toNat = fld w 4 1 := by
    have hl : fld w 4 1 < 2 ^ 1 := BitVec.isLt _
    rw [bit_eq_fld]
    cases hx : decide (fld w 4 1 = 1) with
    | true => exact (of_decide_eq_true hx).symm
    | false => exact (Nat.lt_one_iff.mp (Nat.lt_of_le_of_ne (Nat.lt_succ_iff.mp hl) (of_decide_eq_false hx))).symm
  have hn : fld w 0 4 + 16 * fld w 4 1 = fld w 0 14 := by
    rw [code_low (by decide) hz]
    simp only [fld_eq]
    omega
  simp only [decodeFunction, hop]
  refine spells_of (fmtA_of hop (field_vals w).1 ha.symm hb.symm (code_eq ?_)) rfl rfl nofun
  rw [← hn, hp]
  exact congrArg (· + 16 * fld w 4 1) (ofNat_fld w 0 4)

/-- KEY (04 R112). -/
theorem spells_key (hop : fld w 26 6 = 0x38) : Spells c w (decodeFunction c w) := by
  simp only [legalWord, hop, forall_const, unusedOk_low (m := 7) (k := 3) (by decide) (by decide)] at h
  obtain ⟨hd, ha, hb, hz⟩ := h
  simp only [decodeFunction, hop]
  exact spells_of (fmtA_of hop hd.symm ha.symm hb.symm (code_eq ((ofNat_fld w 0 3).trans (code_low (by decide) hz).symm)))
    rfl rfl nofun

/-- The forms of SEAM (04 R112). -/
theorem spells_seam (hop : fld w 26 6 = 0x39) : Spells c w (decodeFunction c w) := by
  simp only [legalWord, hop, forall_const, Bool.and_eq_true, decide_eq_true_eq, unusedOk_regs] at h
  obtain ⟨hf, hd, ha, hb⟩ := h
  have hs {n : Imm14} (hn : fld w 0 14 = n.toNat) : fmtA 0x39 0 0 0 n = w := fmtA_of hop hd.symm ha.symm hb.symm hn.symm
  simp only [decodeFunction, hop]
  split
  next h0 => exact spells_of (hs (n := 0) h0) rfl rfl nofun
  next h0 =>
    split
    next h1 => exact spells_of (hs (n := 1) h1) rfl rfl nofun
    next h1 =>
      have h2 : fld w 0 14 = 2 := by omega
      exact spells_of (hs (n := 2) h2) rfl rfl nofun

/-- The forms of CRED (04 R112). -/
theorem spells_cred (hop : fld w 26 6 = 0x3A) : Spells c w (decodeFunction c w) := by
  simp only [legalWord, hop] at h
  simp only [decodeFunction, hop]
  split at h
  next hf =>
    obtain ⟨hd, -, -⟩ := unusedOk_regs.mp h
    rw [hf]
    exact spells_of (fmtA_of (imm := 0) hop (hd rfl).symm (field_vals w).2.1 (field_vals w).2.2 hf.symm) rfl rfl nofun
  next hf =>
    obtain ⟨hd, -, hb⟩ := unusedOk_regs.mp h
    rw [hf]
    exact spells_of (fmtA_of (imm := 1) hop (hd rfl).symm (field_vals w).2.1 (hb rfl).symm hf.symm) rfl rfl nofun
  next hf =>
    obtain ⟨hd, -, hb⟩ := unusedOk_regs.mp h
    rw [hf]
    exact spells_of (fmtA_of (imm := 2) hop (hd rfl).symm (field_vals w).2.1 (hb rfl).symm hf.symm) rfl rfl nofun
  next hf =>
    obtain ⟨-, -, hb⟩ := unusedOk_regs.mp h
    rw [hf]
    exact spells_of (fmtA_of (imm := 3) hop (field_vals w).1 (field_vals w).2.1 (hb rfl).symm hf.symm) rfl rfl nofun
  next => exact absurd h Bool.false_ne_true

/-- CAPS (04 R112). -/
theorem spells_caps (hop : fld w 26 6 = 0x3B) : Spells c w (decodeFunction c w) := by
  simp only [legalWord, hop, forall_const, Bool.and_eq_true, beq_iff_eq, unusedOk_regs] at h
  obtain ⟨hf, -, ha, hb⟩ := h
  simp only [decodeFunction, hop]
  exact spells_of (fmtA_of (imm := 0) hop (field_vals w).1 ha.symm hb.symm hf.symm) rfl rfl nofun

/-- Every legal word is that of the instruction it decodes to (04 R93). -/
theorem decodeFunction_spells : Spells c w (decodeFunction c w) := by
  have hl := h
  unfold legalWord at h
  split at h
  case h_1 | h_2 | h_3 | h_4 | h_5 | h_6 | h_7 | h_8 | h_9 | h_10 | h_11 | h_12 | h_22 | h_23 =>
    rename_i hop
    simp only [decodeFunction, decodePlain, hop]
    exact spells_of (fmtA_all hop) rfl rfl nofun
  case h_14 | h_16 | h_17 | h_18 | h_19 | h_20 | h_21 =>
    rename_i hop
    simp only [decodeFunction, decodePlain, hop]
    exact spells_of (fmtI_all hop) rfl rfl nofun
  case h_13 hop => exact spells_cmp c hl hop
  case h_15 hop => exact spells_lui c hl hop
  case h_24 hop => exact spells_fence c hl hop
  case h_25 hop => exact spells_ctx c hl hop
  case h_26 hop => exact spells_win c hl hop
  case h_27 hop => exact spells_thaw c hl hop
  case h_28 hop => exact spells_sys c hl hop
  case h_29 hop => exact spells_beq c hl (.inl hop)
  case h_30 hop => exact spells_beq c hl (.inr hop)
  case h_31 hop => exact spells_blt c hl (.inl hop)
  case h_32 hop => exact spells_blt c hl (.inr (.inl hop))
  case h_33 hop => exact spells_blt c hl (.inr (.inr hop))
  case h_34 hop =>
    simp only [decodeFunction, decodePlain, hop]
    exact spells_of (fmtJ_of hop (BitVec.extractLsb'_toNat ..)) rfl rfl nofun
  case h_35 hop => exact spells_jr c hl hop
  case h_36 hop => exact spells_wait c hl hop
  case h_37 hop => exact spells_emit c hl hop
  case h_38 hop => exact spells_yield c hl (.inl hop)
  case h_39 hop => exact spells_yield c hl (.inr hop)
  case h_40 hop => exact spells_ts c hl hop
  case h_41 hop => exact spells_line c hl hop
  case h_42 hop => exact spells_arm c hl hop
  case h_43 hop => exact spells_move c hl hop
  case h_44 hop => exact spells_mstop c hl hop
  case h_45 hop => exact spells_xfer c hl hop
  case h_46 hop => exact spells_dring c hl hop
  case h_47 hop => exact spells_hkreq c hl hop
  case h_48 hop => exact spells_hkrd c hl hop
  case h_49 hop => exact spells_key c hl hop
  case h_50 hop => exact spells_seam c hl hop
  case h_51 hop => exact spells_cred c hl hop
  case h_52 hop => exact spells_caps c hl hop
  case h_53 => exact absurd h Bool.false_ne_true

end Rows

/-- Every word is that of the well-formed instruction it decodes to, an illegal operation exactly where it is not legal (04 R93). -/
theorem encode_decode (c : CtxId) (w : Word) : wellFormed (decodeInsn c w) = true ∧ encodeInsn (decodeInsn c w) = some (c, w) ∧
    (legalWord w = false ↔ decodeInsn c w = .illegalOp c w) := by
  cases hl : legalWord w with
  | true =>
    obtain ⟨hw, he, hn⟩ := decodeFunction_spells c hl
    rw [decodeInsn, if_pos hl]
    exact ⟨hw, he, iff_of_false (by decide) hn⟩
  | false =>
    have hd : decodeInsn c w = .illegalOp c w := if_neg (by rw [hl]; decide)
    rw [hd]
    exact ⟨by simp [wellFormed, illFormed, need, hl], rfl, iff_of_true rfl rfl⟩

/-- Settles O4: a word put together decodes by its fields, row by row, and a legal word is put together from the fields that its row uses, the others being 0. -/
theorem decodeOfEncodeAndBack : Obligations.DecodeOfEncodeAndBack := ⟨fun _ _ _ => decode_encode, encode_decode⟩

end Sys2Proof.Proofs.Decoding
end

section
/-!
A step on an empty queue: what the passing of 2.5 ns leaves of the contexts, of memory and of the counts of CK_CORE (01 R17, R25, R27, 02 R42, 04 R97).
-/
namespace Sys2Proof.Proofs.Ticks

open Sys2Proof Sys2Proof.Machine Sys2Proof.Laws Sys2Proof.Proofs.Raise Sys2Proof.Proofs.HkConversion Sys2Proof.Proofs.Standby Sys2Proof.Proofs.LinkLines
  Sys2Proof.Proofs.LineCaptures

/-! ### What a tick shows of a device -/

/-- The contexts, the phase, the counts of CK_CORE, and the accesses of SPI and of debug that wait. -/
def clockView (d : Dev) : Vector Ctx 64 × Phase × Nat × BitVec 48 × List SpiReq × List DbgReq :=
  (d.ctx, d.phase, d.cycle, d.stb, d.spiReq, d.dbgReq)

/-- Memory, and what writes to it by itself: the bursts of the channels, the beats put out, and the SUSPEND packet that an entry owes. -/
def writeView (d : Dev) : Mem × Vector Chan 16 × List LateWrite × Bool := (d.mem, d.dma, d.late, d.pwr.suspDue)

/-! ### The end of a fire's cycle -/

/-- A device whose Hinge, line store and fabric alone differ from another's. -/
def HingeOnly (d t : Dev) : Prop := t = { d with hng := t.hng, ls := t.ls, ev := t.ev }

theorem HingeOnly.trans {d e t : Dev} (h : HingeOnly d e) (h' : HingeOnly e t) : HingeOnly d t := by
  unfold HingeOnly at *
  exact h'.trans (by rw [h])

theorem hingeOnly_raise (d : Dev) (n : Fin 64) (w : Word) : HingeOnly d (d.raise n w) := by
  unfold HingeOnly
  rw [raise_eq]

theorem hingeOnly_moveSlot (d : Dev) (n : Fin 256) (f : Slot → Slot) : HingeOnly d (d.moveSlot n f) := by
  have low (e : Dev) (b : Nat) : HingeOnly e (e.lowCheck b) := by
    unfold Dev.lowCheck
    dsimp only
    split
    · exact HingeOnly.trans (e := { e with ls := { e.ls with lowArmed := false } }) rfl (hingeOnly_raise _ _ _)
    · split <;> rfl
  exact HingeOnly.trans (e := d.updSlot n f) rfl (low _ _)

/-- A freeze from RUN changes the Hinge, and the slots that it keeps no longer (02 R48, 09 R202). -/
theorem hingeOnly_freeze (P : Part) (d : Dev) (r : Reason) (h : d.hng.st = .run) : HingeOnly d (d.freeze P r) := by
  have unpin (e : Dev) : HingeOnly e (e.unpin P) := List.foldlRecOn (motive := HingeOnly e) _ _ rfl fun t ht n _ => ht.trans <| by
    split
    · exact hingeOnly_moveSlot _ _ _
    · rfl
  unfold Dev.freeze
  dsimp only
  rw [if_pos h]
  refine HingeOnly.trans ?_ (unpin _)
  rfl

/-- The end of the cycle of a fire that took C to 0 raises event 12 and may freeze the Hinge (02 R42, R48). -/
theorem hingeOnly_creditStop (P : Part) (d : Dev) : HingeOnly d (d.creditStop P) := by
  unfold Dev.creditStop
  split
  · rfl
  next line _ =>
    have told : HingeOnly d ((d.updHng fun h => { h with stopDue := none, resumeOwed := true }).raise 12 line) :=
      HingeOnly.trans (e := d.updHng _) rfl (hingeOnly_raise _ _ _)
    dsimp only
    split
    next hr => exact told.trans (hingeOnly_freeze P _ _ hr.2)
    · exact told

/-! ### Contexts kept back -/

/-- Two register files of contexts equal but for the cycle since which a crossing has room for each (04 R97). -/
def SameButRoom (v u : Vector Ctx 64) : Prop := ∀ c : CtxId, u[c] = { v[c] with roomSince := (u[c]).roomSince }

/-- A context noted as kept back differs in that alone. -/
theorem SameButRoom.note {v u : Vector Ctx 64} (h : SameButRoom v u) (k : CtxId) (n : Nat) :
    SameButRoom v (upd u k fun x => { x with roomSince := n }) := fun c => by
  by_cases hk : k = c
  · subst hk
    rw [upd_get_self, h k]
  · rw [upd_get_ne _ _ _ _ hk]
    exact h c

/-- The contexts that a full crossing keeps back are noted, and nothing else changes (01 R25, 04 R97). -/
theorem heldBack_effect (P : Part) (d : Dev) : d.heldBack P = { d with ctx := (d.heldBack P).ctx } ∧ SameButRoom d.ctx (d.heldBack P).ctx := by
  unfold Dev.heldBack
  split
  · exact ⟨rfl, fun _ => rfl⟩
  · refine List.foldlRecOn (motive := fun t : Dev => t = { d with ctx := t.ctx } ∧ SameButRoom d.ctx t.ctx) _ _ ⟨rfl, fun _ => rfl⟩ fun t ht c _ => ?_
    obtain ⟨hf, hc⟩ := ht
    split
    · refine ⟨?_, hc.note c _⟩
      conv_lhs => rw [hf]
      rfl
    · exact ⟨hf, hc⟩

/-- Where every crossing has room no context is kept back (01 R25). -/
theorem heldBack_room {P : Part} {d : Dev} (h : ∀ k : Fin 9, d.crossRoom k = true) : d.heldBack P = d :=
  if_pos (List.all_eq_true.mpr fun k _ => h k)

/-! ### The counts -/

/-- A cycle of CK_CORE counts itself, STB and the timers (01 R24, R27, 05 R131). -/
theorem coreTick_eq (d : Dev) : d.coreTick = { d with cycle := d.cycle + 1, stb := d.stb + 1, ev := d.coreTick.ev } := by
  unfold Dev.coreTick Dev.tmrTick
  refine List.foldlRecOn (motive := fun t : Dev => t = { d with cycle := d.cycle + 1, stb := d.stb + 1, ev := t.ev }) _ _ rfl fun t ht k _ => ?_
  dsimp only
  split
  · conv_lhs => rw [ht]
    rfl
  · exact ht

/-- A device whose watchdogs and count of AON edges alone differ from another's. -/
def SlowOnly (d t : Dev) : Prop := t = { d with wdt := t.wdt, pwr := { d.pwr with aonEdges := t.pwr.aonEdges } }

theorem SlowOnly.refl (d : Dev) : SlowOnly d d := rfl

theorem SlowOnly.trans {d e t : Dev} (h : SlowOnly d e) (h' : SlowOnly e t) : SlowOnly d t := by
  unfold SlowOnly at *
  exact h'.trans (by rw [h])

/-- The slow clocks move the watchdogs and the count of AON edges alone (12 R276, R292). -/
theorem slowOnly_slowTick (P : Part) (d : Dev) : SlowOnly d (d.slowTick P) := by
  have maybe (c : Prop) [Decidable c] {e t : Dev} (h : SlowOnly e t) : SlowOnly e (if c then t else e) := by
    split
    · exact h
    · rfl
  have aon (e : Dev) : SlowOnly e (e.aonTick P) := rfl
  have hk (e : Dev) : SlowOnly e e.hkTick := rfl
  unfold Dev.slowTick
  exact (SlowOnly.trans (e := d.updWdt _) rfl (maybe _ (aon _))).trans (maybe _ (hk _))

/-! ### Bursts, beats and what waits -/

/-- Bytes stored leave what a tick shows but memory (01 R22). -/
theorem clockView_store (P : Part) (d : Dev) (a : Nat) (bs : List Byte) : clockView (d.store P a bs) = clockView d := by
  simp [clockView]

/-- A channel that a violation freezes (03 R78, 09 R217). -/
theorem clockView_dmaFreeze (P : Part) (d : Dev) (n : DmaId) (c a : Nat) (w : Bool) : clockView (d.dmaFreeze P n c a w) = clockView d := by
  have ring (rs : List (Nat × List Word)) : ∀ (i : BitVec 6) (q : Half) (d : Dev), clockView (Dev.writeRecords P rs i q d) = clockView d := by
    induction rs with
    | nil => exact fun _ _ _ => rfl
    | cons r rs ih => exact fun i q d => (ih _ _ _).trans (clockView_store P d _ _)
  have told (e : Dev) (k : Fin 64) (v : Word) : clockView (e.raise k v) = clockView e := by simp [clockView]
  have stop (e : Dev) : clockView (e.dmaStop P n 2) = clockView e := by
    unfold Dev.dmaStop Dev.dmaErr
    rw [told]
    split <;> rfl
  unfold Dev.dmaFreeze
  rw [stop]
  unfold Dev.freezeMst Dev.record
  exact (told _ _ _).trans (ring _ _ _ _)

/-- One beat of each write burst in progress (01 R17). -/
theorem clockView_dmaTick (P : Part) (d : Dev) : clockView (d.dmaTick P) = clockView d := by
  have commit (e : Dev) (n : DmaId) (w : Vector Word 7) (b : Nat) : clockView (e.dmaCommit n w b) = clockView e := by
    unfold Dev.dmaCommit
    dsimp only
    split
    · simp [clockView]
    · rfl
  have offer (e : Dev) (n : DmaId) : clockView (e.dmaOffer P n) = clockView e := by
    unfold Dev.dmaOffer
    dsimp only
    split
    · split
      · rfl
      · split
        · exact clockView_dmaFreeze _ _ _ _ _ _
        · rfl
    · rfl
  refine foldl_keeps clockView _ (fun e n => ?_) _ d
  unfold Dev.dmaBeat
  dsimp only
  split
  next w _ =>
    split
    next left a bs _ _ _ =>
      have beat : clockView (((e.store P a bs).dmaCommit n w bs.length).updDma n fun k => { k with burst := left }) = clockView e :=
        (commit _ n w _).trans (clockView_store P e a bs)
      split
      · exact (offer _ _).trans beat
      · exact beat
    next => rfl
  next => rfl

/-- With no write burst in progress no beat is accepted (01 R17). -/
theorem dmaTick_idle {P : Part} {d : Dev} (h : ∀ n : DmaId, (d.dma[n]).burst = 0) : d.dmaTick P = d := by
  refine List.foldl_fixed' (fun n => ?_) _
  unfold Dev.dmaBeat
  dsimp only
  rw [h n]
  split <;> rfl

/-- Beats that engines have put out and their ports grant (01 R17). -/
theorem clockView_lateServe (P : Part) (d : Dev) : clockView (d.lateServe P) = clockView d := by
  refine foldl_keeps clockView _ (fun e p => ?_) _ d
  split
  · unfold Dev.latePut
    split
    · exact clockView_store P _ _ _
    · rfl
  · rfl

/-- With no beat put out none is accepted (01 R17). -/
theorem lateServe_idle {P : Part} {d : Dev} (h : d.late = []) : d.lateServe P = d := by
  unfold Dev.lateServe
  rw [h]
  rfl

/-- Results of housekeeping that wait for room in their crossing (01 R25, 11 R274). -/
theorem hkFrame_hkWaits (P : Part) (d : Dev) : HkFrame d (d.hkWaits P) := by
  have kept : HkFrame d (d.hkKept P) := by
    unfold Dev.hkKept
    split
    · rfl
    · exact List.foldlRecOn (motive := HkFrame d) _ _ rfl fun e he k _ => he.trans (hkKept1_fields P e k).1
  have die (e : Dev) (t : Int) : HkFrame e (e.dieCross t) := by
    unfold Dev.dieCross
    split <;> rfl
  unfold Dev.hkWaits
  dsimp only
  split
  · exact kept
  · exact List.foldlRecOn (motive := HkFrame d) _ _ (kept.trans rfl) fun e he t _ => he.trans (die e t)

/-- The entry to STANDBY that waits for its SUSPEND packet (14 R324, R351). -/
theorem clockView_entryGo (P : Part) (d : Dev) : clockView (d.entryGo P) = clockView d := by
  have late (e : Dev) : clockView (e.lateAll P) = clockView e := (foldl_keeps clockView _ (fun e w => clockView_store P e _ _) _ _).trans rfl
  have deep (e : Dev) (k : LinkId) : clockView (e.linkDeep k) = clockView e := by
    unfold Dev.linkDeep
    split
    · rw [clockView, (onLines_deepTry _ k).frame]
      rfl
    · rfl
  have suspend {e : Dev} (h : d.trcSuspend P 3 = some e) : clockView e = clockView d := by
    unfold Dev.trcSuspend at h
    split at h
    · exact congrArg clockView (Option.some.inj h).symm
    · split at h
      · exact (congrArg clockView (Option.some.inj h).symm).trans ((late _).trans (by simp [clockView]))
      · cases h
  unfold Dev.entryGo
  split
  · split
    next e he => exact (foldl_keeps clockView _ deep _ _).trans ((suspend he).symm ▸ rfl)
    next => rfl
  · rfl

/-- An entry that owes no SUSPEND packet does not move (14 R351). -/
theorem entryGo_idle {P : Part} {d : Dev} (h : d.pwr.suspDue = false) : d.entryGo P = d :=
  if_neg fun hs => Bool.false_ne_true (h.symm.trans hs.2)

/-- They and the results of housekeeping leave what a tick shows but memory. -/
theorem clockView_waits (P : Part) (d : Dev) : clockView (((d.lateServe P).hkWaits P).entryGo P) = clockView d := by
  rw [clockView_entryGo, clockView, hkFrame_hkWaits]
  exact clockView_lateServe P d

/-- With no access of SPI or of debug waiting the others go on as they stand. -/
theorem coreWaits_eq {P : Part} {d : Dev} (hs : d.spiReq = []) (hb : d.dbgReq = []) : d.coreWaits P = ((d.lateServe P).hkWaits P).entryGo P := by
  have hv := clockView_waits P d
  generalize hx : ((d.lateServe P).hkWaits P).entryGo P = x at hv
  have hxs : x.spiReq = [] := (congrArg (fun v => v.2.2.2.2.1) hv).trans hs
  have hxb : x.dbgReq = [] := (congrArg (fun v => v.2.2.2.2.2) hv).trans hb
  unfold Dev.coreWaits
  rw [hx, Dev.spiServe, hxs, Dev.debugServe, hxb]

/-! ### The tick -/

/-- The contexts kept back, then the counts, after the end of a fire's cycle. -/
def counted (P : Part) (d : Dev) : Dev := ((d.creditStop P).heldBack P).coreTick

/-- The core's part of a tick with no access of SPI or of debug waiting (01 R17, R25, 02 R42). -/
def coreCycle (P : Part) (d : Dev) : Dev := ((((counted P d).dmaTick P).lateServe P).hkWaits P).entryGo P

/-- What the counts of a cycle leave, and the contexts that they note (01 R25, R27, 02 R42, 04 R97). -/
theorem counted_effect (P : Part) (d : Dev) :
    clockView (counted P d) = ((counted P d).ctx, d.phase, d.cycle + 1, d.stb + 1, d.spiReq, d.dbgReq) ∧ writeView (counted P d) = writeView d ∧
    SameButRoom d.ctx (counted P d).ctx ∧ ((∀ k : Fin 9, d.crossRoom k = true) → (counted P d).ctx = d.ctx) := by
  have hc : counted P d = { (d.creditStop P).heldBack P with
      cycle := ((d.creditStop P).heldBack P).cycle + 1, stb := ((d.creditStop P).heldBack P).stb + 1, ev := (counted P d).ev } := coreTick_eq _
  obtain ⟨hh, hr⟩ := heldBack_effect P (d.creditStop P)
  have hs := hingeOnly_creditStop P d
  have hctx : (d.creditStop P).ctx = d.ctx := by rw [hs]
  have hroom (k : Fin 9) : (d.creditStop P).crossRoom k = d.crossRoom k := by
    rw [hs]
    rfl
  have hcx : (counted P d).ctx = ((d.creditStop P).heldBack P).ctx := by rw [hc]
  refine ⟨?_, ?_, ?_, fun h => ?_⟩
  · rw [hcx, clockView, hc, hh, hs]
  · rw [writeView, hc, hh, hs]
    rfl
  · rw [hcx, ← hctx]
    exact hr
  · rw [hcx, heldBack_room fun k => (hroom k).trans (h k), hctx]

/-- With no access of SPI or of debug waiting a tick is the core's part, then the slow clocks (12 R292). -/
theorem slowOnly_tick {P : Part} {d : Dev} (hon : d.coreOn = true) (hs : d.spiReq = []) (hb : d.dbgReq = []) : SlowOnly (coreCycle P d) (d.tick P) := by
  have hv := (clockView_dmaTick P (counted P d)).trans (counted_effect P d).1
  simp only [clockView, Prod.mk.injEq] at hv
  obtain ⟨-, -, -, -, hvs, hvb⟩ := hv
  have hw : ((counted P d).dmaTick P).coreWaits P = coreCycle P d := coreWaits_eq (hvs.trans hs) (hvb.trans hb)
  unfold counted at hw
  unfold Dev.tick
  dsimp only
  rw [if_pos hon, hw]
  split
  · exact .refl _
  · exact slowOnly_slowTick P _

/-- With that clock standing still the slow clocks alone move (12 R292). -/
theorem slowOnly_tick_off {P : Part} {d : Dev} (hoff : d.coreOn = false) : SlowOnly d (d.tick P) := by
  unfold Dev.tick
  dsimp only
  rw [hoff, if_neg Bool.false_ne_true]
  split
  · rfl
  · exact slowOnly_slowTick P _

/-- What the slow clocks leave. -/
theorem SlowOnly.fields {d t : Dev} (h : SlowOnly d t) : clockView t = clockView d ∧ t.mem = d.mem := by
  unfold SlowOnly at h
  rw [h]
  exact ⟨rfl, rfl⟩

/-- What goes on after the counts leaves what a tick shows but memory. -/
theorem coreCycle_view (P : Part) (d : Dev) : clockView (coreCycle P d) = clockView (counted P d) :=
  (clockView_waits P _).trans (clockView_dmaTick P _)

/-- With no write burst in progress, no beat put out and no SUSPEND packet owed a cycle of CK_CORE leaves memory (01 R17, 14 R351). -/
theorem coreCycle_mem {P : Part} {d : Dev} (hb : ∀ n : DmaId, (d.dma[n]).burst = 0) (hl : d.late = []) (hs : d.pwr.suspDue = false) :
    (coreCycle P d).mem = d.mem := by
  obtain ⟨hmem, hdma, hlate, hsusp⟩ : (counted P d).mem = d.mem ∧ (counted P d).dma = d.dma ∧ (counted P d).late = d.late ∧
      (counted P d).pwr.suspDue = d.pwr.suspDue := by
    simpa only [writeView, Prod.mk.injEq] using (counted_effect P d).2.1
  have hk := hkFrame_hkWaits P (counted P d)
  have hp : ((counted P d).hkWaits P).pwr.suspDue = false := by
    rw [hk]
    exact hsusp.trans hs
  have hm : ((counted P d).hkWaits P).mem = (counted P d).mem := by rw [hk]
  unfold coreCycle
  rw [dmaTick_idle fun n => by rw [hdma]; exact hb n, lateServe_idle (hlate.trans hl), entryGo_idle hp]
  exact hm.trans hmem

/-- A command answers a next state, which differs in the device alone. -/
theorem exec_next (i : Instr) (s : State) : ∃ d : Dev, exec i s = .next { s with dev := d } := by
  cases i
  all_goals exact ⟨_, rfl⟩

/-- Settles O1: each command acts on the device, and a tick is taken apart into what each of its parts leaves. -/
theorem frontCommandRuns : Obligations.FrontCommandRuns := by
  unfold Obligations.FrontCommandRuns
  intro s
  refine ⟨fun i rest hq => ?_, fun hq => ⟨s.dev.tick s.part, ?_, fun hs hb => ?_, fun hoff => ?_⟩⟩
  · have hstep : step s = exec i { s with pending := rest } := by
      unfold step
      rw [hq]
    obtain ⟨d, hd⟩ := exec_next i { s with pending := rest }
    exact ⟨hstep, d, hstep.trans hd⟩
  · unfold step
    rw [hq]
  · cases hon : s.dev.coreOn with
    | true =>
      obtain ⟨hv, hm⟩ := (slowOnly_tick (P := s.part) hon hs hb).fields
      obtain ⟨hc, -, hnote, hroom⟩ := counted_effect s.part s.dev
      have ht := hv.trans ((coreCycle_view s.part s.dev).trans hc)
      simp only [clockView, Prod.mk.injEq] at ht
      obtain ⟨hctx, hph, hcyc, hstb, -, -⟩ := ht
      exact ⟨hctx ▸ hnote, fun h => hctx.trans (hroom h), hph, fun h1 h2 h3 => hm.trans (coreCycle_mem h1 h2 h3), fun _ => ⟨hcyc, hstb⟩⟩
    | false =>
      obtain ⟨hv, hm⟩ := (slowOnly_tick_off (P := s.part) hon).fields
      simp only [clockView, Prod.mk.injEq] at hv
      obtain ⟨hctx, hph, -, -, -, -⟩ := hv
      exact ⟨fun c => by rw [hctx], fun _ => hctx, hph, fun _ _ _ => hm, nofun⟩
  · obtain ⟨hv, hm⟩ := (slowOnly_tick_off (P := s.part) hoff).fields
    simp only [clockView, Prod.mk.injEq] at hv
    obtain ⟨hctx, -, hcyc, hstb, -, -⟩ := hv
    exact ⟨hctx, hm, hcyc, hstb⟩

end Sys2Proof.Proofs.Ticks
end
